-- ==== Sys2Proof/Word.lean ====
section
/-! DEFINITION. The word types of the Tirgoton and the data its commands carry: the header and signature block of a
command packet (15 R377, R384), and the structured reading of an Unpiod image (09 R232 to R249) for the sections whose
byte layout the spec does not give. -/

namespace Sys2Proof

abbrev W8 := BitVec 8
abbrev W16 := BitVec 16
abbrev W32 := BitVec 32
abbrev W64 := BitVec 64

/-- The transport a packet arrives on (15 R377, R383): the PCIe ring, the SPI port, or an in-band COMMAND frame of a
lane group from a source part. -/
inductive Transport where
  | pcie
  | spi
  | inband (group src : Nat)
  deriving DecidableEq, Repr

/-- The signature block of a signed command (15 R384). `verifies` says whether the ECDSA P-384 signature verifies
under the key it is checked with: the arithmetic of the standard is not the spec's (DESIGN CHOICE, log 4). -/
structure SigBlock where
  keySlot : Nat
  alg : Nat
  counter : Nat
  bind : Nat
  verifies : Bool
  deriving DecidableEq, Repr

/-- What the header of a packet that passed steps 1 to 6 of Table 15.3 leaves to the command (15 R377 to R382). -/
structure Hdr where
  transport : Transport
  tag : Nat
  quiet : Bool
  sig : Option SigBlock
  deriving DecidableEq, Repr

/-- One entry of RELOCATE (15 Table 15.9a): a segment base, or the part id of a logical part. -/
structure RelocEnt where
  isPart : Bool
  index : Nat
  value : Nat
  deriving DecidableEq, Repr

/-- A declared output of a Timed context: latency (02 R44), dependence set (R53), fallback (R54) and escalation (R55).
`deps` names monitors as (tile, monitor). `decision` is the first decision bit of the output, if it is one (12 R326); `src` names the
route that brings its value, as (tile, logical core, route, lowest bit of the flit). -/
structure OutDecl where
  ctx : Nat
  out : Nat
  width : Nat
  latT : Nat
  latC : Nat
  deps : List (Nat × Nat)
  fbKind : Nat
  fixed : W64
  escN : Nat
  escLog2 : Nat
  decision : Option Nat
  src : Option (Nat × Nat × Nat × Nat)
  deriving DecidableEq, Repr

/-- A stage group of the latency manifest (09 R249): NOMINAL, DEADLINE and its path vector; and the image offsets of the words that
hold the two (log 5). -/
structure GroupDecl where
  tile : Nat
  ctx : Nat
  group : Nat
  nomT : Nat
  nomC : Nat
  dlT : Nat
  dlC : Nat
  path : List Nat
  nomLoc : Nat
  dlLoc : Nat
  deriving DecidableEq, Repr

/-- A balance delay of the latency manifest (09 R249): the NOP at `pc` of a logical core; and the image offset of the word that holds D
(log 5). -/
structure BalDecl where
  tile : Nat
  row : Nat
  col : Nat
  ctx : Nat
  pc : Nat
  d : Nat
  dMin : Nat
  dMax : Nat
  path : List Nat
  loc : Nat
  deriving DecidableEq, Repr

/-- What TARGET says of one context (09 Table 9.4): margin, chain, T_LAST, drain slots, ESSENTIAL, and the last cycle it
uses in its slot in each tile (02 R45). -/
structure CtxDecl where
  ctx : Nat
  margin : Nat
  chainPos : Nat
  chainMask : Nat
  tLast : Nat
  dsEn : Bool
  dsLog2 : Nat
  dsPhase : Nat
  essential : Bool
  lastCycle : List (Nat × Nat)
  deriving DecidableEq, Repr

/-- A lane group that carries class-T fields, as TARGET declares it (09 R251 step 4; 11 R314). -/
structure ClassTGroup where
  group : Nat
  rate : Nat
  declSkew : Nat
  roundTrip : Option Nat
  deriving DecidableEq, Repr

/-- The blob of one logical core and context (09 Table 9.4): instruction words by number, core-store bytes by offset,
and context registers by offset in Table 3.6; `pass` is the pass of a pass chain it belongs to (06 R174). -/
structure CoreBlob where
  tile : Nat
  row : Nat
  col : Nat
  ctx : Nat
  pass : Nat
  iram : List (Nat × BitVec 128)
  store : List (Nat × W8)
  regs : List (Nat × W32)
  deriving DecidableEq, Repr

/-- A multicast tree of a tile (03 R86): destination queue and mask over logical cores (bit 16 r + j). -/
structure Tree where
  tile : Nat
  id : Nat
  dq : Nat
  mask : Nat
  deriving DecidableEq, Repr

/-- A wait-for edge of the queue table (06 R176): queue `q` of context `ctx` of core `core` of a tile is fed by the
context `fctx` of core `fcore` of tile `ftile`. Cores are logical: 16 r + j. -/
structure WaitEdge where
  tile : Nat
  core : Nat
  ctx : Nat
  q : Nat
  ftile : Nat
  fcore : Nat
  fctx : Nat
  deriving DecidableEq, Repr

/-- A reserved slot (07 R193): the arbiter index of the stop or port, the slot number and the owner id. -/
structure SlotRes where
  port : Nat
  slot : Nat
  owner : Nat
  deriving DecidableEq, Repr

/-- A slot a lookup route owns in its window (08 R221): sub-bank and PAT cycle; and the PAT cycle of the frame it takes there (07 R193,
log 5). -/
structure PatSlot where
  route : Nat
  bank : Nat
  cycle : Nat
  frame : Nat
  deriving DecidableEq, Repr

/-- An HBM segment (09 Table 9.5). -/
structure SegDecl where
  essential : Bool
  size256 : Nat
  stackMask : Nat
  alignLog2 : Nat
  initOff : Option Nat
  initLen : Nat
  deriving DecidableEq, Repr

/-- A key and value of PATTERN_CONTENTS (08 R229). -/
structure PatKv where
  table : Nat
  key : BitVec 96
  value : W64
  deriving DecidableEq, Repr

/-- What a 64-bit word of a written section holds (log 5): the contents of a device address, in a pass; part of a pair of
PATTERN_CONTENTS (0 KEY[63:0], 1 KEY[95:64], 2 VALUE); part of a multicast tree (0 to 7 its mask, 8 its id in [7:0] and its queue in
[34:32]); a wait-for edge (`edgeWord`); a reserved slot (`slotWord`); or a lookup's slot (`patSlotWord`). -/
inductive Place where
  | word (addr pass : Nat)
  | pattern (ix part : Nat)
  | tree (ix part : Nat)
  | edge (ix : Nat)
  | slot (ix : Nat)
  | patSlot (ix : Nat)
  deriving DecidableEq, Repr

/-- The image sections for which the spec gives contents and no byte layout (09 Table 9.4), as the loader reads them
(DESIGN CHOICE, log 5). The header, the section table, HBM segment descriptors, RELOCATIONS, PATCHES, INIT_DATA and the signature block
are read from the staged bytes. `segOff` and `segCount` locate the descriptors of Table 9.5; `storeInit` names the Store ranges that
INIT_DATA initialises, as device address, offset in INIT_DATA and length; `places` gives for the image offset of each 64-bit word of the
other written sections what it holds. -/
structure Contents where
  ctxs : List CtxDecl
  classT : List ClassTGroup
  blobs : List CoreBlob
  trees : List Tree
  edges : List WaitEdge
  slots : List SlotRes
  patSlots : List PatSlot
  patRoutes : List (Nat × Nat × Nat × Nat × Nat)
  regInit : List (Nat × W32)
  storeRanges : List (Nat × Nat × Bool)
  segOff : Nat
  segCount : Nat
  tensors : List (Nat × Nat × Nat)
  groups : List GroupDecl
  balances : List BalDecl
  outputs : List OutDecl
  patterns : List PatKv
  taps : List (Nat × Nat × Nat × Nat)
  passes : Nat
  passEvents : Nat
  relayBlocks : Nat
  places : List (Nat × Place)
  storeInit : List (Nat × Nat × Nat)
  deriving DecidableEq, Repr

def Contents.empty : Contents :=
  { ctxs := [], classT := [], blobs := [], trees := [], edges := [], slots := [], patSlots := [], patRoutes := [], regInit := [],
    storeRanges := [], segOff := 0, segCount := 0, tensors := [], groups := [], balances := [], outputs := [], patterns := [], taps := [],
    passes := 0, passEvents := 0, relayBlocks := 0, places := [], storeInit := [] }

/-- The configuration of a lane group and its fast-control register (10 Table 10.8, 11 R305). -/
structure GroupCfg where
  en : Bool
  parity : Bool
  lanes : List Nat
  declSkew : Nat
  fcEn : Bool
  acceptEn : Bool
  tickDiv : Nat
  deriving DecidableEq, Repr

/-- The configuration of one acquisition group (13 R334, Table 13.7), with the size in bytes of its area. -/
structure AcqCfg where
  en : Bool
  g : Nat
  stream : Nat
  nbuf : Nat
  nch : Nat
  firstCh : Nat
  pre : Nat
  post : Nat
  holdoff : Nat
  look : Nat
  mask : Nat
  base : Nat
  areaSize : Nat
  deriving DecidableEq, Repr

/-- The configuration of one readout stream (13 Table 13.8, without STR_RD). -/
structure StrCfg where
  en : Bool
  dest : Nat
  group : Nat
  strStream : Nat
  base : Nat
  size4k : Nat
  shadow : Nat
  deriving DecidableEq, Repr

/-- What the code of a memory makes of a word: clean, corrected, uncorrectable (07 R197 to R199). -/
inductive EccResult where
  | clean
  | corrected
  | uncorrectable
  deriving DecidableEq, Repr

/-- What the code of a memory found in the words that a command reads: an address in each code word of 07 Table 7.6 and the number of
wrong bits in it, of an HBM burst the number of wrong bytes, of a Store row the mask of its wrong physical bits (log 9). -/
abbrev Findings := List (Nat × Nat)

/-- The access of an arbitrated transfer (07 R209): its address, the bytes of a write, none where its mask leaves the byte, and the lines
of the write whose data are poisoned, bit i line i (07 R200). -/
structure ArbAccess where
  addr : Nat
  data : Option (List (Option W8))
  bad : Nat := 0
  deriving DecidableEq, Repr

/-- What an Ant instruction meets as it runs (log 9): the cycles it waits for core-store banks (03 R74), the findings in the words it
reads, and which of its results (accumulators, lanes, elements or slots, counted from its first) fail their residue check (04 R124). -/
structure AntMeas where
  waits : Nat := 0
  ecc : Findings := []
  res : List Nat := []
  deriving DecidableEq, Repr

/-- The outcome of an answer to the twin attestation (16 Table 16.1): whether its signature and form are valid, the
fingerprint it carries, and the two measurements; with it whether the partner is then active as a twin (log 9). -/
structure AttAnswer where
  valid : Bool
  fp : BitVec 384
  wardenMeas : BitVec 384
  hubMeas : BitVec 384
  active : Bool
  deriving DecidableEq, Repr

/-- One digest frame of the twin link (16 Table 16.2) with the TICK_ID of its header. -/
structure DigestFrame where
  tick : W32
  digest : W64
  evidence : W16
  cTick : Nat
  tstate : Nat
  active : Bool
  faulted : Bool
  deriving DecidableEq, Repr

/-- One word of the trigger bus as delivered (14 Table 14.1). -/
structure BusSlot where
  word : W16
  sync : W16
  tick : W32
  phase : Nat
  cTick : Nat
  deriving DecidableEq, Repr

/-- A Click calibration result of one unit: the taps counted and whether a tap was left empty (12 R324). -/
structure CalResult where
  unit : Nat
  taps : Nat
  emptyTap : Bool
  deriving DecidableEq, Repr

/-- A pulse at the combiner (12 R325): input id, the event it belongs to, its time stamp (whole and fraction of ns are
in `Stamp`), and the fallback and gap flags of a decision bit. -/
structure Stamp where
  sec : Nat
  ns : Nat
  frac : Nat
  deriving DecidableEq, Repr

structure Pulse where
  input : Nat
  event : W32
  stamp : Stamp
  fallback : Bool
  gap : Bool
  poison : Bool := false
  on : Bool := true
  deriving DecidableEq, Repr

end Sys2Proof
end

