-- ==== Sys2Proof/Syntax.lean ====
section
/-! DEFINITION. The commands of the Tirgoton: one constructor per row of the table of operations and events
(spec/opcode_table.json), in the table's order. Rows that are command packets carry what steps 1 to 6 of Table 15.3
leave of the header (`Hdr`) and the payload's fields; rows that are events carry the units they name and what the
hardware measures (log 9); rows that are Ant instructions name the tile and the core whose running firing reaches them. -/

namespace Sys2Proof

inductive Instr where
  /-- SYS_NOP (R403). Command that does nothing and replies OK. -/
  | sysNop (h : Hdr)
  /-- SYS_INFO (R403). Command returning part code, SIG_ID, firmware versions, identity fingerprint, personality and part id. -/
  | sysInfo (h : Hdr)
  /-- SYS_STATE (R403). Command returning WA_STATE, the four context states and TICK_ID. -/
  | sysState (h : Hdr)
  /-- SYS_RESET (R465). Command that replies and then starts a module, device or host-interface reset by KIND. -/
  | sysReset (h : Hdr) (kind : Nat)
  /-- REG_READ (R406). Command reading 1 to 1,024 words of the control and status space. -/
  | regRead (h : Hdr) (addr count : Nat)
  /-- REG_WRITE (R406). Command writing 1 to 1,024 words of the control and status space under the field-type rules. -/
  | regWrite (h : Hdr) (addr : Nat) (ws : List W32)
  /-- SIG_TABLE (R63). Command returning SIG_ID and the stepping's latency signature table. -/
  | sigTable (h : Hdr)
  /-- TICK_CONFIG (R36). Idle-only command that sets C_tick and the tick source and restarts the tick generator. -/
  | tickConfig (h : Hdr) (source cTick : Nat)
  /-- TICK_ID_SET (R37). Idle-only command loading the TICK_ID that the next strobe takes. -/
  | tickIdSet (h : Hdr) (id : W32)
  /-- LOAD_BEGIN (R241). Signed command that reserves loader-region space and opens a staged image, discarding an earlier one. -/
  | loadBegin (h : Hdr) (len : Nat) (img : Contents)
  /-- LOAD_CHUNK (R241). Command writing image bytes at an offset into the staged image. -/
  | loadChunk (h : Hdr) (handle off : Nat) (bytes : List W8)
  /-- RELOCATE (R245). Command setting HBM segment bases and logical-to-physical part mappings of the staged image. -/
  | relocate (h : Hdr) (handle : Nat) (ents : List RelocEnt)
  /-- PATCH (R248). Command recording or writing a range-checked patch value at every entry of a patch point. -/
  | patch (h : Hdr) (slot : Option Nat) (handle pid : Nat) (value : W64)
  /-- COMMIT (R242). Signed asynchronous command that runs the loader checks in order and writes the staged image into the part. -/
  | commit (h : Hdr) (handle : Nat)
  /-- UNLOAD (R243). Command freeing an image's slots, queues, memories, pattern tables and loader copy, or discarding a staged image. -/
  | unload (h : Hdr) (handle : Option Nat) (mask : Nat)
  /-- LOAD_INFO (R239). Command returning a committed image's UID, SIG_IDs, bases, part ids, patch values and optionally a section. -/
  | loadInfo (h : Hdr) (slot sect off : Nat)
  /-- ARM (R404). Asynchronous command that checks tick lock, lanes and twin state and arms Loaded contexts at the next strobe. -/
  | arm (h : Hdr) (mask : Nat)
  /-- START (R404). Asynchronous command that schedules Armed or Retired contexts to run from strobe S. -/
  | start (h : Hdr) (mask : Nat) (sAt : W32)
  /-- DRAIN (R161). Asynchronous command that fixes a stop tick D after which no event enters the named chain. -/
  | drain (h : Hdr) (mask : Nat) (d : W32)
  /-- STOP (R163). Asynchronous command that retires contexts at the next strobe and abandons in-flight events. -/
  | stop (h : Hdr) (mask : Nat)
  /-- RESUME (R440). Asynchronous command that leaves Halted (MODE 0) or restores held shedding stages S4 and S5 (MODE 1). -/
  | resume (h : Hdr) (mode : Nat)
  /-- LANE_CONFIG (R256). Command setting a quad's rate and lane modes and retraining the lanes concerned. -/
  | laneConfig (h : Hdr) (quad rate : Nat) (modes : List Nat)
  /-- LANE_TRAIN (R270). Command that starts or restarts lane training at attempt 1. -/
  | laneTrain (h : Hdr) (lane : Nat)
  /-- LANE_POWER (R284). Command setting the power state of a lane's TX or RX direction. -/
  | lanePower (h : Hdr) (lane tx st : Nat)
  /-- LANE_GROUP (R305). Command defining a lane group with parity, declared skew and fast-control settings. -/
  | laneGroup (h : Hdr) (g : Nat) (cfg : GroupCfg)
  /-- LANE_PRBS (R287). Command writing PRBS_CFG to start or stop the pattern generator and checker. -/
  | lanePrbs (h : Hdr) (lane : Nat) (w : W32)
  /-- LANE_INJECT (R288). Command writing INJ_CFG to set the error-injection mode. -/
  | laneInject (h : Hdr) (lane : Nat) (w : W32)
  /-- LANE_EYE (R265). Asynchronous command starting an eye scan of at most 50 ms on a lane. -/
  | laneEye (h : Hdr) (lane : Nat)
  /-- LINK_PERSONALITY (R310). Idle-only command setting the Concentrator or Processor personality and the part id. -/
  | linkPersonality (h : Hdr) (processor : Bool) (id : Nat)
  /-- MESH_ROUTE (R310). Command writing the route entry of a destination part in the mesh. -/
  | meshRoute (h : Hdr) (part : Nat) (valid : Bool) (group : Nat)
  /-- LINK_FIELD (R297). Command writing a non-class-T field extraction entry. -/
  | linkField (h : Hdr) (f : Nat) (cfg dest exp fill : W32)
  /-- LINK_AGGREGATE (R307). Command setting an outbound stream and its items after overlap, send-cycle and DEC_LAG checks. -/
  | linkAggregate (h : Hdr) (st : Nat) (entry : W64) (items : List W64)
  /-- FE_CONFIG (R316). Idle-only command setting FE_DELAY and the sample channels. -/
  | feConfig (h : Hdr) (ticks cycle : Nat) (chs : List (Nat × W32 × W32))
  /-- PRIM_CONFIG (R322). Command configuring 1 to 64 primitive units. -/
  | primConfig (h : Hdr) (ents : List (Nat × W32 × W32 × W32))
  /-- PRIM_SET (R332). Command scheduling new level, hysteresis, shift, offset and FREEZE of primitives for strobe S. -/
  | primSet (h : Hdr) (sAt : W32) (ents : List (Nat × Bool × W32 × W32))
  /-- CLICK_CONFIG (R323). Command configuring Click units. -/
  | clickConfig (h : Hdr) (ents : List (Nat × W32 × W32))
  /-- CLICK_CAL (R324). Asynchronous command starting code-density calibration of the selected Click units. -/
  | clickCal (h : Hdr) (mask : Nat)
  /-- COMB_CONFIG (R327). Command setting conditions, members, DB and TB inputs and DECISION pins as a whole after checks. -/
  | combConfig (h : Hdr) (pairs : List (Nat × W32))
  /-- COND_SET (R332). Command scheduling new W, N and HOLDOFF of conditions for strobe S. -/
  | condSet (h : Hdr) (sAt : W32) (ents : List (Nat × Nat × Nat × Nat))
  /-- TRIG_ENABLE (R332). Command scheduling TRIG_EN and optionally TRIG_NUM for strobe S. -/
  | trigEnable (h : Hdr) (sAt : W32) (en : Bool) (num : Option W32)
  /-- BUS_CONFIG (R355). Idle-only command setting MASTER, OUT_EN and IN_EN of the trigger bus. -/
  | busConfig (h : Hdr) (master : Bool) (outEn inEn : Nat)
  /-- BUS_CAL (R359). Asynchronous command that checks the bus is quiet and measures the loop of every line. -/
  | busCal (h : Hdr) (busy : Nat)
  /-- BUS_COMP (R360). Command computing transmit and receive compensation of each line from L_SYS and asymmetries. -/
  | busComp (h : Hdr) (lSys : Nat) (asym : List Int)
  /-- BUS_ALIGN (R361). Asynchronous command that starts the master's launch grid or aligns a follower to the master's slots. -/
  | busAlign (h : Hdr)
  /-- BUS_TX_MAP (R363). Command setting the condition mask of trigger-bus word bits. -/
  | busTxMap (h : Hdr) (ents : List (Nat × W64))
  /-- ACQ_CONFIG (R334). Command configuring acquisition groups after channel, size, area and rate checks. -/
  | acqConfig (h : Hdr) (cfgs : List AcqCfg)
  /-- ACQ_ARM (R338). Command scheduling capture of a group mask from event S. -/
  | acqArm (h : Hdr) (mask : Nat) (sAt : W32)
  /-- ACQ_DISARM (R341). Command scheduling groups to ignore triggers of events S and later. -/
  | acqDisarm (h : Hdr) (mask : Nat) (sAt : W32)
  /-- CHG_CONFIG (R344). Command configuring change-record units. -/
  | chgConfig (h : Hdr) (ents : List (Nat × W32 × W32))
  /-- ACQ_STREAM (R347). Command configuring a readout stream and its destination buffer. -/
  | acqStream (h : Hdr) (st : Nat) (cfg : StrCfg)
  /-- ACQ_STATS (R352). Command returning and optionally clearing acquisition counters. -/
  | acqStats (h : Hdr) (kind idx : Nat) (clear : Bool)
  /-- TIME_SET (R367). Command loading SEC and NS of the time-of-day counter in one TIME cycle. -/
  | timeSet (h : Hdr) (sec ns : Nat)
  /-- TIME_STEP (R367). Command adding a signed offset to the time-of-day counter. -/
  | timeStep (h : Hdr) (off : W64)
  /-- TIME_INC (R367). Command setting INC and ending automatic holdover. -/
  | timeInc (h : Hdr) (frac whole : Nat)
  /-- TIME_HOLDOVER (R368). Command entering or leaving command holdover. -/
  | timeHoldover (h : Hdr) (enter : Bool)
  /-- PPS_CONFIG (R374). Command setting PPS_OUT_CFG and PPS_OUT_OFS. -/
  | ppsConfig (h : Hdr) (cfg ofs : W32)
  /-- TS_CONFIG (R370). Command setting edge timestamp records and their stream. -/
  | tsConfig (h : Hdr) (cfg : W32)
  /-- PTP_CONFIG (R372). Command enabling PTP timestamping and one-step mode on a time-port lane. -/
  | ptpConfig (h : Hdr) (lane : Nat) (en oneStep : Bool)
  /-- TIME_FRAME (R373). Command sending one time frame on a lane group and replying with the time value sent. -/
  | timeFrame (h : Hdr) (g : Nat)
  /-- TIME_FRAME_READ (R373). Command returning the count and contents of time frames received on a group. -/
  | timeFrameRead (h : Hdr) (g : Nat)
  /-- TWIN_CONFIG (R410). Idle-only command enabling twin mode and configuring lanes 136 to 143 as the twin group. -/
  | twinConfig (h : Hdr) (role relay tie : Bool)
  /-- ADMIT_PARTNER (R414). Signed asynchronous command writing an attested partner's fingerprint as the pairing record. -/
  | admitPartner (h : Hdr) (fp : BitVec 384)
  /-- TWIN_STATUS (R425). Command returning twin registers and partner data and optionally clearing own FAULTED. -/
  | twinStatus (h : Hdr) (clear : Bool)
  /-- TWIN_HANDOVER (R425). Asynchronous command passed to the partner that makes the active part release at strobe H. -/
  | twinHandover (h : Hdr) (hAt : W32)
  /-- TWIN_DISABLE (R425). Idle-only command turning the twin lanes Off and making the part stand-alone. -/
  | twinDisable (h : Hdr)
  /-- PWR_STATUS (R446). Command returning the power-manager and tile loop registers. -/
  | pwrStatus (h : Hdr)
  /-- FEED_CONFIG (R446). Command setting B_EN, RETURN_MS, RESTORE_MS and KEEP. -/
  | feedConfig (h : Hdr) (bEn : Bool) (returnMs restoreMs : Nat) (keep : W64)
  /-- LOOP_CONFIG (R443). Command setting AVS_FREEZE, DROOP_EN and GUARD_MV for a tile mask. -/
  | loopConfig (h : Hdr) (mask : Nat) (freeze droopEn : Bool) (guardMv : Nat)
  /-- ATTEST (R457). Asynchronous command returning signed identity, measurements, SVNs, owner slots and image UIDs. -/
  | attest (h : Hdr) (cert : Bool) (nonce : BitVec 384)
  /-- OWNER_KEY (R454). Signed command installing or revoking an owner-key slot. -/
  | ownerKey (h : Hdr) (slot : Nat) (revoke : Bool) (key : BitVec 768)
  /-- FUSE_BLOW (R456). Signed asynchronous command that blows and reads back the DEBUG_LOCK fuse. -/
  | fuseBlow (h : Hdr) (fuse : Nat)
  /-- FW_UPDATE_BEGIN (R452). Signed command opening a firmware update and erasing the copy not running. -/
  | fwUpdateBegin (h : Hdr) (kind len : Nat)
  /-- FW_UPDATE_CHUNK (R452). Command writing bytes into the open firmware copy. -/
  | fwUpdateChunk (h : Hdr) (off : Nat) (bytes : List W8)
  /-- FW_UPDATE_COMMIT (R452). Signed asynchronous command verifying the new copy, writing its commit record and optionally raising SVN_MIN. -/
  | fwUpdateCommit (h : Hdr) (kind : Nat) (raise : Bool)
  /-- EVENT_LOG_READ (R459). Command returning up to 64 event-log entries from a given SEQ. -/
  | eventLogRead (h : Hdr) (seq count : Nat)
  /-- SENSOR_READ (R458). Command returning a Warden sensor block. -/
  | sensorRead (h : Hdr) (code a b : Nat)
  /-- CORE_RETIRE (R407). Asynchronous command starting the substitution steps that retire a physical core position. -/
  | coreRetire (h : Hdr) (tile row pos : Nat)
  /-- CORE_RETURN (R94). Asynchronous command that self-tests a retired core and runs the substitution steps in reverse. -/
  | coreReturn (h : Hdr) (tile row pos : Nat)
  /-- SELFTEST (R407). Asynchronous command running the Hub self-test on unloaded tiles. -/
  | selftest (h : Hdr) (mask : Nat)
  /-- DEBUG_READ (R407). Command reading any mapped device address over class S unless debug is locked. -/
  | debugRead (h : Hdr) (addr count : Nat) (ecc : Findings := [])
  /-- DEBUG_WRITE (R407). Command writing any mapped device address over class S unless debug is locked. -/
  | debugWrite (h : Hdr) (addr : Nat) (ws : List W32)
  /-- PAT_READ (R231). Command reading pattern entries of a table. -/
  | patRead (h : Hdr) (table : Nat) (gen : Bool) (key : BitVec 96) (count : Nat) (ecc : Findings := [])
  /-- PAT_WRITE (R230). Command writing values of an indexed table and replying with tick V. -/
  | patWrite (h : Hdr) (table first : Nat) (vals : List W64)
  /-- PAT_INSERT (R229). Command placing key and value pairs by the cuckoo procedure, all or nothing. -/
  | patInsert (h : Hdr) (table : Nat) (kvs : List (BitVec 96 × W64))
  /-- PAT_DELETE (R231). Command deleting keys from a keyed or match-count table. -/
  | patDelete (h : Hdr) (table : Nat) (keys : List (BitVec 96))
  /-- PAT_GEN_SWITCH (R228). Command scheduling a generation switch of a double-buffered table at tick S. -/
  | patGenSwitch (h : Hdr) (table : Nat) (sAt : W32)
  /-- PAT_SYNC (R231). Asynchronous command copying the active generation into the writable one. -/
  | patSync (h : Hdr) (table : Nat)
  /-- PAT_STATS (R231). Command returning and optionally clearing a table's lookup statistics. -/
  | patStats (h : Hdr) (table : Nat) (clear : Bool)
  /-- CMD_TAIL (R391). Host doorbell write after which the device fetches command packets from the command ring. -/
  | cmdTail (tail : Nat) (pkts : List (List W32))
  /-- CMD_CFG (R391). Write of the command-ring EN bit that enables the ring and zeroes its pointers and expected SEQUENCE. -/
  | cmdCfg (en : Bool) (size : Nat)
  /-- RPL_CFG (R391). Write of the reply-ring EN bit that enables the ring and releases held completions. -/
  | rplCfg (en : Bool) (size : Nat)
  /-- FLT_CFG (R393). Write of the fault-ring EN bit that enables the fault ring. -/
  | fltCfg (en : Bool) (size : Nat)
  /-- RPL_HEAD (R392). Host write that frees reply-ring room so fetching and held replies resume. -/
  | rplHead (v : Nat)
  /-- FLT_HEAD (R393). Host write that frees fault-ring room so records, led by a ring-gap record, resume. -/
  | fltHead (v : Nat)
  /-- IRQ_STATUS (R394). W1C write that clears interrupt bits so further MSI-X messages may be sent. -/
  | irqStatus (v : W32)
  /-- PKT_WRITE (R397). SPI instruction delivering one whole command packet. -/
  | pktWrite (ws : List W32)
  /-- RPL_READ (R397). SPI instruction reading and removing the oldest pending reply. -/
  | rplRead (complete : Bool)
  /-- STAT_READ (R397). SPI instruction returning the port status byte and clearing OVERRUN. -/
  | statRead
  /-- WINDOW_B_READ (R396). Host read through Window B served as class-S host access. -/
  | windowBRead (addr n : Nat) (ecc : Findings := [])
  /-- WINDOW_B_WRITE (R396). Host write through Window B to Store or HBM outside the loader region. -/
  | windowBWrite (addr : Nat) (bytes : List W8)
  /-- REGISTER_WRITE (R8). Write to a register without behaviour of its own, following the field-type rules. -/
  | registerWrite (addr : Nat) (v : W32)
  /-- SC_CTRL_CLR (R52). Write of CLR that clears a shot clock monitor's worst, late count and late ticks. -/
  | scCtrlClr (tile m : Nat)
  /-- FB_CLR (R57). Write of CLR that clears a fallback entry's COUNT, LAST_TICK and DISCARD. -/
  | fbClr (k o : Nat)
  /-- REQ_PRIO (R211). Write of a requester priority, which may revoke a holder at once. -/
  | reqPrio (id : Nat) (v : W32)
  /-- STR_RD (R348). Host write of a stream's read offset that frees buffer room for waiting items. -/
  | strRd (st : Nat) (v : W32)
  /-- INJ_GO (R288). Write of INJ_GO that starts error injection into a lane's TX stream. -/
  | injGo (lane : Nat)
  /-- TOD_LATCH (R374). Read of TOD_LATCH that latches the time-of-day counter. -/
  | todLatch
  /-- TS_TICK (R395). Read of TS_TICK that latches TICK_ID and time of day of the same FAB cycle. -/
  | tsTick
  /-- POWER_ON (R462). A feed becomes available after Off and the power-up sequence begins. -/
  | powerOn (aMv bMv : Nat)
  /-- RESET_N (R465). RESET_N pin held low for at least 1 us causes a module reset. -/
  | resetN
  /-- PERST_N (R465). PERST_N pin low resets the host interface only. -/
  | perstN
  /-- HUB_WATCHDOG (R465). Hub firmware fails to serve the Warden watchdog for 1 s and a device reset follows. -/
  | hubWatchdog
  /-- WARDEN_FW_VERIFY (R450). Warden ROM completes verification of a Warden firmware copy and starts it. -/
  | wardenFwVerify (copy : Nat) (ok : Bool)
  /-- HUB_FW_VERIFY (R450). Warden firmware completes verification of a Hub firmware copy, or enters Safe when both fail. -/
  | hubFwVerify (copy : Nat) (ok : Bool)
  /-- REF_MEASURE (R463). A 1 ms window of REF measurement ends and REF is judged valid or lost. -/
  | refMeasure (khz : Nat)
  /-- PLL_LOCK (R21). The xREF PLLs lock and the Warden releases the Hub. -/
  | pllLock
  /-- HUB_INIT_DONE (R462). Hub initialisation, zeroing and Click calibration end, the default tick is applied and the device enters Idle. -/
  | hubInitDone (cals : List CalResult)
  /-- SMBUS_BLOCK_READ (R458). SMBus Block Read of a Warden sensor command code. -/
  | smbusBlockRead (addr code a b : Nat)
  /-- TICK_STROBE (R37). The tick period expires and the generator strikes a strobe and increments TICK_ID. -/
  | tickStrobe
  /-- TICK_OUT_FALL (R42). TICK_OUT returns low after its high time. -/
  | tickOutFall
  /-- TICK_IN_EDGE (R40). A TICK_IN edge is captured and fixes or checks the phase. -/
  | tickInEdge (cyc : Nat)
  /-- TICK_IN_WINDOW_END (R40). A TICK_IN tick window ends and is judged clean or slipped. -/
  | tickInWindowEnd
  /-- TICK_IN_LOCK (R40). Sixteen consecutive good edges or clean windows set LOCKED. -/
  | tickInLock
  /-- TICK_IN_LOST (R40). Four consecutive slipped windows clear LOCKED and set FLYWHEEL. -/
  | tickInLost
  /-- TICK_IN_PHASE_TAKE (R40). At a strobe with no Timed context active the generator takes the new TICK_IN phase. -/
  | tickInPhaseTake
  /-- DROOP_STRETCH (R47). The droop guard stretches a tile's FAB cycle while its rail dips. -/
  | droopStretch (tile cycle eighths : Nat)
  /-- STAGE_GROUP_COMPLETION (R50). A stage group writes its last output flit for an event and its monitor judges it. -/
  | stageGroupCompletion (tile m : Nat) (event : W32) (cycle : Nat)
  /-- DEADLINE_EXPIRY (R50). The deadline cycle ends without completion and the monitor declares the group late. -/
  | deadlineExpiry (tile m : Nat) (event : W32)
  /-- OUTPUT_HANDOFF (R53). An output hands off its value or fallback for an event at its due cycle. -/
  | outputHandoff (k o : Nat) (event : W32)
  /-- ESCALATION_WINDOW_END (R55). An escalation window of 2^ESC_LOG2 ticks ends and WIN_COUNT restarts. -/
  | escalationWindowEnd (k o : Nat)
  /-- HALTED_ENTRY (R402). At the strobe after escalation Timed contexts are stopped and the device enters Halted. -/
  | haltedEntry
  /-- RESUME_STROBE (R402). At the next strobe after RESUME MODE 0 the device leaves Halted. -/
  | resumeStrobe
  /-- FIRING_START (R77). An eligible context is selected and begins a firing from ENTRY. -/
  | firingStart (tile core cyc : Nat)
  /-- SURVEY_OVERRUN (R78). A Survey firing exceeds MAX_FIRE, is stopped and its outputs poisoned. -/
  | surveyOverrun (tile core : Nat)
  /-- MOV (R71). Instruction copying core-store lines. -/
  | mov (tile core : Nat) (m : AntMeas := {})
  /-- LDV (R71). Instruction loading a core-store line pair into a vector register. -/
  | ldv (tile core : Nat) (m : AntMeas := {})
  /-- STV (R71). Instruction storing a vector register to a core-store line pair. -/
  | stv (tile core : Nat) (m : AntMeas := {})
  /-- LDI (R71). Instruction loading an immediate into all lanes of a vector register. -/
  | ldi (tile core : Nat) (m : AntMeas := {})
  /-- ACCCLR (R71). Instruction clearing a set's accumulators. -/
  | accclr (tile core : Nat) (m : AntMeas := {})
  /-- DOT (R107). Instruction accumulating dot products exactly into accumulators. -/
  | dot (tile core : Nat) (m : AntMeas := {})
  /-- OUTP (R71). Instruction adding outer products into accumulators. -/
  | outp (tile core : Nat) (m : AntMeas := {})
  /-- XADD (R111). Instruction adding partial slots of a flit into accumulators. -/
  | xadd (tile core : Nat) (m : AntMeas := {})
  /-- ACCOUT (R113). Instruction scaling, biasing, activating and narrowing accumulators into a vector register. -/
  | accout (tile core : Nat) (m : AntMeas := {})
  /-- VADD (R120). Instruction adding FP32 vectors. -/
  | vadd (tile core : Nat) (m : AntMeas := {})
  /-- VMUL (R120). Instruction multiplying FP32 vectors. -/
  | vmul (tile core : Nat) (m : AntMeas := {})
  /-- VMAX (R120). Instruction taking the elementwise FP32 maximum. -/
  | vmax (tile core : Nat) (m : AntMeas := {})
  /-- VMIN (R120). Instruction taking the elementwise FP32 minimum. -/
  | vmin (tile core : Nat) (m : AntMeas := {})
  /-- VFMA (R120). Instruction computing an FP32 fused multiply-add. -/
  | vfma (tile core : Nat) (m : AntMeas := {})
  /-- VCMP (R71). Instruction comparing vectors into a 16-bit mask. -/
  | vcmp (tile core : Nat) (m : AntMeas := {})
  /-- VSEL (R71). Instruction selecting lanes by mask. -/
  | vsel (tile core : Nat) (m : AntMeas := {})
  /-- VCVT (R113). Instruction narrowing or widening vector lanes to FMT_A. -/
  | vcvt (tile core : Nat) (m : AntMeas := {})
  /-- VRSC (R123). Instruction rescaling INT32 lanes on the FN24 path. -/
  | vrsc (tile core : Nat) (m : AntMeas := {})
  /-- QPOP (R177). Instruction popping flits from an input queue, spilled flits first. -/
  | qpop (tile core : Nat) (m : AntMeas := {})
  /-- QPUSH (R84). Instruction pushing flits or a chunk onto a route. -/
  | qpush (tile core : Nat) (m : AntMeas := {})
  /-- QFWD (R84). Instruction forwarding an input queue's head flit to a route. -/
  | qfwd (tile core : Nat) (m : AntMeas := {})
  /-- SREQ (R71). Instruction issuing a class-T Store or pattern request. -/
  | sreq (tile core : Nat) (m : AntMeas := {})
  /-- SFUC (R131). Instruction sending call flits to a special-function unit. -/
  | sfuc (tile core : Nat) (m : AntMeas := {})
  /-- NOP (R71). Instruction idling for CNT cycles. -/
  | nop (tile core : Nat) (m : AntMeas := {})
  /-- LOOP (R72). Instruction repeating the following instructions CNT times. -/
  | loopOp (tile core : Nat) (m : AntMeas := {})
  /-- END (R77). Instruction ending the firing. -/
  | endOp (tile core : Nat) (m : AntMeas := {})
  /-- FLIT_WRITE (R84). A flit or chunk reaches its destination queue and is written or flushed. -/
  | flitWrite (ix held : Nat) (ecc : Findings := [])
  /-- CREDIT_RETURN (R154). A credit freed by a pop reaches the sending route. -/
  | creditReturn (ix : Nat)
  /-- RETIREMENT_THRESHOLD (R90). A core's residue or canary count passes its limit within a window and retirement starts. -/
  | retirementThreshold (tile core : Nat)
  /-- SUBST_COPY (R92). The Hub finishes copying a logical core's state into the next position and chooses a quiet tick. -/
  | substCopy (tile row : Nat) (ecc : Findings := [])
  /-- SUBST_QUIET_TICK (R92). In quiet tick Q the Hub checks Timed queues are empty and copies carried ranges. -/
  | substQuietTick (tile row : Nat) (ecc : Findings := [])
  /-- SUBST_SWITCH (R92). At strobe Q + 1 the crossbar switches the logical core to its new position. -/
  | substSwitch (tile row : Nat) (ecc : Findings := [])
  /-- SFU_CALL_START (R135). A ready SFU call starts once its engine interval and output window are free. -/
  | sfuCallStart (tile unit slot cyc : Nat) (residue : Bool)
  /-- SFU_RESULT (R133). After L_f an SFU call's result flits enter the mesh one per cycle. -/
  | sfuResult (tile unit : Nat)
  /-- KV_LOAD (R145). KV_LOAD flits are written into the context's key-value bank as they arrive. -/
  | kvLoad (tile unit : Nat)
  /-- CONTEXT_ARMED (R404). At the next strobe after ARM the contexts become Armed. -/
  | contextArmed
  /-- CONTEXT_START_STROBE (R160). At strobe S the contexts become Running and monitors are enabled. -/
  | contextStartStrobe
  /-- DRAIN_STROBE (R161). At strobe D the chain becomes Draining and its inputs are discarded. -/
  | drainStrobe
  /-- CONTEXT_RETIREMENT (R162). At strobe D + T_LAST the Hub flushes queues, clears VALID and frees resources. -/
  | contextRetirement
  /-- STOP_STROBE (R163). At the next strobe after STOP contexts retire and in-flight events are abandoned. -/
  | stopStrobe
  /-- SURVEY_DRAIN_RETIRE (R167). A draining Survey context retires at the first strobe where it is empty and idle. -/
  | surveyDrainRetire (k : Nat)
  /-- DRAIN_TIMEOUT (R167). A Survey drain exceeds its limit and the context retires with flits flushed. -/
  | drainTimeout (k : Nat)
  /-- CONTEXT_FAULTED (R176). At the next strobe the contexts of a Scarab fault ring become Faulted. -/
  | contextFaulted
  /-- SCARAB_STEP (R176). Each cycle a tile's Scarab checks wait rings and spills or faults them. -/
  | scarabStep (tile cyc : Nat)
  /-- SCARAB_HUB_STEP (R176). Every 1,024 FAB cycles the Hub applies the Scarab rule to the whole device. -/
  | scarabHubStep (cyc : Nat)
  /-- PASS_SWITCH (R174). When a pass has retired the reconfiguration engine switches to the next pass and loads the one after. -/
  | passSwitch (k : Nat) (ecc : Findings := [])
  /-- RESERVED_SLOT (R195). A reserved class-T slot opens and the egress serves its owner's request. -/
  | reservedSlot (port slot : Nat) (ecc : Findings)
  /-- ARB_REQUEST (R206). A class-A or class-S request is presented to an arbiter. -/
  | arbRequest (arb id len cyc : Nat) (acc : Option ArbAccess := none)
  /-- ARB_GRANT (R207). An arbiter decision grants the highest waiting request in round robin. -/
  | arbGrant (arb cyc : Nat)
  /-- ARB_TRANSFER_END (R208). A granted transfer ends and the grant is released or parked. -/
  | arbTransferEnd (arb cyc : Nat) (ecc : Findings := [])
  /-- SCRUB_READ (R202). Background scrub reads, corrects and writes back a location. -/
  | scrubRead (addr : Nat) (ecc : Findings)
  /-- SCRUB_PASS_END (R202). A scrub pass completes and is counted late if over PASS_S. -/
  | scrubPassEnd (kind seconds : Nat)
  /-- PAT_REQUEST (R221). A lookup request's last flit reaches the pattern stop and its keys are assigned owned slots. -/
  | patRequest (ix : Nat) (ecc : Findings) (cyc : Nat)
  /-- PAT_RESULT (R222). Lookup result flits are written into the destination queue at their fixed cycle. -/
  | patResult (ix : Nat)
  /-- PAT_GEN_FLIP (R228). At strobe S + 255 ACTIVE_GEN flips and SWITCH_PEND clears. -/
  | patGenFlip (table : Nat)
  /-- COMMIT_WRITE_OUT (R242). COMMIT's checks and class-S write-out end and VALID is scheduled. -/
  | commitWriteOut (ecc : Findings := [])
  /-- COMMIT_VALID (R243). At a strobe no earlier than F + 2 VALID is set and the contexts are Loaded. -/
  | commitValid
  /-- TRAINING_BLOCK (R267). A training block from the partner is received and answered. -/
  | trainingBlock (lane : Nat) (w : W64) (satisfied : Bool)
  /-- TRAIN_STEP_TIMEOUT (R266). A training step times out and the attempt fails. -/
  | trainStepTimeout (lane : Nat)
  /-- TRAIN_BACKOFF_END (R269). The back-off after a failed attempt ends and the next attempt starts. -/
  | trainBackoffEnd (lane : Nat)
  /-- AUTO_RETRY (R270). One second after Down a new sequence of attempts begins. -/
  | autoRetry (lane : Nat)
  /-- BLOCK_RECEIVE (R271). A 66-bit block is received and drives block lock, the elastic buffer and the group. -/
  | blockReceive (lane sync : Nat) (w : W64) (fill : Int)
  /-- LOCK_HUNT_TIMEOUT (R272). A lane that has not relocked within 1 ms retrains. -/
  | lockHuntTimeout (lane : Nat)
  /-- ALIGNMENT_MARKER (R274). An alignment marker is received, checked and used for skew and re-entry. -/
  | alignmentMarker (lane : Nat) (w : W64) (late : Nat) (setPoint : Option Nat)
  /-- MARKER_SEND (R273). After 16,384 blocks the next idle block is replaced by an alignment marker. -/
  | markerSend (lane : Nat)
  /-- TX_PLL_UNLOCK (R283). An Edge die's TX PLL loses lock and its lanes go to electrical idle. -/
  | txPllUnlock (edge : Nat)
  /-- TX_PLL_RELOCK (R283). The TX PLL relocks, phase FIFOs are fixed again and lanes retrain. -/
  | txPllRelock (edge : Nat)
  /-- LANE_POWER_RETURN (R284). A TX returning from Idle or an RX returning from Hold completes its return time. -/
  | lanePowerReturn (lane : Nat) (tx : Bool)
  /-- LANE_EYE_DONE (R265). An eye scan ends and EYE_HEIGHT and EYE_WIDTH are written. -/
  | laneEyeDone (lane height width : Nat)
  /-- FEC_CODEWORD (R303). A PAM4 FEC codeword is received, decoded and corrected. -/
  | fecCodeword (lane : Nat) (message check : List Nat)
  /-- EVENT_HDR (R298). An event frame header is received and accepted or discarded against the expected tick. -/
  | eventHdr (g cyc : Nat)
  /-- TRAILER (R299). A frame trailer is received, its CRC checked and a failed lane rebuilt from parity. -/
  | trailer (g st : Nat)
  /-- FIELD_RELEASE (R298). At its FLD_EXP cycle a field is delivered, or its fill value if absent, late or unrecoverable. -/
  | fieldRelease (f : Nat)
  /-- FRAME_ABSENT (R298). No accepted header by the expected block raises FRAME_ABSENT. -/
  | frameAbsent (g st : Nat)
  /-- CTRL_COMMAND (R398). A COMMAND control frame is executed, forwarded or denied. -/
  | ctrlCommand (g : Nat)
  /-- CTRL_REPLY (R380). A REPLY control frame is delivered on the original transport with FORWARDED set. -/
  | ctrlReply (g : Nat)
  /-- TX_IDLE (R285). A TX_IDLE control frame puts the RX into Hold at the announced block. -/
  | txIdle (g : Nat)
  /-- PING (R300). A PING frame is answered with a PONG after a fixed turnaround. -/
  | ping (g : Nat)
  /-- PONG (R314). A PONG frame gives the measured round trip RT_MEAS. -/
  | pong (g cyc : Nat)
  /-- TIME_HDR (R373). A time frame is received and stamped at the pin. -/
  | timeHdr (g : Nat)
  /-- FAST_TICK (R416). A TICK block from the primary aligns a relay standby's tick generator. -/
  | fastTick (g age : Nat)
  /-- ACK (R312). An ACK block releases acknowledged replay frames. -/
  | ack (g : Nat)
  /-- NAK (R312). A NAK block makes the sender resend from the NAKed frame. -/
  | nak (g : Nat)
  /-- REPLAY_TIMEOUT (R312). An unacknowledged frame is resent after 4,096 FAB cycles. -/
  | replayTimeout (g : Nat)
  /-- READ_REQ (R311). A remote read request MEM frame is served. -/
  | readReq (g : Nat) (ecc : Findings := [])
  /-- READ_RSP (R311). A remote read response MEM frame delivers data with status and poison mask. -/
  | readRsp (g : Nat)
  /-- MEM_WRITE (R311). A remote write MEM frame is performed and acknowledged. -/
  | memWrite (g : Nat)
  /-- WRITE_ACK (R311). A remote write acknowledgement completes the write. -/
  | writeAck (g : Nat)
  /-- TREAD_REQ (R313). A class-T remote read request is served in reserved slots. -/
  | treadReq (g : Nat) (ecc : Findings := [])
  /-- TREAD_RSP (R314). A class-T remote read response enters the return buffer. -/
  | treadRsp (g : Nat)
  /-- TREAD_RELEASE (R314). RT cycles after its request slot the response is released. -/
  | treadRelease (g : Nat)
  /-- OUTBOUND_FRAME_SEND (R306). At SEND_CYCLE an aggregated outbound frame is built and handed to TX. -/
  | outboundFrameSend (st : Nat)
  /-- SAMPLE_ENTRY (R318). A sample enters its primitives, which step, arm, fire or skip. -/
  | sampleEntry (ch j : Nat)
  /-- CLICK_EDGE (R323). An EDGE_IN edge is captured with fine time and accepted or dropped. -/
  | clickEdge (u : Nat) (rising : Bool) (cyc fine : Nat)
  /-- CLICK_CAL_DONE (R324). Click calibration ends and CAL_OK and TAPS are set per unit. -/
  | clickCalDone (res : List CalResult)
  /-- COMBINER_PULSE (R327). An input pulse reaches the combiner and conditions are evaluated in that cycle. -/
  | combinerPulse
  /-- TRIGGER_RECORD (R329). A trigger record forms for the met conditions and is delivered to its consumers. -/
  | triggerRecord
  /-- DECISION_DRIVE (R331). A DECISION pin drives its active level 14 cycles after a qualifying cycle. -/
  | decisionDrive (j : Nat)
  /-- DECISION_RELEASE (R331). The WIDTH count of a DECISION pulse expires and the pin returns inactive. -/
  | decisionRelease (j : Nat)
  /-- ACQ_TRIGGER (R337). A trigger record reaches an acquisition group and is accepted or made Dead. -/
  | acqTrigger (g : Nat)
  /-- ACQ_CAPTURE (R336). A capture line of samples is staged and written to the group buffer. -/
  | acqCapture (g : Nat) (ecc : Findings := [])
  /-- SEGMENT_CLOSE (R338). Sample T0 + POST enters, the buffer closes and is queued to its stream. -/
  | segmentClose (g : Nat)
  /-- ACQ_REARM (R339). At cycle r the group returns to Armed. -/
  | acqRearm (g : Nat)
  /-- ACQ_BUFFER_FREE (R338). A buffer is freed and a Waiting group restarts capture. -/
  | acqBufferFree (g b : Nat)
  /-- ACQ_ARM_STROBE (R338). At strobe S an ACQ_ARM takes effect and capture starts. -/
  | acqArmStrobe
  /-- ACQ_DISARM_STROBE (R341). At strobe S an ACQ_DISARM takes effect and the group turns Off after its open segment. -/
  | acqDisarmStrobe
  /-- CHANGE_SAMPLE (R344). A change unit takes a sample and writes a record or anchor when it changes beyond DEADBAND. -/
  | changeSample (u : Nat)
  /-- STREAM_ITEM_WRITE (R348). A readout stream writes a whole item once it fits and has its grant, then advances WR. -/
  | streamItemWrite (st : Nat) (ecc : Findings := [])
  /-- PRIM_SET_STROBE (R332). At strobe S PRIM_SET values take effect. -/
  | primSetStrobe
  /-- COND_SET_STROBE (R332). At strobe S COND_SET values take effect. -/
  | condSetStrobe
  /-- TRIG_ENABLE_STROBE (R332). At strobe S TRIG_EN and TRIG_NUM take effect. -/
  | trigEnableStrobe
  /-- BUS_SLOT_LAUNCH (R357). Every 8 SAMPLE cycles a trigger-bus slot with the part's contribution is launched. -/
  | busSlotLaunch
  /-- BUS_SLOT_RECEIVE (R362). A delivered slot is checked and its WORD bits pulse the combiner. -/
  | busSlotReceive (lines : List Nat) (cyc : Nat)
  /-- BUS_CAL_DONE (R359). Bus calibration ends with each line's loop recorded. -/
  | busCalDone (loops : List (Nat × Nat))
  /-- BUS_ALIGN_DONE (R361). Sixteen SYNC slots arrive or 1 ms expires and BUS_ALIGN completes. -/
  | busAlignDone
  /-- HOLDOVER_TIMEOUT (R368). Sixteen seconds without TIME_INC start automatic holdover. -/
  | holdoverTimeout
  /-- TIME_PLL_UNLOCK (R369). The TIME PLL loses lock and the counter advances from SAMPLE. -/
  | timePllUnlock
  /-- TIME_PLL_RELOCK (R369). The TIME PLL relocks, the phase is remeasured and the relock logged. -/
  | timePllRelock
  /-- PPS_OUT_RISE (R371). The counter reaches a whole second plus offset and 1PPS_OUT rises. -/
  | ppsOutRise
  /-- PPS_OUT_FALL (R371). WIDTH_MS expires and 1PPS_OUT falls. -/
  | ppsOutFall
  /-- PPS_IN_EDGE (R371). A 1PPS_IN rising edge latches the time of day. -/
  | ppsInEdge
  /-- PTP_RX (R372). A time-port lane receives a frame and stamps PTP event messages. -/
  | ptpRx (lane cyc : Nat) (frame : List W8)
  /-- PTP_TX (R372). A time-port lane sends a PTP event message with a two-step or one-step stamp. -/
  | ptpTx (lane cyc tag : Nat) (frame : List W8)
  /-- TWIN_ATTESTATION (R413). The twin group becomes Aligned and the parts exchange nonces. -/
  | twinAttestation
  /-- ATTEST_ANSWER (R413). The partner's signed answer arrives and sets the twin state per Table 16.1. -/
  | attestAnswer (a : AttAnswer)
  /-- ATTEST_TIMEOUT (R413). An attestation step times out after 100 ms and the state returns to Linking. -/
  | attestTimeout
  /-- ATTEST_RETRY (R413). One second after a failure the exchange is retried. -/
  | attestRetry
  /-- DIGEST_SEND (R418). The part sends its digest row of tick k on the twin group. -/
  | digestSend
  /-- DIGEST_RECEIVE (R411). A partner digest frame arrives and is checked against its window and C_tick. -/
  | digestReceive
  /-- DIGEST_COMPARE (R419). At the comparison strobe the two digests of tick k are compared. -/
  | digestCompare
  /-- TWIN_RELEASE (R423). At strobe H the active part drives ACTIVE_N and HANDOVER_OUT high. -/
  | twinRelease
  /-- TWIN_TAKEOVER (R424). HANDOVER_IN high for 4 cycles makes a clean standby drive ACTIVE_N low. -/
  | twinTakeover
  /-- PARTNER_ABSENT (R424). HANDOVER_IN high for a whole tick beyond the release makes the state Solo. -/
  | partnerAbsent
  /-- FEED_SAMPLE (R429). Every 20 ns feed and bus voltages and currents are sampled and judged. -/
  | feedSample (aV bV busV aI bI : Nat) (aBad bBad : Bool) (temp : Int) (die : Nat)
  /-- FEED_FAULT_CLEAR (R430). A feed fault clears after 100 ms without its condition. -/
  | feedFaultClear
  /-- FEED_SWITCH (R431). A qualifying fault or sag switches the active feed within 2 us. -/
  | feedSwitch
  /-- FEED_RETURN (R432). After RETURN_MS at 44 V FEED_A becomes active again. -/
  | feedReturn
  /-- SHED_ENTER (R434). V_BUS below a threshold for 50 samples, or junction heat, brings a shedding stage into force. -/
  | shedEnter (stage : Nat)
  /-- SHED_STRONG_STROBE (R437). At the next strobe stage S4 or S5 stops contexts and takes units out of service. -/
  | shedStrongStrobe
  /-- SHED_S6 (R438). Stage S6 drives SAFE levels, logs, turns rails off and enters Safe. -/
  | shedS6
  /-- SHED_RESTORE (R439). After RESTORE_MS above its restore level a stage S1 to S3 is restored. -/
  | shedRestore (stage : Nat) (ecc : Findings := [])
  /-- RESUME_REWRITE_DONE (R440). The tile rewrite after an S5 restore ends and RESUME completes. -/
  | resumeRewriteDone (ecc : Findings := [])
  /-- COOLANT_RANGE (R441). Coolant inlet outside 15 to 40 °C for over 1 s is reported. -/
  | coolantRange (temp : Int)
  /-- AVS_STEP (R442). Each millisecond AVS may raise or lower a tile's core-rail offset by one step. -/
  | avsStep (tile : Nat) (raise : Bool)
  /-- CLOCK_UNLOCK (R444). A xREF PLL loses lock after Boot and the device enters S6. -/
  | clockUnlock
  /-- NUM_WINDOW_END (R127). A numeric counter window ends and summary records are sent. -/
  | numWindowEnd
  /-- REPORT_WINDOW_END (R489). A rate-limit window of 2^20 ticks ends and summary records are written. -/
  | reportWindowEnd
  /-- LOSS_OF_POWER (R438). V_BUS falls below 20 V, the Warden rail stops and the module is Off, which is also the way out of Safe. -/
  | lossOfPower
  /-- RESET_N_HIGH (R462). RESET_N goes high and the power-up sequence, stopped after step 2, resumes. -/
  | resetNHigh
  /-- SIGNAL_DETECT (R266). RX signal detect asserts, completing training step SIGNAL or returning a Hold RX to On when the signal returns. -/
  | signalDetect (lane : Nat)
  /-- ADAPT_CONVERGED (R266). CDR lock is gained and CTLE and DFE converge, completing training step ADAPT. -/
  | adaptConverged (lane : Nat)
  /-- PRBS_CHECKER_LOCK (R287). The PRBS checker sets CHK_LOCK after 64 error-free bits, or clears it after 64 errors within 1,024 bits. -/
  | prbsCheckerLock (lane : Nat) (bits : List Bool)
  /-- CANARY_FAILURE (R90). A core's timing-margin canary fails and CANARY_FAILS is incremented. -/
  | canaryFailure (tile core : Nat)
  /-- ATTEST_DONE (R457). The Warden finishes signing the attestation items and sends ATTEST's completion within 50 ms. -/
  | attestDone
  /-- FUSE_BLOW_DONE (R456). The DEBUG_LOCK fuse is read back and FUSE_BLOW completes, from which moment debug is locked and any JTAG session is reset. -/
  | fuseBlowDone (ok : Bool)
  /-- FW_UPDATE_COMMIT_DONE (R452). Verification of the new firmware copy ends and its commit record is written, SVN_MIN is raised if asked, and the command completes. -/
  | fwUpdateCommitDone (ok : Bool)
  /-- SELFTEST_DONE (R407). The Hub self-test of tiles, or of a returning core, ends with a pass or fail result. -/
  | selftestDone (core : Option (Nat × Nat)) (pass : List Nat)
  /-- PAT_SYNC_DONE (R231). The copy of the active generation into the writable one ends and PAT_SYNC completes. -/
  | patSyncDone (table : Nat) (ecc : Findings := [])
  /-- JTAG_INSTRUCTION (R456). An instruction is loaded into the JTAG TAP, and after DEBUG_LOCK anything other than BYPASS, IDCODE, SAMPLE/PRELOAD or EXTEST selects BYPASS. -/
  | jtagInstruction (ir : Nat)
  deriving DecidableEq, Repr

end Sys2Proof
end

