-- ==== Sys2Proof/Decode.lean ====
section
/-! DEFINITION. The command a word spells by the bits of spec/opcode_table.json. No row of that table gives bits: a command packet
names its command by the opcode of its header (15 Table 15.1), and an event has no encoding. -/

namespace Sys2Proof

/-- No word of the table spells a command. -/
def decodeTableWord (_nbits _w : Nat) : Option Instr := none

end Sys2Proof
end

