-- ==== Sys2Proof/Config.lean ====
section
/-! DEFINITION. What the spec leaves open: the free values. Each is a constant without a body, so nothing can be proved
of its value; notes/assumptions names each one. -/

namespace Sys2Proof.Config

/-- Which of the two FP32 neighbours of e^x EXP returns where the error bound of 1 ulp allows either (05 R143), by the
input: true the upper one. Log 10. -/
opaque expUp : BitVec 32 → Bool

/-- The sign and payload of a NaN that an FP32 operation of the vector unit returns (04 R120), by its operands. Log 13. -/
opaque nanBits : BitVec 32 → BitVec 32 → BitVec 32

/-- Which of two equal operands VMAX and VMIN return (04 R120), which matters for zeros of different sign. Log 13. -/
opaque zeroPick : BitVec 32 → BitVec 32 → Bool

/-- The FP32 code of the value of a LUT4 index that VCVT reads (04 R101, R119), for which no table is named. Log 13. -/
opaque lutVal : Nat → BitVec 32

/-- The byte a read outside the bounds, or of an absent memory, returns beside its poison mark (03 R75, 07 R186). Log 13. -/
opaque poisonByte : Nat → BitVec 8

/-- The address that a record of poison consumed where no device address stands carries (07 R201), by its place: a vector register, a tap flit
(from 2^20 on), or a decision bit (from 2^21 on). Log 36. -/
opaque regAddr : Nat → BitVec 48

/-- The check bits of half a pattern entry (08 R215): the spec names the code (88,80), the same for both halves, and not its matrix.
Log 11. -/
opaque patEcc : BitVec 80 → BitVec 8

/-- A 48-byte random nonce of the twin attestation (16 R413), by the count of nonces drawn. Log 12. -/
opaque nonce : Nat → BitVec 384

/-- The identity-key signature (r, s) of an attestation (18 R457), by the words signed. Log 12. -/
opaque identitySign : List (BitVec 32) → BitVec 768

/-- The part's identity public key, X then Y (18 R449), a fuse of each part. Log 12. -/
opaque identityKey : BitVec 768

/-- The result of a narrow operation on operands for which the spec states none, by a counter. Log 13. -/
opaque freeWord : Nat → BitVec 32

/-- What training finds for a lane's receive equaliser (its CTLE peaking and its DFE taps, 10 R264), which the spec bounds and does not
give, by lane and item. Log 14. -/
opaque laneAnalog : Nat → Nat → BitVec 32

/-- The last 58 bits that a lane's scrambler has put on the line when training leaves it up, by lane and FAB cycle (10 R259). Log 21. -/
opaque idleScram : Nat → Nat → BitVec 58

/-- The register that a pattern generator starts from (10 R287), by lane and FAB cycle. Log 21. -/
opaque prbsSeed : Nat → Nat → BitVec 31

/-- The tap and direction that a receiver asks of its partner's FFE (10 R266), by lane and request: [2:0] and [3]. Log 14. -/
opaque ffeWish : Nat → Nat → BitVec 4

/-- The identity certificate of the Warden (18 R449), written at manufacture. Log 12. -/
opaque identityCert : List (BitVec 8)

/-- The measurement of a firmware copy as delivered (18 R457): 0 Warden A, 1 Warden B, 2 Hub A, 3 Hub B. Log 12. -/
opaque factoryMeas : Nat → BitVec 384

/-- The bytes of the module EEPROM (18 R458), written at manufacture for a part of a stepping (true B0; 00 R3). Log 12. -/
opaque fru : Bool → Nat → BitVec 8

end Sys2Proof.Config
end

