-- ==== Sys2Proof/Machine/Bits.lean ====
section
/-! DEFINITION. Bit fields of words, as the register maps name them (00 R8: bit 0 is the least significant bit), and the
sparse map that holds registers and memories in one canonical form: keys rising, no entry equal to its default. -/

namespace Sys2Proof.Machine

/-- The field of `n` bits whose lowest bit is `lo`. -/
def fld (w : W32) (lo n : Nat) : Nat := (w.toNat >>> lo) % 2 ^ n

/-- The word with the field of `n` bits at `lo` replaced by `v` (its low `n` bits). -/
def setFld (w : W32) (lo n v : Nat) : W32 :=
  BitVec.ofNat 32 (w.toNat - fld w lo n * 2 ^ lo + (v % 2 ^ n) * 2 ^ lo)

/-- The bit at `i`. -/
def bit (w : W32) (i : Nat) : Bool := fld w i 1 == 1

/-- The word with bit `i` set or cleared. -/
def setBit (w : W32) (i : Nat) (b : Bool) : W32 := setFld w i 1 (if b then 1 else 0)

/-- Bit `i` of a number. -/
def nbit (n i : Nat) : Bool := (n >>> i) % 2 == 1

/-- The number of bits set among the low `k` bits. -/
def popcount (n : Nat) : Nat → Nat
  | 0 => 0
  | k + 1 => popcount n k + (if nbit n k then 1 else 0)

/-- The indices below `k` of the set bits, rising. -/
def bitsOf (n : Nat) (k : Nat) : List Nat := (List.range k).filter (nbit n)

/-- A number's two's complement value in `n` bits. -/
def toSigned (n v : Nat) : Int := if v % 2 ^ n < 2 ^ (n - 1) then (v % 2 ^ n : Nat) else ((v % 2 ^ n : Nat) : Int) - 2 ^ n

/-- The two's complement code of an integer in `n` bits. -/
def ofSigned (n : Nat) (v : Int) : Nat := (v % (2 ^ n : Int)).toNat

/-- `a - b` of two 32-bit counts taken as a signed value (02 R37: TICK_ID wraps). -/
def tickDiff (a b : W32) : Int := (a - b).toInt

/-- Whether tick `a` is at or after tick `b` in the signed sense of 08 R227. -/
def tickReached (a b : W32) : Bool := decide (0 ≤ tickDiff a b)

/-- A saturating increment of a 32-bit count. -/
def satInc (w : W32) : W32 := if w.toNat = 0xFFFFFFFF then w else w + 1

/-- A saturating addition within `n` bits. -/
def satAdd (n a b : Nat) : Nat := if 2 ^ n - 1 ≤ a + b then 2 ^ n - 1 else a + b

abbrev SMap (V : Type) := List (Nat × V)

/-- What key `k` reads as, `d` where it is not listed. -/
def SMap.get {V : Type} (d : V) : SMap V → Nat → V
  | [], _ => d
  | (k', v) :: r, k => if k = k' then v else SMap.get d r k

/-- Inserts an entry before the first greater key. -/
def SMap.ins {V : Type} (k : Nat) (v : V) : SMap V → SMap V
  | [] => [(k, v)]
  | (k', v') :: r => if k < k' then (k, v) :: (k', v') :: r else (k', v') :: SMap.ins k v r

/-- Drops every entry of key `k`. -/
def SMap.del {V : Type} (k : Nat) : SMap V → SMap V
  | [] => []
  | (k', v) :: r => if k = k' then SMap.del k r else (k', v) :: SMap.del k r

/-- Writes `v` at key `k`, whose default is `d`: writing the default removes the entry. -/
def SMap.set {V : Type} [DecidableEq V] (d : V) (m : SMap V) (k : Nat) (v : V) : SMap V :=
  if v = d then SMap.del k m else SMap.ins k v (SMap.del k m)

/-- Strictly rising keys. -/
def SMap.sorted {V : Type} : SMap V → Bool
  | [] => true
  | [_] => true
  | (k, _) :: (k', v') :: r => decide (k < k') && SMap.sorted ((k', v') :: r)

/-- The canonical form: keys rising and no entry at its default. -/
def SMap.wf {V : Type} [DecidableEq V] (d : Nat → V) (m : SMap V) : Bool :=
  SMap.sorted m && m.all (fun e => decide (e.2 ≠ d e.1))

/-- The bytes of a word, little-endian (00 R7). -/
def bytesLE : Nat → Nat → List W8
  | 0, _ => []
  | n + 1, v => BitVec.ofNat 8 v :: bytesLE n (v / 256)

/-- The number little-endian bytes spell (00 R7). -/
def ofBytesLE : List W8 → Nat
  | [] => 0
  | b :: r => b.toNat + 256 * ofBytesLE r

/-- The 32-bit words of a number, low word first. -/
def wordsLE : Nat → Nat → List W32
  | 0, _ => []
  | n + 1, v => BitVec.ofNat 32 v :: wordsLE n (v / 2 ^ 32)

/-- The number that little-endian words spell. -/
def ofWordsLE : List W32 → Nat
  | [] => 0
  | w :: r => w.toNat + 2 ^ 32 * ofWordsLE r

/-- One bit step of the reflected CRC with polynomial `p`. -/
def crcBit (p c : Nat) : Nat := if c % 2 = 1 then Nat.xor (c / 2) p else c / 2

def crcBits (p : Nat) : Nat → Nat → Nat
  | 0, c => c
  | n + 1, c => crcBits p n (crcBit p c)

/-- A reflected CRC over bytes, from the running value `c`. -/
def crcReflected (p : Nat) : List W8 → Nat → Nat
  | [], c => c
  | b :: r, c => crcReflected p r (crcBits p 8 (Nat.xor c b.toNat))

/-- CRC-32 of IEEE 802.3: reflected, initial and final value all ones (09 R235, 15 R378). -/
def crc32 (bs : List W8) : W32 := BitVec.ofNat 32 (Nat.xor (crcReflected 0xEDB88320 bs 0xFFFFFFFF) 0xFFFFFFFF)

/-- CRC-32C from an initial value, without final inversion (08 R218). -/
def crc32c (bs : List W8) (seed : W32) : W32 := BitVec.ofNat 32 (crcReflected 0x82F63B78 bs seed.toNat)

def crc64Bit (c : Nat) : Nat :=
  if 2 ^ 63 ≤ c then Nat.xor ((c * 2) % 2 ^ 64) 0x42F0E1EBA9EA3693 else (c * 2) % 2 ^ 64

def crc64Bits : Nat → Nat → Nat
  | 0, c => c
  | n + 1, c => crc64Bits n (crc64Bit c)

/-- CRC-64 with the ECMA-182 polynomial: initial value 0, no reflection, no final inversion (16 R417). -/
def crc64 : List W8 → Nat → Nat
  | [], c => c
  | b :: r, c => crc64 r (crc64Bits 8 (Nat.xor c (b.toNat * 2 ^ 56)))

/-- `⌈a / b⌉`. -/
def ceilDiv (a b : Nat) : Nat := (a + b - 1) / b

/-- Inserts before the first element it does not follow. -/
def insertBy {α : Type} (le : α → α → Bool) (a : α) : List α → List α
  | [] => [a]
  | b :: r => if le a b then a :: b :: r else b :: insertBy le a r

/-- A stable insertion sort. -/
def sortBy {α : Type} (le : α → α → Bool) : List α → List α
  | [] => []
  | a :: r => insertBy le a (sortBy le r)

/-- The first index at which a property holds. -/
def findIx {α : Type} (p : α → Bool) : List α → Option Nat
  | [] => none
  | a :: r => if p a then some 0 else (findIx p r).map (· + 1)

end Sys2Proof.Machine
end

