-- ==== Sys2Proof/Machine/RegMap.lean ====
section
/-! DEFINITION. The register maps of the spec: the address of every register, its reset value and its field types
(00 R8 Table 0.3). Keys below 2^48 are device addresses (07 Table 7.1); `Reg.wa` is the base under which the BAR0
Window A offsets are kept (15 Table 15.7), which are no device addresses. Addresses of the Hub's registers (CSR base 0x3_0000_0000) and of Window A are written out. -/

namespace Sys2Proof.Machine.Reg

def csr : Nat := 0x300000000
def wa : Nat := 0x1000000000000

def tileBase (t : Nat) : Nat := t * 0x10000000
def coreBase (t c : Nat) : Nat := t * 0x10000000 + c * 0x40000
/-- Context registers of context k of a core (03 Table 3.6). -/
def ctxBase (t c k : Nat) : Nat := coreBase t c + 0x3C000 + k * 0x400
def ctxCfg (t c k : Nat) : Nat := ctxBase t c k
def ctxSlot (t c k : Nat) : Nat := ctxBase t c k + 0x4
def ctxMaxFire (t c k : Nat) : Nat := ctxBase t c k + 0x8
def ctxNeed (t c k q : Nat) : Nat := ctxBase t c k + 0xC + 4 * (q / 4)
def ctxBoundLo (t c k : Nat) : Nat := ctxBase t c k + 0x14
def ctxBoundHi (t c k : Nat) : Nat := ctxBase t c k + 0x18
def ctxCarry (t c k : Nat) : Nat := ctxBase t c k + 0x1C
def ctxStat (t c k : Nat) : Nat := ctxBase t c k + 0x20
def ctxFires (t c k : Nat) : Nat := ctxBase t c k + 0x24
def qalloc (t c k q : Nat) : Nat := ctxBase t c k + 0x40 + 4 * q
def qstat (t c k q : Nat) : Nat := ctxBase t c k + 0x60 + 4 * q
def route (t c k r : Nat) : Nat := ctxBase t c k + 0x80 + 4 * r
def credit (t c k r : Nat) : Nat := ctxBase t c k + 0xC0 + 4 * r
def coreId (t c : Nat) : Nat := coreBase t c + 0x3D000
def coreRes (t c : Nat) : Nat := coreBase t c + 0x3D004
def coreCanary (t c : Nat) : Nat := coreBase t c + 0x3D008
/-- Shot clock monitors (02 Table 2.3). -/
def mon (t m : Nat) : Nat := tileBase t + 0xF000000 + m * 0x20
def scDeadline (t m : Nat) : Nat := mon t m
def scNominal (t m : Nat) : Nat := mon t m + 0x4
def scLast (t m : Nat) : Nat := mon t m + 0x8
def scWorst (t m : Nat) : Nat := mon t m + 0xC
def scLateCount (t m : Nat) : Nat := mon t m + 0x10
def scFirstLate (t m : Nat) : Nat := mon t m + 0x14
def scLastLate (t m : Nat) : Nat := mon t m + 0x18
def scCtrl (t m : Nat) : Nat := mon t m + 0x1C
def droopStat (t : Nat) : Nat := tileBase t + 0xF010000
/-- Substitution (03 Table 3.9). -/
def substPolicy (t : Nat) : Nat := tileBase t + 0xF020000
def substCount (t : Nat) : Nat := tileBase t + 0xF020004
def meshConflict (t : Nat) : Nat := tileBase t + 0xF020008
def rowMap (t r : Nat) : Nat := tileBase t + 0xF020100 + 4 * r
/-- SFU (05 Table 5.3). -/
def sfu (t g : Nat) : Nat := tileBase t + 0xF030000 + g * 0x20000
def sfuPset (t g k p : Nat) : Nat := sfu t g + 0x100 + k * 0x200 + p * 0x20
def sfuRes (t g e : Nat) : Nat := sfu t g + 0x1000 + e * 8
def pwpTable (t g n : Nat) : Nat := sfu t g + 0x10000 + n * 0x1000
/-- Scarab (06 Table 6.4). -/
def scarab (t : Nat) : Nat := tileBase t + 0xF0B0000
def inbandMask (g : Nat) : Nat := 0x300000100 + 4 * (g / 32)
def tickCfg : Nat := 0x300002000
def tickStatus : Nat := 0x300002004
def tickId : Nat := 0x300002008
def tickInSlips : Nat := 0x30000200C
def sigId : Nat := 0x300002010
def numCfg : Nat := 0x300003000
def ctxr (k : Nat) : Nat := 0x300004000 + k * 0x40
def ctxrState (k : Nat) : Nat := ctxr k
def ctxrStart (k : Nat) : Nat := ctxr k + 0x4
def ctxrStop (k : Nat) : Nat := ctxr k + 0x8
def ctxrRetire (k : Nat) : Nat := ctxr k + 0xC
def ctxrGapCfg (k : Nat) : Nat := ctxr k + 0x10
def ctxrGaps (k : Nat) : Nat := ctxr k + 0x14
def ctxrHolds (k : Nat) : Nat := ctxr k + 0x18
def ctxrStale (k : Nat) : Nat := ctxr k + 0x1C
def ctxrAbandoned (k : Nat) : Nat := ctxr k + 0x20
def ctxrPass (k : Nat) : Nat := ctxr k + 0x24
def ctxrDrainTo (k : Nat) : Nat := ctxr k + 0x28
def scrub (kind : Nat) : Nat := 0x300005000 + kind * 0x10
def pt (n : Nat) : Nat := 0x300006000 + n * 0x20
def pr (r : Nat) : Nat := 0x300007000 + r * 0x10
def fb (k o : Nat) : Nat := 0x300010000 + k * 0x800 + o * 0x20
def fbCfg (k o : Nat) : Nat := fb k o
def fbFixedLo (k o : Nat) : Nat := fb k o + 0x4
def fbFixedHi (k o : Nat) : Nat := fb k o + 0x8
def fbCount (k o : Nat) : Nat := fb k o + 0xC
def fbWin (k o : Nat) : Nat := fb k o + 0x10
def fbLastTick (k o : Nat) : Nat := fb k o + 0x14
def fbDiscard (k o : Nat) : Nat := fb k o + 0x18
def fbClr (k o : Nat) : Nat := fb k o + 0x1C
def num (k id : Nat) : Nat := 0x300020000 + k * 0x4000 + id * 0x10
def arb (i : Nat) : Nat := 0x300100000 + i * 0x40
def reqPrio (id : Nat) : Nat := 0x300110000 + id * 4
def lane (n : Nat) : Nat := 0x300200000 + n * 0x100
def laneCfg (n : Nat) : Nat := lane n
def laneState (n : Nat) : Nat := lane n + 0x4
def partnerTag (n : Nat) : Nat := lane n + 0x8
def ebStat (n : Nat) : Nat := lane n + 0xC
def ebCfg (n : Nat) : Nat := lane n + 0x10
def lockLosses (n : Nat) : Nat := lane n + 0x14
def markerErrs (n : Nat) : Nat := lane n + 0x18
def overruns (n : Nat) : Nat := lane n + 0x1C
def downCount (n : Nat) : Nat := lane n + 0x20
def fecCorr (n : Nat) : Nat := lane n + 0x24
def fecUncorr (n : Nat) : Nat := lane n + 0x28
def bipErrs (n : Nat) : Nat := lane n + 0x2C
def txFfe (n : Nat) : Nat := lane n + 0x40
def rxEq (n : Nat) : Nat := lane n + 0x44
def dfeTaps (n i : Nat) : Nat := lane n + 0x48 + 4 * i
def eye (n : Nat) : Nat := lane n + 0x54
def prbsCfg (n : Nat) : Nat := lane n + 0x60
def prbsStat (n : Nat) : Nat := lane n + 0x64
def prbsBits (n i : Nat) : Nat := lane n + 0x68 + 4 * i
def prbsErrs (n : Nat) : Nat := lane n + 0x70
def injCfg (n : Nat) : Nat := lane n + 0x74
def injCount (n : Nat) : Nat := lane n + 0x78
def grp (g : Nat) : Nat := 0x300210000 + g * 0x40
def grpCfg (g : Nat) : Nat := grp g
def grpLanesLo (g : Nat) : Nat := grp g + 0x4
def grpLanesHi (g : Nat) : Nat := grp g + 0x8
def grpStat (g : Nat) : Nat := grp g + 0xC
def grpMissing (g : Nat) : Nat := grp g + 0x10
def grpParityUsed (g : Nat) : Nat := grp g + 0x14
def grpReentries (g : Nat) : Nat := grp g + 0x18
def fieldEnt (f : Nat) : Nat := 0x300220000 + f * 0x20
def ctrlDrops : Nat := 0x300230000
def meshRoute (d : Nat) : Nat := 0x300230100 + d * 4
def rtMeas (g : Nat) : Nat := 0x300230200 + g * 4
def fastCtl (g : Nat) : Nat := 0x300230300 + g * 4
def outItem (st i : Nat) : Nat := 0x300240000 + st * 0x200 + i * 8
def outStream (st : Nat) : Nat := 0x300248000 + st * 8
def sch (ch : Nat) : Nat := 0x300250000 + ch * 0x10
def prim (p : Nat) : Nat := 0x300260000 + p * 0x20
def click (u : Nat) : Nat := 0x300270000 + u * 0x20
def comb : Nat := 0x300280000
def feCfg : Nat := 0x300280000
def trigCtrl : Nat := 0x300280004
def trigNum : Nat := 0x300280008
def trigCount : Nat := 0x30028000C
def dec (j : Nat) : Nat := comb + 0x800 + j * 0x10
def cond (c : Nat) : Nat := comb + 0x1000 + c * 0x40
def condMem (c i : Nat) : Nat := cond c + 0x8 + 4 * i
def dbCfg (b : Nat) : Nat := comb + 0x2000 + 4 * b
def tbCfg (t : Nat) : Nat := comb + 0x2400 + 4 * t
def str (st : Nat) : Nat := 0x300290000 + st * 0x40
def acq (g : Nat) : Nat := 0x3002A0000 + g * 0x40
def chg (u : Nat) : Nat := 0x3002B0000 + u * 0x10
def busCfg : Nat := 0x3002C0000
def busStat : Nat := 0x3002C0004
def busSlotErrs : Nat := 0x3002C0008
def busTxMerged : Nat := 0x3002C000C
def busLoop (k : Nat) : Nat := 0x3002C0040 + 4 * k
def busTxc (k : Nat) : Nat := 0x3002C0060 + 4 * k
def busRxc (k : Nat) : Nat := 0x3002C0080 + 4 * k
def txMap (b i : Nat) : Nat := 0x3002C0100 + 8 * b + 4 * i
def todLatch : Nat := 0x3002D0000
def todSecLo : Nat := 0x3002D0004
def todNs : Nat := 0x3002D0008
def todFrac : Nat := 0x3002D000C
def timeIncLo : Nat := 0x3002D0010
def timeIncHi : Nat := 0x3002D0014
def timeStat : Nat := 0x3002D0018
def timeSteps : Nat := 0x3002D001C
def ppsInSecHi : Nat := 0x3002D0020
def ppsInSecLo : Nat := 0x3002D0024
def ppsInNs : Nat := 0x3002D0028
def ppsInFrac : Nat := 0x3002D002C
def ppsInCount : Nat := 0x3002D0030
def ppsOutCfg : Nat := 0x3002D0034
def ppsOutOfs : Nat := 0x3002D0038
def tsCfg : Nat := 0x3002D003C
def tsDrops : Nat := 0x3002D0040
def twinCfg : Nat := 0x3002E0000
def twinStat : Nat := 0x3002E0004
def twinMismatches : Nat := 0x3002E0008
def twinSilent : Nat := 0x3002E000C
def twinTakeovers : Nat := 0x3002E0010
def twinLastTick : Nat := 0x3002E0014
def twinDigest (i : Nat) : Nat := 0x3002E0018 + 4 * i
def twinPdigest (i : Nat) : Nat := 0x3002E0020 + 4 * i
def twinPfp (w : Nat) : Nat := 0x3002E0040 + 4 * w
def pwrStat : Nat := 0x3002F0000
def feedV : Nat := 0x3002F0004
def busV : Nat := 0x3002F0008
def feedI : Nat := 0x3002F000C
def pwrCfg : Nat := 0x3002F0010
def keep (i : Nat) : Nat := 0x3002F0014 + 4 * i
def switchovers : Nat := 0x3002F001C
def shedEntries : Nat := 0x3002F0020
def shedFrames : Nat := 0x3002F0024
def tempMax : Nat := 0x3002F0028
def avsCfg (t : Nat) : Nat := 0x3002F0100 + t * 0x10
def avsSteps (t : Nat) : Nat := 0x3002F0104 + t * 0x10
def secStat : Nat := 0x300300000
def logSeq : Nat := 0x300300004
def sigFails : Nat := 0x300300008
/-- The counter of a code (21 Table 21.3). -/
def fcCount (code : Nat) : Nat := 0x300310000 + (code / 4096 - 1) * 0x4000 + (code % 4096) * 4
/-- Window A registers (15 Table 15.7). -/
def waReg (off : Nat) : Nat := 0x1000000000000 + off
def cmdCfg : Nat := 0x1000000000018
def cmdTail : Nat := 0x100000000001C
def cmdHead : Nat := 0x1000000000020
def cmdSeq : Nat := 0x1000000000024
def rplCfg : Nat := 0x1000000000038
def rplTail : Nat := 0x100000000003C
def rplHead : Nat := 0x1000000000040
def fltCfg : Nat := 0x1000000000058
def fltTail : Nat := 0x100000000005C
def fltHead : Nat := 0x1000000000060
def fltDrops : Nat := 0x1000000000064
def irqStatus : Nat := 0x1000000000080
def irqEn : Nat := 0x1000000000084
def tsTick : Nat := 0x1000000000090
def tsSecLo : Nat := 0x1000000000094
def tsNs : Nat := 0x1000000000098
def tsFrac : Nat := 0x100000000009C
def faultSummary : Nat := 0x10000000000A0
def winbBase : Nat := 0x10000000000B0
def asyncOpen : Nat := 0x10000000000C0
def waState : Nat := 0x1000000000008
def waTick : Nat := 0x100000000000C
def waSig : Nat := 0x1000000000004

end Sys2Proof.Machine.Reg

namespace Sys2Proof.Machine

/-- A row of a register map: the registers at `base` plus multiples of the strides of `dims` (stride, count; outermost
first), their reset value, the mask of RW bits, the mask of single W1C bits, and the W1C count fields as (low bit,
width), cleared only by all ones (00 R10). Every other bit is RO, reserved, or WO. -/
structure RegRow where
  base : Nat
  dims : List (Nat × Nat)
  reset : Nat
  rw : Nat
  w1c : Nat
  cnt : List (Nat × Nat)
  deriving DecidableEq, Repr

/-- Whether an offset is a sum of multiples of the strides within the counts. -/
def inDims : List (Nat × Nat) → Nat → Bool
  | [], o => o == 0
  | (st, n) :: r, o => decide (o / st < n) && inDims r (o % st)

def RegRow.covers (r : RegRow) (a : Nat) : Bool := decide (r.base ≤ a) && inDims r.dims (a - r.base)

def ro (base : Nat) (dims : List (Nat × Nat)) (reset : Nat := 0) : RegRow := ⟨base, dims, reset, 0, 0, []⟩
def rwRow (base : Nat) (dims : List (Nat × Nat)) (reset rw : Nat) : RegRow := ⟨base, dims, reset, rw, 0, []⟩
def cntRow (base : Nat) (dims : List (Nat × Nat)) : RegRow := ⟨base, dims, 0, 0, 0, [(0, 32)]⟩

def tileDim : Nat × Nat := (0x10000000, 16)
def coreDims : List (Nat × Nat) := [tileDim, (0x40000, 544)]

/-- Rows of the tiles (02 Tables 2.2, 2.3; 03 Tables 3.6, 3.9, 3.10; 05 Table 5.3; 06 Table 6.4). -/
def tileRows : List RegRow :=
  [ ro 0x3C000 (coreDims ++ [(0x400, 4), (4, 10)])
  , ro 0x3C040 (coreDims ++ [(0x400, 4), (4, 48)])
  , ro 0x3D000 coreDims
  , cntRow 0x3D004 coreDims
  , cntRow 0x3D008 coreDims
  , ro 0xF000000 [tileDim, (0x20, 64), (4, 8)]
  , ⟨0xF010000, [tileDim], 0, 0, 0, [(16, 16), (0, 8)]⟩
  , rwRow 0xF020000 [tileDim] 0x40081801 0xC0FF1FFF
  , ro 0xF020004 [tileDim]
  , cntRow 0xF020008 [tileDim]
  , ro 0xF020100 [tileDim, (4, 32)] 0x1F0010
  , ro 0xF030000 [tileDim, (0x20000, 4)]
  , cntRow 0xF030004 [tileDim, (0x20000, 4), (4, 3)]
  , ro 0xF030100 [tileDim, (0x20000, 4), (4, 512)]
  , ro 0xF031000 [tileDim, (0x20000, 4), (4, 128)]
  , ro 0xF040000 [tileDim, (0x20000, 4), (4, 16384)]
  , rwRow 0xF0B0000 [tileDim] 16384 0xFFFFFF
  , ro 0xF0B0004 [tileDim, (4, 3)]
  , cntRow 0xF0B0010 [tileDim]
  , ro 0xF0B0014 [tileDim]
  , cntRow 0xF0B0018 [tileDim] ]

/-- Rows of the control and status space, first half (15 R398; 02; 04; 06; 07; 08). -/
def csrRows1 : List RegRow :=
  [ rwRow (Reg.csr + 0x100) [(4, 2)] 0 0xFFFFFFFF
  , ro (Reg.csr + 0x2000) [] 40
  , ro (Reg.csr + 0x2004) [(4, 2)]
  , cntRow (Reg.csr + 0x200C) []
  , ro (Reg.csr + 0x2010) [] 0x000100A1
  , rwRow (Reg.csr + 0x3000) [] 0x80000014 0x8000001F
  , ro (Reg.csr + 0x4000) [(0x40, 4), (4, 7)]
  , cntRow (Reg.csr + 0x401C) [(0x40, 4), (4, 2)]
  , ro (Reg.csr + 0x4024) [(0x40, 4)]
  , rwRow (Reg.csr + 0x4028) [(0x40, 4)] 20 0x1F
  , rwRow (Reg.csr + 0x5000) [] 0x80000001 0x8000FFFF
  , rwRow (Reg.csr + 0x5010) [] 0x8000000A 0x8000FFFF
  , rwRow (Reg.csr + 0x5020) [] 0x80000E10 0x8000FFFF
  , rwRow (Reg.csr + 0x5030) [] 0x8000000A 0x8000FFFF
  , ro (Reg.csr + 0x5004) [(0x10, 4)]
  , cntRow (Reg.csr + 0x5008) [(0x10, 4)]
  , ⟨Reg.csr + 0x500C, [(0x10, 4)], 0, 0, 0, [(16, 16), (0, 16)]⟩
  , ro (Reg.csr + 0x6000) [(0x20, 64), (4, 8)]
  , ro (Reg.csr + 0x7000) [(0x10, 256), (4, 2)]
  , cntRow (Reg.csr + 0x7008) [(0x10, 256), (4, 2)]
  , ro (Reg.csr + 0x10000) [(0x800, 4), (0x20, 64), (4, 8)]
  , ro (Reg.csr + 0x20000) [(0x4000, 4), (0x10, 1024), (4, 2)]
  , cntRow (Reg.csr + 0x20008) [(0x4000, 4), (0x10, 1024)]
  , ⟨Reg.csr + 0x2000C, [(0x4000, 4), (0x10, 1024)], 0, 0, 0, [(24, 8), (0, 24)]⟩ ]

/-- Arbiters and requester priorities (07 Tables 7.9, 7.10). -/
def arbRowsAt (first n : Nat) : List RegRow :=
  [ ro (Reg.arb first) [(0x40, n), (4, 2)]
  , cntRow (Reg.arb first + 0x8) [(0x40, n), (4, 3)]
  , rwRow (Reg.arb first + 0x14) [(0x40, n)] 16 0x1F ]

def prioRow (first n reset : Nat) : RegRow := rwRow (Reg.reqPrio first) [(4, n)] reset 7

def arbRows : List RegRow :=
  arbRowsAt 0 0x140 ++ arbRowsAt 0x180 0x73 ++ arbRowsAt 0x200 0x40 ++
  [ prioRow 0x000 0x50 5, prioRow 0x050 2 3, prioRow 0x052 1 2, prioRow 0x053 1 1, prioRow 0x054 1 4
  , prioRow 0x055 1 2, prioRow 0x056 1 4, prioRow 0x100 4 2, prioRow 0x140 64 2 ]

/-- Lanes, groups, link layer (10 Tables 10.7, 10.8; 11 Tables 11.3, 11.8, 11.11, 11.12). -/
def laneRows : List RegRow :=
  let L := [(0x100, 144)]
  [ rwRow (Reg.csr + 0x200000) L 0x02000000 0x03FF0000
  , ro (Reg.csr + 0x200004) (L ++ [(4, 3)])
  , rwRow (Reg.csr + 0x200010) L 2 0xF
  , cntRow (Reg.csr + 0x200014) (L ++ [(4, 7)])
  , rwRow (Reg.csr + 0x200040) L 0x00030000 0x9FFFFFFE
  , rwRow (Reg.csr + 0x200044) L 0 0xFE000000
  , ro (Reg.csr + 0x200048) (L ++ [(4, 4)])
  , rwRow (Reg.csr + 0x200060) L 0 0xFC000000
  , ro (Reg.csr + 0x200064) (L ++ [(4, 3)])
  , cntRow (Reg.csr + 0x200070) L
  , rwRow (Reg.csr + 0x200074) L 0x00300000 0xFFFC0000
  , ro (Reg.csr + 0x200078) L
  , ro (Reg.csr + 0x210000) [(0x40, 64), (4, 4)]
  , cntRow (Reg.csr + 0x210010) [(0x40, 64), (4, 2)]
  , ro (Reg.csr + 0x210018) [(0x40, 64)]
  , ro (Reg.csr + 0x220000) [(0x20, 1024), (4, 4)]
  , cntRow (Reg.csr + 0x220010) [(0x20, 1024)]
  , ro (Reg.csr + 0x220014) [(0x20, 1024), (4, 3)]
  , cntRow (Reg.csr + 0x230000) []
  , ro (Reg.csr + 0x230100) [(4, 64)]
  , ro (Reg.csr + 0x230200) [(4, 64)]
  , ro (Reg.csr + 0x230300) [(4, 64)]
  , ro (Reg.csr + 0x240000) [(0x200, 64), (4, 128)]
  , ro (Reg.csr + 0x248000) [(4, 128)] ]

/-- Front end and combiner (12 Tables 12.1, 12.3, 12.4, 12.7), acquisition (13 Tables 13.7 to 13.9). -/
def feRows : List RegRow :=
  [ ro (Reg.csr + 0x250000) [(0x10, 1024), (4, 2)]
  , cntRow (Reg.csr + 0x250008) [(0x10, 1024)]
  , ro (Reg.csr + 0x25000C) [(0x10, 1024)]
  , ro (Reg.csr + 0x260000) [(0x20, 2048)]
  , ro (Reg.csr + 0x260004) [(0x20, 2048)] 0x00010000
  , ro (Reg.csr + 0x260008) [(0x20, 2048), (4, 4)]
  , cntRow (Reg.csr + 0x260018) [(0x20, 2048)]
  , ro (Reg.csr + 0x26001C) [(0x20, 2048)]
  , ro (Reg.csr + 0x270000) [(0x20, 64)]
  , ro (Reg.csr + 0x270004) [(0x20, 64)] 2
  , ro (Reg.csr + 0x270008) [(0x20, 64)]
  , cntRow (Reg.csr + 0x27000C) [(0x20, 64)]
  , ro (Reg.csr + 0x270010) [(0x20, 64), (4, 4)]
  , ro (Reg.csr + 0x280000) [(4, 2)]
  , ro (Reg.csr + 0x280008) [] 1
  , ro (Reg.csr + 0x28000C) []
  , ro (Reg.csr + 0x280800) [(0x10, 8)] 1
  , ro (Reg.csr + 0x280804) [(0x10, 8), (4, 2)]
  , cntRow (Reg.csr + 0x28080C) [(0x10, 8)]
  , ro (Reg.csr + 0x281000) [(0x40, 64), (4, 11)]
  , cntRow (Reg.csr + 0x28102C) [(0x40, 64)]
  , ro (Reg.csr + 0x281030) [(0x40, 64)]
  , ro (Reg.csr + 0x282000) [(4, 272)]
  , ro (Reg.csr + 0x290000) [(0x40, 16), (4, 7)]
  , rwRow (Reg.csr + 0x29001C) [(0x40, 16)] 0 0xFFFFFFE0
  , ro (Reg.csr + 0x290020) [(0x40, 16)]
  , cntRow (Reg.csr + 0x290024) [(0x40, 16)]
  , ro (Reg.csr + 0x2A0000) [(0x40, 64), (4, 2)]
  , ro (Reg.csr + 0x2A0008) [(0x40, 64)] 1
  , ro (Reg.csr + 0x2A000C) [(0x40, 64)] 0x00100000
  , ro (Reg.csr + 0x2A0010) [(0x40, 64), (4, 5)]
  , cntRow (Reg.csr + 0x2A0024) [(0x40, 64), (4, 3)]
  , ro (Reg.csr + 0x2B0000) [(0x10, 1024), (4, 3)]
  , cntRow (Reg.csr + 0x2B000C) [(0x10, 1024)] ]

/-- Trigger bus, time, twin, power, security, code counters (14 Tables 14.2, 14.6; 16 Table 16.3; 17 Table 17.3;
18 Table 18.5; 21 Table 21.3). -/
def hubRows : List RegRow :=
  [ ro (Reg.csr + 0x2C0000) [(4, 2)]
  , cntRow (Reg.csr + 0x2C0008) [(4, 2)]
  , ro (Reg.csr + 0x2C0040) [(4, 24)]
  , ro (Reg.csr + 0x2C0100) [(4, 32)]
  , ro (Reg.csr + 0x2D0000) [(4, 5)]
  , ro (Reg.csr + 0x2D0014) [] 2
  , ro (Reg.csr + 0x2D0018) [] 0x80000000
  , ro (Reg.csr + 0x2D001C) [(4, 6)]
  , ro (Reg.csr + 0x2D0034) [] 0x06400000
  , ro (Reg.csr + 0x2D0038) [(4, 2)]
  , cntRow (Reg.csr + 0x2D0040) []
  , ro (Reg.csr + 0x2E0000) [(4, 2)]
  , cntRow (Reg.csr + 0x2E0008) [(4, 2)]
  , ro (Reg.csr + 0x2E0010) [(4, 6)]
  , ro (Reg.csr + 0x2E0040) [(4, 12)]
  , ro (Reg.csr + 0x2F0000) [(4, 4)]
  , ro (Reg.csr + 0x2F0010) [] 0x8064000A
  , ro (Reg.csr + 0x2F0014) [(4, 4)]
  , cntRow (Reg.csr + 0x2F0024) []
  , ro (Reg.csr + 0x2F0028) [] 0x00FF0000
  , ro (Reg.csr + 0x2F0100) [(0x10, 16)] 0x63000000
  , ro (Reg.csr + 0x2F0104) [(0x10, 16)]
  , ro (Reg.csr + 0x300000) [(4, 2)]
  , cntRow (Reg.csr + 0x300008) []
  , cntRow (Reg.csr + 0x310000) [(0x4000, 9), (4, 4096)] ]

/-- Window A (15 Table 15.7). -/
def waRows : List RegRow :=
  let W := Reg.wa
  [ ro W [] 0xF048
  , ro (W + 0x4) [] 0x000100A1
  , ro (W + 0x8) [] 0x00020000
  , ro (W + 0xC) []
  , rwRow (W + 0x10) [] 0 0xFFFFF000
  , rwRow (W + 0x14) [] 0 0xFFFFFFFF
  , rwRow (W + 0x18) [] 15 0x8000001F
  , rwRow (W + 0x1C) [] 0 0x00FFFFF0
  , ro (W + 0x20) [(4, 2)]
  , rwRow (W + 0x30) [] 0 0xFFFFF000
  , rwRow (W + 0x34) [] 0 0xFFFFFFFF
  , rwRow (W + 0x38) [] 15 0x8000001F
  , ro (W + 0x3C) []
  , rwRow (W + 0x40) [] 0 0x00FFFFF0
  , rwRow (W + 0x50) [] 0 0xFFFFF000
  , rwRow (W + 0x54) [] 0 0xFFFFFFFF
  , rwRow (W + 0x58) [] 16 0x8000001F
  , ro (W + 0x5C) []
  , rwRow (W + 0x60) [] 0 0x00FFFFE0
  , cntRow (W + 0x64) []
  , ⟨W + 0x80, [], 0, 0, 0xF, []⟩
  , rwRow (W + 0x84) [] 0 0xF
  , ro (W + 0x90) [(4, 4)]
  , ⟨W + 0xA0, [], 0, 0, 0x3FE, []⟩
  , rwRow (W + 0xB0) [] 0 0xFFF
  , ro (W + 0xC0) [] ]

/-- The rows of the part of the address space that holds `a`. -/
def rowsOf (a : Nat) : List RegRow :=
  if a < 0x100000000 then tileRows
  else if a < Reg.csr then []
  else if a < Reg.csr + 0x100000 then csrRows1
  else if a < Reg.csr + 0x200000 then arbRows
  else if a < Reg.csr + 0x250000 then laneRows
  else if a < Reg.csr + 0x2C0000 then feRows
  else if a < Reg.csr + 0x10000000 then hubRows
  else if a < Reg.wa then []
  else waRows

/-- The row of the register at `a`, if one is mapped there. -/
def regRow (a : Nat) : Option RegRow := (rowsOf a).find? (·.covers a)

/-- CORE_ID of the physical core `c` of tile `t` at reset: its place, and the logical core it serves where no row is
retired (03 Table 3.10). -/
def coreIdReset (t c : Nat) : Nat :=
  t * 2 ^ 28 + (c / 17) * 2 ^ 23 + (c % 17) * 2 ^ 18 + (if c % 17 = 16 then 31 else c % 17) * 2 ^ 13

/-- The reset value of the register at `a` (00 R11); 0 where no register is mapped. -/
def regReset (a : Nat) : W32 :=
  if a < 0x100000000 ∧ a % 0x10000000 < 0x8800000 ∧ a % 0x40000 = 0x3D000 then
    BitVec.ofNat 32 (coreIdReset (a / 0x10000000) (a % 0x10000000 / 0x40000))
  else match regRow a with
    | some r => BitVec.ofNat 32 r.reset
    | none => 0

/-- What the field types of a row make of a written word (00 R8 to R10, R12): RW bits take it, W1C bits it sets clear, a
count field clears when it is written all ones, every other bit keeps its value. A write comes before the events of its own cycle, whose
commands follow it in the queue: what they set stays set, and an increment is kept (R9, R10; DESIGN CHOICE, log 20). -/
def RegRow.write (r : RegRow) (old v : W32) : W32 :=
  let keepW1c := old.toNat - Nat.land old.toNat (Nat.land v.toNat r.w1c)
  let rwd := Nat.lor (keepW1c - Nat.land keepW1c r.rw) (Nat.land v.toNat r.rw)
  r.cnt.foldl (fun w f => if fld v f.1 f.2 = 2 ^ f.2 - 1 then setFld w f.1 f.2 0 else w) (BitVec.ofNat 32 rwd)

end Sys2Proof.Machine
end

