-- ==== Sys2Proof/Machine/Sign.lean ====
section
/-! DEFINITION. SHA-384 (FIPS 180-4) and the verification of an ECDSA P-384 signature (FIPS 186-5), which the spec names for images (09
R238), measurements and the event log (18 R449, R457, R459) and defines by those standards (PRESUMED, log 12). Numbers are forced as
they arise, so that the kernel evaluates both. -/

namespace Sys2Proof.Machine

/-- Goes on with the value of a number. -/
def force {α : Type} (x : Nat) (k : Nat → α) : α :=
  match x with
  | 0 => k 0
  | n + 1 => k (n + 1)

/-- Goes on with the values of a list of numbers. -/
def forceList (k : List Nat → List Nat) : List Nat → List Nat → List Nat
  | [], acc => k acc.reverse
  | x :: r, acc => force x (fun v => forceList k r (v :: acc))

/-! SHA-384. -/

/-- The largest `r` with `r ^ e` at most `n` whose bits above the low `k` are those of `r`. -/
def rootBits (e n : Nat) : Nat → Nat → Nat
  | 0, r => r
  | k + 1, r => force (if (r + 2 ^ k) ^ e ≤ n then r + 2 ^ k else r) (rootBits e n k)

/-- The first 64 bits of the fractional part of the `e`-th root of a prime below 2^9 (FIPS 180-4). -/
def rootFrac (e p : Nat) : Nat := rootBits e (p * 2 ^ (64 * e)) 69 0 % 2 ^ 64

/-- The first eighty primes. -/
def primes80 : List Nat := (List.range 410).filter (fun n => decide (2 ≤ n) && (List.range 19).all (fun d => n == d + 2 || n % (d + 2) != 0))

/-- The round constants: of the cube roots of the first eighty primes (FIPS 180-4). -/
def shaK : List Nat := primes80.map (rootFrac 3)

/-- The initial hash value of SHA-384: of the square roots of the ninth to the sixteenth prime (FIPS 180-4). -/
def shaInit : List Nat := ((primes80.drop 8).take 8).map (rootFrac 2)

def rotr64 (n x : Nat) : Nat := Nat.lor (x / 2 ^ n) (x * 2 ^ (64 - n) % 2 ^ 64)

def xor3 (a b c : Nat) : Nat := Nat.xor a (Nat.xor b c)

/-- Extends the message schedule by `n` words; the newest word comes first. -/
def shaSched : Nat → List Nat → List Nat
  | 0, w => w
  | n + 1, w =>
    let x := w.getD 14 0
    let y := w.getD 1 0
    force ((xor3 (rotr64 19 y) (rotr64 61 y) (y / 2 ^ 6) + w.getD 6 0 + xor3 (rotr64 1 x) (rotr64 8 x) (x / 2 ^ 7) + w.getD 15 0) % 2 ^ 64)
      (fun v => shaSched n (v :: w))

/-- The rounds over constants and schedule words, from the working variables a to h. -/
def shaRounds : List Nat → List Nat → Nat → Nat → Nat → Nat → Nat → Nat → Nat → Nat → List Nat
  | k :: ks, w :: ws, a, b, c, d, e, f, g, h =>
    force ((h + xor3 (rotr64 14 e) (rotr64 18 e) (rotr64 41 e) + Nat.xor (Nat.land e f) (Nat.land (2 ^ 64 - 1 - e) g) + k + w) % 2 ^ 64)
      (fun t => force ((t + xor3 (rotr64 28 a) (rotr64 34 a) (rotr64 39 a) + xor3 (Nat.land a b) (Nat.land a c) (Nat.land b c)) % 2 ^ 64)
        (fun x => force ((d + t) % 2 ^ 64) (fun y => shaRounds ks ws x a b c y e f g)))
  | _, _, a, b, c, d, e, f, g, h => [a, b, c, d, e, f, g, h]

/-- The hash value after a block, under the round constants `k`. -/
def shaBlock (k h w : List Nat) : List Nat :=
  List.zipWith (fun x y => (x + y) % 2 ^ 64) h (shaRounds k (shaSched 64 w.reverse).reverse (h.getD 0 0) (h.getD 1 0) (h.getD 2 0)
    (h.getD 3 0) (h.getD 4 0) (h.getD 5 0) (h.getD 6 0) (h.getD 7 0))

/-- The number that big-endian bytes spell. -/
def ofBytesBE (l : List W8) : Nat := l.foldl (fun n b => n * 256 + b.toNat) 0

/-- The first `k` chunks of `n` elements. -/
def chunks {α : Type} (n : Nat) : Nat → List α → List (List α)
  | 0, _ => []
  | k + 1, l => l.take n :: chunks n k (l.drop n)

/-- The blocks of a padded message. -/
def shaBlocks (k : List Nat) : List (List W8) → List Nat → List Nat
  | [], h => h
  | b :: r, h => forceList (shaBlocks k r) (shaBlock k h ((chunks 8 16 b).map ofBytesBE)) []

/-- SHA-384 as a number, the first byte of the digest highest. -/
def shaNat (m : List W8) : Nat :=
  let n := (m.length + 144) / 128
  let pad := 0x80#8 :: List.replicate (n * 128 - m.length - 17) 0#8 ++ (List.range 16).map (fun i => BitVec.ofNat 8 (m.length * 8 / 256 ^ (15 - i)))
  ((forceList (fun k => forceList (shaBlocks k (chunks 128 n (m ++ pad))) shaInit []) shaK []).take 6).foldl (fun x w => x * 2 ^ 64 + w) 0

/-- SHA-384 of bytes. -/
@[irreducible] def sha384 (m : List W8) : BitVec 384 := BitVec.ofNat 384 (shaNat m)

/-! ECDSA P-384. -/

/-- The prime of the field, and the order of the group. -/
def p384 : Nat := 2 ^ 384 - 2 ^ 128 - 2 ^ 96 + 2 ^ 32 - 1
def n384 : Nat := 0xFFFFFFFFFFFFFFFFFFFFFFFFFFFFFFFFFFFFFFFFFFFFFFFFC7634D81F4372DDF581A0DB248B0A77AECEC196ACCC52973

def subP (a b : Nat) : Nat := (a + p384 - b) % p384

/-- A point (x / z², y / z³); the point at infinity has z = 0. -/
structure Pt where
  x : Nat
  y : Nat
  z : Nat

def Pt.force (p : Pt) (k : Pt → Pt) : Pt := Machine.force p.x (fun x => Machine.force p.y (fun y => Machine.force p.z (fun z => k ⟨x, y, z⟩)))

/-- Twice a point of y² = x³ − 3 x + b. -/
def Pt.dbl (p : Pt) : Pt :=
  Machine.force (p.z * p.z % p384) (fun d => Machine.force (p.y * p.y % p384) (fun g => Machine.force (p.x * g % p384) (fun b =>
  Machine.force (3 * subP p.x d * (p.x + d) % p384) (fun a => Machine.force (subP (a * a % p384) (8 * b % p384)) (fun x =>
  Machine.force (subP (a * subP (4 * b % p384) x % p384) (8 * g * g % p384)) (fun y =>
  Machine.force (subP (subP ((p.y + p.z) * (p.y + p.z) % p384) g) d) (fun z => ⟨x, y, z⟩)))))))

/-- The sum of two points. -/
def Pt.add (p q : Pt) : Pt :=
  if p.z = 0 then q
  else if q.z = 0 then p
  else
    Machine.force (p.z * p.z % p384) (fun z1 => Machine.force (q.z * q.z % p384) (fun z2 =>
    Machine.force (p.x * z2 % p384) (fun u1 => Machine.force (q.x * z1 % p384) (fun u2 =>
    Machine.force (p.y * q.z * z2 % p384) (fun s1 => Machine.force (q.y * p.z * z1 % p384) (fun s2 =>
    if u1 = u2 then (if s1 = s2 then p.dbl else ⟨1, 1, 0⟩)
    else
      Machine.force (subP u2 u1) (fun h => Machine.force (subP s2 s1) (fun r => Machine.force (h * h % p384) (fun h2 =>
      Machine.force (h * h2 % p384) (fun h3 => Machine.force (u1 * h2 % p384) (fun v =>
      Machine.force (subP (subP (r * r % p384) h3) (2 * v % p384)) (fun x =>
      Machine.force (subP (r * subP v x % p384) (s1 * h3 % p384)) (fun y => ⟨x, y, h * p.z * q.z % p384⟩)))))))))))))

/-- The generator. -/
def g384 : Pt :=
  ⟨0xAA87CA22BE8B05378EB1C71EF320AD746E1D3B628BA79B9859F741E082542A385502F25DBF55296C3A545E3872760AB7,
   0x3617DE4A96262C6F5D9E98BF9292DC29F8F41DBD289A147CE9DA3113B5F0B8C00A60B1CE1D7E819D7A431D7C90EA0E5F, 1⟩

/-- a·P + b·Q over the low `k` bits of a and b, after the bits above gave `r`. -/
def mulAdd (a b : Nat) (p q : Pt) : Nat → Pt → Pt
  | 0, r => r
  | k + 1, r =>
    r.dbl.force (fun r => (if Nat.testBit a k then r.add p else r).force (fun r =>
      (if Nat.testBit b k then r.add q else r).force (fun r => mulAdd a b p q k r)))

/-- b to the low `k` bits of e modulo m, after the bits above gave `r`. -/
def powMod (m b e : Nat) : Nat → Nat → Nat
  | 0, r => r
  | k + 1, r => force (if Nat.testBit e k then r * r % m * b % m else r * r % m) (fun r => powMod m b e k r)

/-- Whether (r, s) signs a digest under a public key, X then Y. -/
def ecdsaNat (x y e r s : Nat) : Bool :=
  let w := powMod n384 s (n384 - 2) 384 1
  let p := mulAdd (e * w % n384) (r * w % n384) g384 ⟨x, y, 1⟩ 384 ⟨1, 1, 0⟩
  decide (0 < r ∧ r < n384 ∧ 0 < s ∧ s < n384) && p.z != 0 &&
  (r * p.z * p.z % p384 == p.x || (decide (r + n384 < p384) && (r + n384) * p.z * p.z % p384 == p.x))

@[irreducible] def ecdsaOk (key : BitVec 768) (digest : BitVec 384) (r s : Nat) : Bool :=
  ecdsaNat (key.toNat / 2 ^ 384) (key.toNat % 2 ^ 384) digest.toNat r s

end Sys2Proof.Machine
end

