-- ==== Sys2Proof/Machine/State.lean ====
section
/-! DEFINITION. The state of the Tirgoton as plain data, and the state after reset. Every register of the spec lives in
the one sparse map `State.regs`, at its own address (RegMap); every addressed memory lives in `State.mem`; the other
structures hold what the spec gives the block beside its registers, one structure per chapter. -/

namespace Sys2Proof.Machine

/-- Why a step stops with a fault. -/
inductive Fault where
  /-- An event row names a unit the part does not have, or a value no measurement can take (log 2). Raised by the event
  rows only, before any effect. Safe: the hardware has no such event. -/
  | illFormed
  deriving DecidableEq, Repr

/-- Why a step refuses a command. -/
inductive Refusal where
  /-- The command has no meaning in the model. Raised by exec's arms only. Safe. -/
  | notModelled (mnemonic : String)
  deriving DecidableEq, Repr

/-- The device states of Table 15.8 (15 R399). -/
inductive DevState where
  | off | boot | idle | loaded | armed | running | draining | halted | safe
  deriving DecidableEq, Repr

def DevState.code : DevState → Nat
  | .off => 0 | .boot => 1 | .idle => 2 | .loaded => 3 | .armed => 4 | .running => 5 | .draining => 6 | .halted => 7
  | .safe => 8

/-- A reply (15 Table 15.2) before its CRC is computed. -/
structure Reply where
  transport : Transport
  tag : Nat
  opcode : Nat
  completion : Bool
  forwarded : Bool
  state : Nat
  status : Nat
  payload : List W32
  timeNs : Nat
  deriving DecidableEq, Repr

/-- An outstanding asynchronous command (15 R386): its opcode, the units or contexts it names and its strobe. -/
structure Async where
  transport : Transport
  tag : Nat
  opcode : Nat
  mask : Nat
  tick : W32
  deriving DecidableEq, Repr

/-- A packet that passed steps 1 to 6 of Table 15.3 and waits for the command processor (15 R387). -/
structure Fetched where
  transport : Transport
  words : List W32
  deriving DecidableEq, Repr

/-- A packet forwarded to another part, whose REPLY frame is awaited (15 R380). -/
structure Forwarded where
  part : Nat
  tag : Nat
  transport : Transport
  deriving DecidableEq, Repr

/-- A fault-ring record (15 Table 15.5). -/
structure FaultRec where
  code : Nat
  kind : Nat
  die : Nat
  unit : Nat
  ctx : Nat
  sub : Nat
  tick : W32
  ns : Nat
  sec : Nat
  detail : Nat
  deriving DecidableEq, Repr

/-- Who reads or writes memory over class S: Window B, another part by its group, id and tag (11 R311), a debug command by its
transport, tag and opcode (15 R407; 09 R241), a core by tile, logical core, context, queue and event tag (07 R190), or the loader. -/
inductive ReqFrom where
  | window
  | part (g src tag : Nat)
  | command (tr : Transport) (tag op : Nat)
  | core (tile lcore ctx dq : Nat) (ev : W8)
  | loader
  deriving DecidableEq, Repr

/-- A class-S access to memory: address, length, the data of a write, and who asks. -/
structure HostReq where
  addr : Nat
  n : Nat
  data : Option (List W8)
  who : ReqFrom
  deriving DecidableEq, Repr

/-- The host interface (15): packets, replies, asynchronous commands, rings and the SPI port. Host memory lies outside
the block: what the device writes to the rings is kept here in order. `windowOut` lists the completions of Window B reads with their
poison marks, `waits` the class-S accesses that wait for a stack in self-refresh (07 R190), with the poison mask of their flits, and `inReset` says that a host-interface reset holds the endpoint (19 R467). -/
structure HostIf where
  fetched : List Fetched
  forwarded : List Forwarded
  seqSpi : Nat
  seqInband : SMap Nat
  async : List Async
  replies : List Reply
  held : List Reply
  spiReplies : List Reply
  spiFull : Bool
  overrun : Bool
  inbandReplies : List (Nat × Nat × Reply)
  faultRing : List FaultRec
  gapCount : Nat
  gapFirst : W32
  gapLast : W32
  msi : List Nat
  portOut : List (List W8)
  windowOut : List (List W8 × Bool)
  waits : List (HostReq × Nat)
  inReset : Bool
  deriving DecidableEq, Repr

def HostIf.init : HostIf :=
  { fetched := [], forwarded := [], seqSpi := 0, seqInband := [], async := [], replies := [], held := [], spiReplies := [],
    spiFull := false, overrun := false, inbandReplies := [], faultRing := [], gapCount := 0, gapFirst := 0, gapLast := 0,
    msi := [0, 0, 0, 0], portOut := [], windowOut := [], waits := [], inReset := false }

/-- The open report window of one code at one place (21 R489; 02 R51). -/
structure RepWin where
  code : Nat
  die : Nat
  unit : Nat
  mon : Nat
  ctx : Nat
  sub : Nat
  win : Nat
  count : Nat
  first : W32
  last : W32
  deriving DecidableEq, Repr

/-- An entry of the Warden event log (18 Table 18.4). `detail` is bytes 22 to 47, byte 22 lowest. -/
structure LogEntry where
  seq : Nat
  code : Nat
  kind : Nat
  die : Nat
  tick : W32
  sec : Nat
  ns : Nat
  detail : Nat
  chain : BitVec 128
  deriving DecidableEq, Repr

/-- The bytes 0 to 47 of an event-log entry (18 Table 18.4). -/
def LogEntry.bytes (e : LogEntry) : List W8 :=
  bytesLE 4 e.seq ++ bytesLE 2 e.code ++ bytesLE 1 e.kind ++ bytesLE 1 e.die ++ bytesLE 4 e.tick.toNat ++
  bytesLE 6 e.sec ++ bytesLE 4 e.ns ++ bytesLE 26 e.detail

/-- CHAIN in the order of the digest. -/
def chainBytes (c : BitVec 128) : List W8 := (List.range 16).map (fun i => c.extractLsb' (8 * (15 - i)) 8)

/-- An entry with its CHAIN: the first 16 bytes of SHA-384 over its bytes 0 to 47 and the previous entry's CHAIN (18 Table 18.4). -/
def LogEntry.link (e : LogEntry) (prev : BitVec 128) : LogEntry :=
  { e with chain := (sha384 (e.bytes ++ chainBytes prev)).extractLsb' 256 128 }

/-- Time of day and the cycle counts since reset (14 R366; 02). `fab` is the FAB cycle reached, `tickFab` that of the last
strobe, `sixteenths` the phase of TIME against FAB (5/16 TIME cycle per FAB cycle). `incOld` is the INC of the
present TIME cycle after a TIME_INC, which counts from the next (14 R367). `autoHold` is automatic holdover; `ptp` the
time-port lanes enabled, with one-step; then the frames received with their stamps, the frames sent, and the two-step stamps
with their tags (14 R372). -/
structure TimeSt where
  fab : Nat
  tickFab : Nat
  sixteenths : Nat
  sec : Nat
  ns : Nat
  frac : Nat
  incOld : Option Nat
  autoHold : Bool
  ppsOut : Bool
  ptp : List (Nat × Bool)
  ptpIn : List (Nat × List W8 × Option Stamp)
  ptpOut : List (Nat × List W8)
  ptpStamps : List (Nat × Nat × Stamp)
  deriving DecidableEq, Repr

def TimeSt.init : TimeSt :=
  { fab := 0, tickFab := 0, sixteenths := 0, sec := 0, ns := 0, frac := 0, incOld := none, autoHold := true, ppsOut := false, ptp := [],
    ptpIn := [], ptpOut := [], ptpStamps := [] }

/-- The tick generator (02 R36 to R42). `outPulses` lists the FAB cycles since reset in which TICK_OUT rises and falls. Of TICK_IN: the SAMPLE cycle since reset that opens the current window (the locked capture
cycle), the capture cycles seen in the window, good edges or clean windows in a row, slipped windows in a row, the offset of a run
on another phase and its windows, and whether lock was ever reached. -/
structure TickSt where
  running : Bool
  /-- The FAB cycle of the next strobe. -/
  nextAt : Nat
  pendingId : Option W32
  outPulses : List (Nat × Nat)
  expect : Option Nat
  seen : List Nat
  good : Nat
  slipRun : Nat
  otherOff : Nat
  otherRun : Nat
  everLocked : Bool
  /-- The strobes struck since reset. -/
  strobes : Nat := 0
  deriving DecidableEq, Repr

def TickSt.init : TickSt :=
  { running := false, nextAt := 0, pendingId := none, outPulses := [], expect := none, seen := [], good := 0, slipRun := 0,
    otherOff := 0, otherRun := 0, everLocked := false }

/-- What a monitor has judged of one event (02 R50, R51): its completion came, it is late, its deadline fault is raised. -/
structure Judge where
  tile : Nat
  mon : Nat
  event : W32
  completed : Bool
  late : Bool
  faulted : Bool
  deriving DecidableEq, Repr

/-- A value that reached an output for an event (02 R53). -/
structure OutVal where
  k : Nat
  o : Nat
  event : W32
  value : W64
  poison : Bool
  fires : List Nat := []
  deriving DecidableEq, Repr

/-- What an output handed off for an event, in which tick (02 R53; 06 R169; 16 R417): `poison` where poison or a fault mark
selected the fallback, `awaits` while a value that comes is to be discarded and counted. -/
structure Emitted where
  k : Nat
  o : Nat
  event : W32
  tick : W32
  value : W64
  fallback : Bool
  gap : Bool
  poison : Bool
  awaits : Bool
  deriving DecidableEq, Repr

/-- The shot clock (02 R44 to R57): the declarations of the committed images with their monitors, judgements and hand-offs of
events still in flight, HOLD_LAST values, the strobe of an escalation, the
escalation window of each output plus 1, and the tiles' stretches and lag in the tick, with the
cycle in which each reached the cap plus 1; `lined` names the outputs and events whose decision bits have entered their line. -/
structure ClockSt where
  outs : List OutDecl
  groups : List (Nat × Nat)
  judges : List Judge
  failed : List (Nat × Nat × W32 × Nat)
  vals : List OutVal
  emitted : List Emitted
  held : List (Nat × Nat × W64)
  escalateAt : Option W32
  winAt : SMap Nat
  lag : SMap Nat
  capAt : SMap Nat
  stretches : List (Nat × Nat × Nat)
  lined : List (Nat × Nat × W32) := []
  deriving DecidableEq, Repr

def ClockSt.init : ClockSt :=
  { outs := [], groups := [], judges := [], failed := [], vals := [], emitted := [], held := [], escalateAt := none, winAt := [],
    lag := [], capAt := [], stretches := [] }

/-- The run of one context slot beside its registers (06 R160 to R170): the image slot that holds it, what TARGET says of it, the
logical cores it is loaded on, the strobes set for it, the events in flight, its gap events, and the abandoned ones; outputs held
in Halted or by a shedding stage (the stage plus 1, 1 Halted, 0 not held); `holds` are the ticks that the Hub arranged to hold (R168). `freedAt` is the number of
the strobe that freed its queues (09 R243); `passEnd` says that a pass of a pass chain ends, `shadow` names the pass loaded ahead into
the slot, and `passStart` the strobe at which a pass starts in it, with the pass (R174). -/
structure CtxRun where
  image : Option Nat
  essential : Bool
  margin : Nat
  chainMask : Nat
  twin : Bool
  cores : List (Nat × Nat)
  drainAt : Option W32
  faultAt : Option W32
  retireAt : Option W32
  freedAt : Option Nat
  unloadAt : Option W32
  timedOut : Bool
  entered : List W32
  gaps : List W32
  abandoned : List W32
  heldOut : Nat
  holds : List W32
  lastHold : Option W32
  passEvents : Nat
  passEnd : Bool
  shadow : Option Nat
  passStart : Option (W32 × Nat) := none
  deriving DecidableEq, Repr

def CtxRun.none' : CtxRun :=
  { image := none, essential := false, margin := 0, chainMask := 0, twin := false, cores := [], drainAt := none,
    faultAt := none, retireAt := none, freedAt := none, unloadAt := none, timedOut := false, entered := [],
    gaps := [], abandoned := [], heldOut := 0, holds := [], lastHold := none, passEvents := 0,
    passEnd := false, shadow := none }

/-- Device states and the states of Table 15.8's derivation (15 R399 to R402). -/
structure DevSt where
  state : DevState
  concentrator : Bool
  partId : Nat
  stepB0 : Bool
  deriving DecidableEq, Repr

/-- An owner-key slot of the Warden (18 R449, R454; 15 R385): its public key, if provisioned, and its replay counter. -/
structure OwnerSlot where
  key : Option (BitVec 768)
  counter : Nat
  deriving DecidableEq, Repr

/-- Where a flit came from: the route whose credit it holds, and the multicast push it belongs to (0 none) (03 R82). -/
structure Src where
  tile : Nat
  core : Nat
  ctx : Nat
  route : Nat
  mid : Nat
  deriving DecidableEq, Repr

/-- A flit with its sideband (03 R76), and the firings that sent what it holds, whose fault may still poison it (R78; 07 R200). -/
structure Flit where
  data : BitVec 256
  tag : W8
  ctx : Nat
  dq : Nat
  off : Nat
  len : Nat
  last : Bool
  poison : Bool
  src : Option Src
  fires : List Nat := []
  /-- The address of the instruction that pushed it, which a fault of its request names (07 R186). -/
  pc : Nat := 0
  deriving DecidableEq, Repr

/-- The sideband of a flit slot of queue RAM (03 R76); the data bits lie in `State.mem`. -/
structure Side where
  tag : W8
  last : Bool
  poison : Bool
  src : Option Src
  fires : List Nat := []
  deriving DecidableEq, Repr

/-- Where a flit in the mesh is bound (03 Table 3.8): a core of a tile by its logical number 16 r + j, a NoP stop, a Store
port, a decision line, or a special-function unit with the call it carries (05 R131). -/
inductive Dest where
  | core (tile lcore : Nat)
  | stop (n : Nat)
  | store (tile port : Nat)
  | decision (tile base : Nat)
  | sfu (tile unit fn pset lcore : Nat)
  deriving DecidableEq, Repr

/-- A class-T read of another part that waits for its Store slot (11 R313): the group it came on, the part, its tag, its address and flits. -/
structure LinkRead where
  group : Nat
  part : Nat
  tag : Nat
  addr : Nat
  flits : Nat
  deriving DecidableEq, Repr

/-- A flit on its way: whether it is an SFU result (05 R137), whether SREQ sent it, which takes no credit (07 R196), and whether it stands for
a read of another part. -/
structure MeshItem where
  flit : Flit
  dest : Dest
  result : Bool
  req : Bool := false
  link : Option LinkRead := none
  deriving DecidableEq, Repr

/-- An accumulator (04 R107, R108): EXACT, XF (sign, exponent, significand), TERMS, the fault mark, the mode of its terms
(0 none, 1 per-tensor float, 2 per-tensor integer, 3 block float, 4 block INT8, 5 block INT4, 6 FN24), the terms that EXACT
holds, the scale exponents of the block that holds its next term, and whether a NaN scale makes that block's partial zero. -/
structure Acc where
  exact : Int
  xneg : Bool
  xexp : Nat
  xsig : Nat
  terms : Nat
  faulted : Bool
  mode : Nat
  inBlk : Nat
  scale : Int
  zeroed : Bool
  /-- One more than the block whose scale it holds, 0 none (04 R106). -/
  blk : Nat := 0
  deriving DecidableEq, Repr

/-- A LOOP in progress: first and last instruction of its body and the passes left (03 R72). -/
structure LoopSt where
  first : Nat
  last : Nat
  left : Nat
  deriving DecidableEq, Repr

/-- A firing that runs on a physical core (03 R77): its first issue cycle and the cycle in which its next instruction may issue (R72),
both FAB cycles since reset; and of the instruction it issues the cycle of its current step and the cycle from which its results
are read (R73). -/
structure Firing where
  tile : Nat
  core : Nat
  ctx : Nat
  pc : Nat
  tag : W8
  poisoned : Bool
  loops : List LoopSt
  start : Nat
  next : Nat
  clk : Nat
  due : Nat
  serial : Nat
  deriving DecidableEq, Repr

/-- What a result that has still its latency to run hides from readers (03 R73): a vector register with its poisoned lanes, an
accumulator by its key, or core-store bytes from an address with their marks. -/
inductive Old where
  | vr (r : Nat) (v : BitVec 512) (p : Nat)
  | acc (key : Nat) (a : Acc)
  | mem (a : Nat) (bytes : List W8) (marks : List Bool)
  deriving DecidableEq, Repr

/-- A result in its latency: the FAB cycle from which an instruction reads it, and what instructions read before. -/
structure Shadow where
  due : Nat
  old : Old
  deriving DecidableEq, Repr

/-- A class-T flit held at a Store port or NoP egress for its slot (07 R194): the arbiter index of the port, its owner id, and the
flit. -/
structure SlotReq where
  port : Nat
  owner : Nat
  item : MeshItem
  deriving DecidableEq, Repr

/-- A call in the buffer of a special-function unit (05 R129, R131). -/
structure SfuCall where
  tile : Nat
  unit : Nat
  ctx : Nat
  lcore : Nat
  fn : Nat
  pset : Nat
  dq : Nat
  tag : W8
  flits : List (BitVec 256)
  poison : Bool
  complete : Bool
  readyAt : Nat
  fires : List Nat := []
  /-- The cycle up to which its waits for reserved windows have been counted (05 R136). -/
  waited : Nat := 0
  deriving DecidableEq, Repr

/-- The result flits of a started call, and the FAB cycle in which the first enters the mesh (05 R133); one that is sent still holds its
output window (R135). -/
structure SfuOut where
  tile : Nat
  unit : Nat
  ctx : Nat
  lcore : Nat
  dq : Nat
  tag : W8
  at' : Nat
  flits : List (BitVec 256)
  poison : Bool
  sent : Bool := false
  fires : List Nat := []
  deriving DecidableEq, Repr

/-- A key-value bank (05 R145): the event tag, the count and the bytes of its key and value regions; whether a call that waits for
an ATTEND to end reading it has been counted. -/
structure KvBank where
  tile : Nat
  unit : Nat
  ctx : Nat
  bank : Nat
  tag : W8
  n : Nat
  bytes : List W8
  poison : Bool
  readUntil : Nat
  loading : Bool
  delayed : Bool := false
  fires : List Nat := []
  deriving DecidableEq, Repr

/-- The cores of the tiles beside their registers and memories (03, 04, 05). Maps are keyed by the physical core
(544 t + c), times what they hold of it. `units` is the FAB cycle from which each unit of a core is free (03 R72), `endAt` that from
which its next firing may be selected (R77). -/
structure AntSt where
  firings : List Firing
  lastSurvey : SMap Nat
  vr : SMap (BitVec 512)
  vrPoison : SMap Nat
  acc : SMap Acc
  shadows : SMap (List Shadow)
  units : SMap Nat
  endAt : SMap Nat
  side : SMap Side
  mesh : List MeshItem
  credits : List Src
  mcast : SMap Nat
  nextMid : Nat
  nextFire : Nat
  trees : List (Nat × Tree)
  requests : List SlotReq
  slots : List (Nat × SlotRes)
  edges : List (Nat × WaitEdge)
  tensors : List (Nat × Nat × Nat × Nat)
  calls : List SfuCall
  sfuOuts : List SfuOut
  engineAt : SMap Nat
  kv : List KvBank
  numWin : SMap Nat
  deriving DecidableEq, Repr

/-- The cores after reset. Accumulators, vector registers and their marks, for which the spec gives no reset value, are zero: nothing is
listed, and what is not listed reads 0 with EXACT, XF, TERMS and FAULTED zero (DESIGN CHOICE, log 7). -/
def AntSt.init : AntSt :=
  { firings := [], lastSurvey := [], vr := [], vrPoison := [], acc := [], shadows := [], units := [], endAt := [], side := [], mesh := [], credits := [], mcast := [],
    nextMid := 1, nextFire := 1, trees := [], requests := [], slots := [], edges := [], tensors := [], calls := [], sfuOuts := [],
    engineAt := [], kv := [], numWin := [] }

/-- The substitution of one row (03 R92 to R94): the position retired or returned, the logical core that moves now, the
phase of its step (0 to copy, 1 waits for its quiet tick, 2 copied, 3 self-test), and the tries made; `back` says that cores move from
the bench, `returning` that RETIRED_POS returns. -/
structure SubstRow where
  tile : Nat
  row : Nat
  pos : Nat
  cur : Nat
  phase : Nat
  quiet : W32
  tries : Nat
  back : Bool
  returning : Bool
  deriving DecidableEq, Repr

/-- Substitution beside its registers: rows that move, fused retirements, and the
TICK_IDs of each core's residue faults and canary failures (03 R90). -/
structure SubstSt where
  rows : List SubstRow
  fused : List (Nat × Nat)
  resWin : SMap (List W32)
  canWin : SMap (List W32)
  deriving DecidableEq, Repr

def SubstSt.init (fused : List (Nat × Nat)) : SubstSt := { rows := [], fused := fused, resWin := [], canWin := [] }

/-- A spilled flit (06 R177): its global queue, the address in the spill area that holds its data bits, and the flit with its
sideband. -/
structure Spilled where
  q : Nat
  addr : Nat
  flit : Flit
  deriving DecidableEq, Repr

/-- Scarab beside its registers (06 R176, R177): the spilled flits, oldest first; the FAB cycle since which a
context has been blocked, by (544 t + c) × 4 + k. -/
structure ScarabSt where
  spilled : List Spilled
  blocked : SMap Nat
  deriving DecidableEq, Repr

def ScarabSt.init : ScarabSt := { spilled := [], blocked := [] }

/-- A waiting or holding request of an arbiter: requester id, length, the cycle of its presentation (07 R206), and the access that its
transfer carries, where it carries one (R209). -/
structure ArbReq where
  id : Nat
  len : Nat
  at' : Nat
  acc : Option ArbAccess
  deriving DecidableEq, Repr

/-- An arbiter beside its registers (07 R206 to R211): who waits, who holds, whether the transfer is protected, the last
requester granted at each level, the successive revocations of each requester, the first cycle of the next decision, and of a read that
holds a Store port or stop the lines: the FAB cycle in which each is served, its address, and once served its bytes and poison (R188). -/
structure ArbSt where
  ix : Nat
  waiting : List ArbReq
  holder : Option ArbReq
  guarded : Bool
  lastAt : SMap Nat
  losses : SMap Nat
  earliest : Nat
  lastCyc : Nat
  lines : List (Nat × Nat × Option (List W8 × Bool)) := []
  deriving DecidableEq, Repr

/-- A pattern request whose flits arrive at a pattern stop (08 R220): its owner, and the flits so far. -/
structure PatReq where
  tile : Nat
  lcore : Nat
  ctx : Nat
  route : Nat
  dq : Nat
  tag : W8
  flits : List (BitVec 256)
  poison : Bool
  fires : List Nat := []
  deriving DecidableEq, Repr

/-- Result flits on their way to a queue, each with its poison mark, and the FAB cycle since reset from which they are written (08 R222). -/
structure PatRes where
  tile : Nat
  lcore : Nat
  ctx : Nat
  dq : Nat
  tag : W8
  flits : List (BitVec 256 × Bool)
  at' : Nat
  deriving DecidableEq, Repr

/-- A Store write whose data flits follow its request flit (07 R187; log 18): who writes, the event tag, the line that comes next
and the byte mask. -/
structure OpenWrite where
  src : Src
  tag : W8
  addr : Nat
  mask : Nat
  deriving DecidableEq, Repr

/-- Memories beside their contents (07, 08): arbiters, corrected errors of the window by kind, the reserved slots opened in this
tick with whether each stood without a request of its owner, Store writes in progress, the reads that arbitrated transfers delivered (requester, address, bytes, poison), pattern requests and results, by image handle the owned slots and
owners of lookup routes, and the statistics of tables. -/
structure MemSt where
  arbs : List ArbSt
  eccWin : List Nat
  opened : List (Nat × Nat × Bool)
  writes : List OpenWrite
  arbReads : List (Nat × Nat × List W8 × Bool)
  patReqs : List PatReq
  patRes : List PatRes
  patSlots : List (Nat × PatSlot)
  patRoutes : List (Nat × Nat × Nat × Nat × Nat × Nat)
  patStats : SMap Nat
  deriving DecidableEq, Repr

def MemSt.init : MemSt :=
  { arbs := [], eccWin := [0, 0, 0, 0], opened := [], writes := [], arbReads := [], patReqs := [], patRes := [], patSlots := [], patRoutes := [],
    patStats := [] }

/-- The staged image (09 R240 to R242): its handle, the offset of its bytes in the loader region, its length, the ranges received,
its structured sections, segment bases, part ids, recorded patch values, whether COMMIT runs, and, once it is written out, its
context slots and the number of the strobe at which VALID is set. Its bytes lie in `State.mem` in the loader region. -/
structure Staged where
  handle : Nat
  base : Nat
  len : Nat
  got : List (Nat × Nat)
  img : Contents
  bases : SMap Nat
  parts : SMap Nat
  patches : List (Nat × W64)
  committing : Bool
  validAt : Option Nat
  deriving DecidableEq, Repr

/-- A committed image (09 R240): what of its staged form stays, and the context slots it holds. -/
structure Image where
  handle : Nat
  base : Nat
  len : Nat
  mask : Nat
  img : Contents
  bases : SMap Nat
  parts : SMap Nat
  patches : List (Nat × W64)
  deriving DecidableEq, Repr

/-- The loader (09): the staged image and the committed ones. -/
structure LoaderSt where
  staged : Option Staged
  images : List Image
  nextHandle : Nat
  deriving DecidableEq, Repr

def LoaderSt.init : LoaderSt := { staged := none, images := [], nextHandle := 1 }

/-- A firmware copy of the boot SPI NOR (18 R450, R452): its GENERATION where it has a commit record, SVN, VERSION, and the
SHA-384 measurement of its bytes 0 to LEN − 1. -/
structure FwCopy where
  gen : Option Nat
  svn : Nat
  version : W32
  meas : BitVec 384
  deriving DecidableEq, Repr

/-- A firmware update in progress (18 R452): its KIND, the copy written (0 A, 1 B), COPY_LEN, the ranges received and the bytes at
their offsets. -/
structure FwUpdate where
  kind : Nat
  copy : Nat
  len : Nat
  got : List (Nat × Nat)
  bytes : List (Nat × W8)
  deriving DecidableEq, Repr

/-- The Warden beside its registers (18, 19): the copies as Warden A, B, Hub A, B; the step of Table 19.1 that comes next (9 none);
whether the first copy of the kind under verification failed; ROM recovery (R451); good REF measurements in a row; the reset source
of R459; the level of RESET_N; the staged update; the JTAG instruction selected and whether a session is open; and the SMBus blocks
returned. -/
structure WardenSt where
  copies : List FwCopy
  bootStep : Nat
  firstFailed : Bool
  romOnly : Bool
  refGood : Nat
  source : Nat
  resetLow : Bool
  update : Option FwUpdate
  jtagIr : Nat
  jtagOpen : Bool
  smbus : List (Nat × Nat × List W8)
  deriving DecidableEq, Repr

/-- The Warden as it stands when a part is delivered and has booted (18 R450; log 25): copies A of both kinds with GENERATION 1, copies
B with GENERATION 0. -/
def WardenSt.init : WardenSt :=
  { copies := (List.range 4).map (fun i => { gen := some (1 - i % 2), svn := 0, version := 0, meas := Config.factoryMeas i }),
    bootStep := 9, firstFailed := false, romOnly := false, refGood := 2, source := 0, resetLow := false, update := none,
    jtagIr := 0, jtagOpen := false, smbus := [] }

/-- A block as a lane holds it (10 R259; 11 R292): control or data, whether its header was invalid, and its descrambled
payload, at its index (2^15 times the SEQ of the last marker plus the blocks since); of a TIME_HDR the time of day, in 2^-32 ns, at
which its first bit came (11 R301). -/
structure Blk where
  ix : Nat
  ctl : Bool
  bad : Bool
  w : W64
  stamp : Nat := 0
  deriving DecidableEq, Repr

/-- A lane beside its registers (10): the descrambler; GOOD, BAD and the window of Table 10.4; whether it hunts after a lock
loss or backs off after a failed attempt; whether LANE_DOWN was raised since it was last Aligned; the ACK owed to the
partner; what IDENT taught; markers; FEC codewords; the blocks held; power returns; the state Hold left; the SEQ of the
markers sent; rate injection since a bit of the line; codeword lock, and the blocks of the last codeword that have not come yet, none where
it could not be corrected (11 R303); the requests made of the partner's FFE; the blocks until Hold (11 R300).

Of the transmitter: whether it is up, as training leaves it; the last 58 bits of its scrambler; BIP8; the number of its next block and of
its last marker; the blocks of a codeword that is not full; the runs of bits that injection flips; whether the TX PLL took it into idle. Of
PRBS: the generator's register and the bit of the line at which it stood; the checker's register, how many bits have come into it, its run of
clean bits, the bits since it was set up, and the errors among the last 1,024. -/
structure LaneSt where
  descram : Nat
  good : Nat
  bad : Nat
  win : Nat
  hunting : Bool
  backoff : Bool
  downTold : Bool
  ackOut : Nat
  identGroup : Nat
  identOk : Bool
  seqSeen : Option Nat
  goodMarkers : Nat
  lost : Bool
  sinceMarker : Nat
  bip : Nat
  fecBlocks : List (Option (Nat × W64))
  fecGood : Nat
  fecFails : Nat
  dropping : Bool
  rx : List Blk
  txReturn : Bool
  rxReturn : Bool
  heldState : Nat
  txSeq : Nat
  injecting : Bool
  injFrom : Nat
  fecLock : Bool
  asked : Nat
  holdIn : Option Nat
  txUp : Bool
  txScr : Nat
  txBip : Nat
  txNext : Nat
  txMark : Option Nat
  txFec : List (Bool × Nat × W64)
  flips : List (Nat × Nat)
  pllIdle : Bool
  prbsReg : Nat
  prbsFrom : Nat
  chkReg : Nat
  chkFill : Nat
  chkRun : Nat
  chkBits : Nat
  chkErrs : List Nat
  deriving DecidableEq, Repr

def LaneSt.init : LaneSt :=
  { descram := 0, good := 0, bad := 0, win := 0, hunting := false, backoff := false, downTold := false, ackOut := 0,
    identGroup := 0, identOk := false, seqSeen := none, goodMarkers := 0, lost := false, sinceMarker := 0, bip := 0,
    fecBlocks := [], fecGood := 0, fecFails := 0, dropping := false, rx := [], txReturn := false, rxReturn := false,
    heldState := 0, txSeq := 0, injecting := false, injFrom := 0, fecLock := false, asked := 0,
    holdIn := none, txUp := false, txScr := 0, txBip := 0, txNext := 0, txMark := none, txFec := [], flips := [], pllIdle := false,
    prbsReg := 0, prbsFrom := 0, chkReg := 0, chkFill := 0, chkRun := 0, chkBits := 0, chkErrs := [] }

/-- A received event frame (11 R296 to R299): header, index of its header block, and, when its trailer has come, the payload
bytes (none: erased), those bytes as they were received, whatever their CRC, and what befell it. -/
structure RxFrame where
  group : Nat
  stream : Nat
  tick : W32
  rows : Nat
  missing : Bool
  gap : Bool
  dec : Bool
  ix : Nat
  closed : Bool
  bytes : List (Option W8)
  raw : List (Option W8)
  rebuilt : Bool
  crcFail : Bool
  deriving DecidableEq, Repr

/-- What befell a stream's event beside its frame (11 Table 11.4): absent, a wrong header, late, filled. -/
structure StreamEv where
  group : Nat
  stream : Nat
  tick : W32
  absent : Bool
  wrong : Bool
  late : Bool
  filled : Bool
  deriving DecidableEq, Repr

/-- A frame handed to a group's transmit path: its header block and its rows as bytes. -/
structure TxFrame where
  group : Nat
  hdr : W64
  payload : List W8
  deriving DecidableEq, Repr

/-- A block that waits for its position on the lanes of a group (11 R293, R304): whether nothing may come between it and the block before it,
its sync header, and the payload of each data lane. -/
structure TxBlk where
  hold : Bool
  sync : Nat
  words : List W64
  deriving DecidableEq, Repr

/-- A class-S frame kept for replay (11 R312): its SEQ, its resends and the FAB cycle it was sent in. -/
structure Kept where
  seq : Nat
  frame : TxFrame
  resends : Nat
  sentAt : Nat
  deriving DecidableEq, Repr

/-- A request to another part that awaits its response (11 R311 to R314): who asks, and for a class-T read the FAB cycle in which its
data are released. An access of more than 64 flits goes out in parts: the tag of the next one, and what the parts before returned (bytes,
poison marks of their flits, whether all reached memory). -/
structure Remote where
  group : Nat
  part : Nat
  tag : Nat
  write : Bool
  len : Nat
  classT : Bool
  releaseAt : Nat
  who : ReqFrom
  answered : Bool
  status : Nat
  data : List (BitVec 256)
  poison : Nat
  next : Option Nat := none
  pre : List W8 := []
  preBad : List Bool := []
  preOk : Bool := true
  deriving DecidableEq, Repr

/-- A lane group beside its registers (11): replay and sequence of class S with the frames that wait for room, whether class S is Down, ACCEPTs and commands
that wait for the return direction, the round trip the image declares, and the time frame last received; the blocks that wait for their
positions, those of class T for the reserved ones, the single FAST blocks, and the TICK block with the position from which it is due; whether a marker waits for an idle block; and
the frames whose blocks are being discarded, by their first index and their last once it has come (10 R277); and how many in-band replies have
gone on it as frames (15 R398). -/
structure GroupSt where
  txSeq : Nat
  rxSeq : Nat
  kept : List Kept
  waits : List TxFrame
  down : Bool
  accepts : List (W32 × Nat)
  declRt : Option Nat
  timeCount : Nat
  timeLast : List W32
  txq : List TxBlk
  txT : List TxBlk
  shorts : List W64
  tickBlk : Option (Nat × W64)
  markDue : Bool
  drops : List (Nat × Option Nat)
  repSent : Nat
  deriving DecidableEq, Repr

def GroupSt.init : GroupSt :=
  { txSeq := 0, rxSeq := 0, kept := [], waits := [], down := false, accepts := [], declRt := none, timeCount := 0, timeLast := [],
    txq := [], txT := [], shorts := [], tickBlk := none, markDue := false, drops := [], repSent := 0 }

/-- The lanes and the link (10, 11): `sent` lists the frames, `blocks` the single blocks that groups and lanes hand to their
pins, `line` the blocks that left with their sync headers, as scrambled and with the bits that injection flipped, by lane, but for idle
blocks that nothing flipped, `codes` in their place the PAM4 levels of codewords that hold such a block, `classT` the groups that carry class-T fields of a context (context, group), `scans` the lanes under LANE_EYE,
`pll` the lock of the Edge dies' TX PLLs. -/
structure LinkSt where
  lanes : SMap LaneSt
  groups : SMap GroupSt
  frames : List RxFrame
  events : List StreamEv
  remotes : List Remote
  nextTag : Nat
  sent : List TxFrame
  blocks : List (Nat × W64)
  line : List (Nat × Nat × W64)
  codes : List (Nat × List Nat)
  classT : List (Nat × Nat)
  scans : List Nat
  pll : List Bool
  deriving DecidableEq, Repr

def LinkSt.init : LinkSt :=
  { lanes := [], groups := [], frames := [], events := [], remotes := [], nextTag := 0, sent := [], blocks := [], line := [], codes := [],
    classT := [], scans := [], pll := [true, true, true, true] }

/-- A PRIM_SET that waits for its strobe (12 R332): strobe, unit, FREEZE, PR_LEVEL and PR_ADAPT. -/
structure PrimSet where
  strobe : W32
  unit : Nat
  freeze : Bool
  level : W32
  adapt : W32
  deriving DecidableEq, Repr

/-- A COND_SET that waits for its strobe: strobe, condition, W − 1, N − 1 and HOLDOFF. -/
structure CondSet where
  strobe : W32
  cond : Nat
  wM1 : Nat
  nM1 : Nat
  holdoff : Nat
  deriving DecidableEq, Repr

/-- A trigger record (12 Table 12.8), with the combiner cycle it was taken in; `num` is fixed when it forms. -/
structure TrigRec where
  cyc : Nat
  num : Option W32
  tick : W32
  mask : Nat
  stamp : Stamp
  primary : Nat
  srcId : Nat
  srcDt : Nat
  gap : Bool
  fallback : Bool
  holdover : Bool
  deriving DecidableEq, Repr

/-- The last pulse of a combiner input: its cycle plus 1 (0 none), and the flags of a decision bit. -/
structure LastPulse where
  cyc : Nat
  gap : Bool
  fallback : Bool
  deriving DecidableEq, Repr

/-- A sample as it entered (12 R317): its event, its index, its code, whether filled, and its SAMPLE cycle since reset. -/
structure Sample where
  event : W32
  j : Nat
  v : W16
  filled : Bool
  cyc : Nat
  deriving DecidableEq, Repr

/-- The trigger front end and the combiner beside their registers (12). SAMPLE cycles count from reset: `entered` is one more
than the last entry of each channel, `decUntil` the cycle at which a driven pin returns, `clickLast` and `condMet` one more than
a cycle. `records` holds the records formed with the tick they formed in. -/
structure FeSt where
  prev : SMap Int
  entered : SMap Nat
  filledEv : SMap Nat
  based : SMap Nat
  primSets : List PrimSet
  clickLast : SMap Nat
  calBusy : Nat
  pulses : List (Nat × Pulse)
  last : SMap LastPulse
  condMet : SMap Nat
  condSets : List CondSet
  trigSets : List (W32 × Bool × Option W32)
  forming : List TrigRec
  records : List (W32 × TrigRec)
  drives : List (Nat × Nat)
  decUntil : SMap Nat
  summaries : List (W32 × W32 × Nat)
  /-- Time of day of the last strobes, in 2^-32 ns. -/
  strobes : List (W32 × Nat)
  deriving DecidableEq, Repr

/-- A segment that a group holds (13 R337 to R342): its group and buffer, T0 as the group's sample count, its event and index,
PRE_EFF, flags and its trigger record. The lines its buffer lost are counted in `AcqGrp.lost`. -/
structure Segment where
  group : Nat
  buf : Nat
  t0 : Nat
  t0Tick : W32
  t0J : Nat
  preEff : Nat
  shortPre : Bool
  filled : Bool
  trig : TrigRec
  deriving DecidableEq, Repr

/-- A line of samples of a group in the staging buffer of its Edge die (13 R336): (channel, sample, buffer, code). -/
structure CapLine where
  group : Nat
  cells : List (Nat × Nat × Nat × W16)
  deriving DecidableEq, Repr

/-- An acquisition group beside its registers (13 R334 to R341). ACQ_ARMs and ACQ_DISARMs wait for their strobes in `arms` and `disarms`;
`armedCyc` is the SAMPLE cycle of the last arm that took effect. Samples are counted from sample 0 of event S; `startAt` is the count at
sample 0 of the last event that entered, `startEvent`. `first` is F, `latest` one more than the last sample, which entered in SAMPLE cycle
`latestCyc`. `lines` holds the samples of lines that are not complete, as (channel, sample, buffer, code); `held` the samples of the last
cycle while the group waits; `lost` counts the lines each buffer lost, and `gone` names those of the current one as (channel, line);
`written` holds the buffers whose segment is written and which are not freed. -/
structure AcqGrp where
  arms : List W32
  disarms : List W32
  disarming : Option W32
  armedCyc : Nat
  startEvent : W32
  startAt : Nat
  first : Nat
  latest : Nat
  latestCyc : Nat
  buf : Nat
  freeBufs : List Nat
  rearm : Nat
  cPrev : Nat
  waitFrom : Option Nat
  waitTo : Option Nat
  seg : Option Segment
  lost : SMap Nat
  gone : List (Nat × Nat)
  filledAt : List Nat
  lines : List (Nat × Nat × Nat × W16)
  held : List (Nat × W16 × Bool)
  trigs : List TrigRec
  written : List Nat
  deriving DecidableEq, Repr

/-- What waits in a readout stream (13 R342): a segment, an item of one flit of a source, or a change or edge record that an item
will carry; with the tick of its first record. -/
inductive Item where
  | segment (s : Segment)
  | flit (src : Nat) (tick : W32) (d : BitVec 256)
  | change (edge : Nat) (tick : W32) (r : W64)
  | edge (src : Nat) (tick : W32) (r : BitVec 120)
  deriving DecidableEq, Repr

/-- The place of a dropped record: its number, tick, SAMPLE cycle within the tick and SAMPLE cycle since reset. -/
structure GapAt where
  num : W32
  tick : W32
  cyc : Nat
  at' : Nat
  deriving DecidableEq, Repr

/-- The gap of a source that drops records (13 R343, 14 R370): the count, and the places of the first and the last. -/
structure Gap where
  dropped : Nat
  first : GapAt
  last : GapAt
  deriving DecidableEq, Repr

/-- A readout stream beside its registers: items that wait, and the FAB cycle since which the first has been held. -/
structure StrSt where
  items : List Item
  heldSince : Option Nat
  deriving DecidableEq, Repr

/-- A change unit beside its registers (13 R344 to R346). -/
structure ChgSt where
  value : Int
  started : Bool
  count : Nat
  lastCyc : Nat
  wasFilled : Bool
  needAnchor : Bool
  due : List Sample
  deriving DecidableEq, Repr

/-- The acquisition engine (13) and the edge records of the Click units (14 R370). `posted` lists the writes to host memory, each with its poison mark (the EP bit)
over PCIe. Gaps are by source: group, 64 + Edge die for change records, 68 + Edge die for edges, 72 for 1PPS_IN. -/
structure AcqSt where
  groups : SMap AcqGrp
  streams : SMap StrSt
  units : SMap ChgSt
  gaps : SMap Gap
  posted : List (Nat × List W8 × Bool)
  staging : List CapLine
  deriving DecidableEq, Repr

/-- The trigger bus (14) beside its registers: whether it calibrates, a master waits for its strobe, or a follower aligns since a
FAB cycle; good and bad slots in a row; the last slot delivered with its SAMPLE cycle; one launch cycle of the grid; WORD bits
set, with the launch cycle of their slot; the launches with the slot sent and the time of day. SAMPLE cycles count from reset. -/
structure BusSt where
  calibrating : Bool
  masterWaits : Bool
  alignFrom : Option Nat
  good : Nat
  bad : Nat
  last : Option (Nat × BusSlot)
  gridAt : Option Nat
  due : List (Nat × Nat)
  launched : List (Nat × BitVec 128 × Nat)
  deriving DecidableEq, Repr

def AcqGrp.init : AcqGrp :=
  { arms := [], disarms := [], disarming := none, armedCyc := 0, startEvent := 0, startAt := 0, first := 0, latest := 0, latestCyc := 0, buf := 0,
    freeBufs := [], rearm := 0, cPrev := 0, waitFrom := none, waitTo := none, seg := none, lost := [], gone := [],
    filledAt := [], lines := [], held := [], trigs := [], written := [] }

def StrSt.init : StrSt := { items := [], heldSince := none }

def ChgSt.init : ChgSt :=
  { value := 0, started := false, count := 0, lastCyc := 0, wasFilled := false, needAnchor := false, due := [] }

def Gap.init : Gap :=
  { dropped := 0, first := ⟨0, 0, 0, 0⟩, last := ⟨0, 0, 0, 0⟩ }

def FeSt.init : FeSt :=
  { prev := [], entered := [], filledEv := [], based := [], primSets := [], clickLast := [], calBusy := 0, pulses := [], last := [], condMet := [],
    condSets := [], trigSets := [], forming := [], records := [], drives := [], decUntil := [], summaries := [],
    strobes := [] }

def AcqSt.init : AcqSt := { groups := [], streams := [], units := [], gaps := [], posted := [], staging := [] }

def BusSt.init : BusSt :=
  { calibrating := false, masterWaits := false, alignFrom := none, good := 0, bad := 0, last := none, gridAt := none, due := [],
    launched := [] }

/-- What a relay primary sends its standby (16 R416): a block of a lane, an accepted Click edge with its capture cycle, or a
received trigger-bus slot. -/
inductive Relayed where
  | block (lane : Nat) (b : Blk)
  | edge (u : Nat) (rising : Bool) (cyc fine : Nat)
  | slot (d : BusSlot)
  deriving DecidableEq, Repr

/-- The own digest of a tick with its EVIDENCE, and ACTIVE as the row sent it. -/
structure OwnDigest where
  tick : W32
  digest : W64
  evidence : W16
  active : Bool
  deriving DecidableEq, Repr

/-- The Umpire beside its registers (16): what was relayed; the digest taps of the images (tile, logical core, context, route) and
the flits they pushed (tick, tap, flit, event, poison); own digests and the partner's frames; missing digests in a row; the strobe of
a release and the FAB cycle until which its pulse holds HANDOVER_OUT high; the tick of the last mismatch; whether twin mode has placed
ACTIVE_N and whether the partner is active; handover strobes passed to the partner; of the attestation whether the exchange runs,
whether it waits for its retry, the nonces sent and what the partner answered; and the pairing record of the Warden. -/
structure TwinSt where
  relayed : List Relayed
  taps : List (Nat × Nat × Nat × Nat)
  tapped : List (W32 × Nat × BitVec 256 × W32 × Bool)
  own : List OwnDigest
  rcvd : List DigestFrame
  missing : Nat
  releaseAt : Option W32
  pulseEnd : Nat
  mismatch : Option W32
  placed : Bool
  partnerActive : Bool
  passed : List W32
  exchange : Bool
  retry : Bool
  nonces : Nat
  partner : Option (BitVec 384 × BitVec 384 × BitVec 384)
  record : Option (BitVec 384)
  deriving DecidableEq, Repr

def TwinSt.init (record : Option (BitVec 384)) : TwinSt :=
  { relayed := [], taps := [], tapped := [], own := [], rcvd := [], missing := 0, releaseAt := none, pulseEnd := 0, mismatch := none,
    placed := false, partnerActive := false, passed := [], exchange := false, retry := false, nonces := 0, partner := none,
    record := record }

/-- The power manager beside its registers (17): the HBM stacks in self-refresh, bit h for stack h; the feed samples taken; by stage
the samples in a row with V_BUS below its threshold and the sample plus 1 since which V_BUS is at or above its restore level; by feed
(0 FEED_A, 1 FEED_B) the samples in a row below 42.0 V and above 27.0 A, the last sample with a fault condition plus 1; the sample
plus 1 since which FEED_A reads 44.0 V; whether FEED_LOST was raised for this sag and for this fault; the sample of the last stage that came into
force or was restored; the strobe of a stage S4 or S5, and whether the rewrite after S5 runs; the lanes S3 turned Off;
and the pins ALERT_N and PGOOD as levels. -/
structure PwrSt where
  asleep : Nat
  samples : Nat
  lowRun : SMap Nat
  okFrom : SMap Nat
  feedLow : SMap Nat
  feedOver : SMap Nat
  badAt : SMap Nat
  goodFrom : Nat
  lostSag : Bool
  lostFault : Bool
  dwellFrom : Nat
  strongAt : Option W32
  rewriting : Bool
  offLanes : List Nat
  alertN : Bool
  pgood : Bool
  deriving DecidableEq, Repr

def PwrSt.init : PwrSt :=
  { asleep := 0, samples := 0, lowRun := [], okFrom := [], feedLow := [], feedOver := [], badAt := [], goodFrom := 0,
    lostSag := false, lostFault := false, dwellFrom := 0, strongAt := none, rewriting := false, offLanes := [],
    alertN := true, pgood := true }


/-- The machine (INVENTORY.md, State). -/
structure State where
  /-- The commands that wait, first in, first out. -/
  pending : List Instr
  /-- Every register of the register maps by its address (RegMap); an unlisted one reads its reset value. -/
  regs : SMap W32
  /-- Every addressed memory: core stores, instruction and queue RAM, Store, pattern entries, HBM. Unlisted bytes read 0. -/
  mem : List Host.Cell
  /-- The granules whose data are poisoned (07 R199), by the address of their first byte, rising. -/
  poison : List Nat
  dev : DevSt
  host : HostIf
  windows : List RepWin
  log : List LogEntry
  owners : List OwnerSlot
  /-- The faults raised, by code and tick of their event, as EVIDENCE needs them (16 R420). -/
  evidence : List (Nat × W32)
  tod : TimeSt
  tick : TickSt
  clk : ClockSt
  ctx : List CtxRun
  ant : AntSt
  subst : SubstSt
  scarab : ScarabSt
  banks : MemSt
  link : LinkSt
  fe : FeSt
  acq : AcqSt
  bus : BusSt
  twin : TwinSt
  pwr : PwrSt
  loader : LoaderSt
  warden : WardenSt
  /-- The count of free values drawn: the model's own field (log 13). -/
  free : Nat
  deriving DecidableEq, Repr

/-- What an unlisted byte of memory reads as (07 R462 step 7; log 6). -/
def Memory.unlisted : W8 := 0

/-- The canonical form of the memory: addresses rising, no entry equal to what an unlisted address reads as. -/
def Memory.wf (m : List Host.Cell) : Bool := SMap.wf (fun _ => Memory.unlisted) m

/-- The canonical form of the registers. -/
def Registers.wf (m : SMap W32) : Bool := SMap.wf regReset m

/-- DETAIL of a boot entry (18 R459): firmware KIND, copy, GENERATION, SVN and reset source. -/
def bootDetail (kind copy gen svn source : Nat) : Nat :=
  kind + copy * 2 ^ 16 + gen * 2 ^ 24 + svn * 2 ^ 56 + source * 2 ^ 64

def bootEntry (seq kind copy gen svn source : Nat) : LogEntry :=
  { seq := seq, code := 0, kind := 4, die := 0x25, tick := 0, sec := 0, ns := 0, detail := bootDetail kind copy gen svn source, chain := 0 }

/-- The machine right after a power-on has reached Idle (19 R464, R469): the registers as their Reset columns, but for the pairing
record of R426 (ACTIVE), the locked TIME PLL and the two boot entries of the log. What the fuses and the non-volatile memory of the
Warden hold is log 25. -/
def State.reset : State :=
  let e1 := (bootEntry 1 1 0 1 0 0).link 0
  let e2 := (bootEntry 2 2 0 1 0 0).link e1.chain
  { pending := [], regs := [(Reg.timeStat, 0xA0000000), (Reg.twinStat, 0x10000000), (Reg.logSeq, 2)], mem := [], poison := []
    dev := { state := .idle, concentrator := false, partId := 0, stepB0 := false }
    host := HostIf.init, windows := [], log := [e1, e2], owners := List.replicate 4 { key := none, counter := 0 }, evidence := []
    tod := TimeSt.init, tick := { TickSt.init with running := true, nextAt := 1, pendingId := some 0 }
    clk := ClockSt.init, ctx := List.replicate 4 CtxRun.none', ant := AntSt.init, subst := SubstSt.init [], scarab := ScarabSt.init
    banks := MemSt.init, link := LinkSt.init, fe := FeSt.init, acq := AcqSt.init, bus := BusSt.init, twin := TwinSt.init none
    pwr := PwrSt.init, loader := LoaderSt.init, warden := WardenSt.init, free := 0 }

end Sys2Proof.Machine
end

