-- ==== Sys2Proof/Machine/Ops.lean ====
section
/-! DEFINITION. The named operations over the state: registers, memory and poison, the end of a step, time, interrupts,
replies and the completion of asynchronous commands. Every read and write of a register or of memory goes through them. -/

namespace Sys2Proof.Machine

/-- The entries of a sparse map in canonical form: the first entry of a key wins. -/
def SMap.canon {V : Type} [DecidableEq V] (d : Nat → V) : SMap V → SMap V
  | [] => []
  | (k, v) :: r => SMap.set (d k) (SMap.canon d r) k v

/-- The canonical form, computed only where it is needed. -/
def SMap.norm {V : Type} [DecidableEq V] (d : Nat → V) (m : SMap V) : SMap V :=
  if SMap.wf d m then m else SMap.canon d m

/-- The word a register holds. -/
def State.rd (s : State) (a : Nat) : W32 := SMap.get (regReset a) s.regs a

/-- Sets a register. -/
def State.wr (s : State) (a : Nat) (v : W32) : State := { s with regs := SMap.set (regReset a) s.regs a v }

/-- A field of a register. -/
def State.rdF (s : State) (a lo n : Nat) : Nat := fld (s.rd a) lo n

/-- Sets a field of a register. -/
def State.wrF (s : State) (a lo n v : Nat) : State := s.wr a (setFld (s.rd a) lo n v)

/-- Sets registers in order. -/
def State.wrs (s : State) (l : List (Nat × W32)) : State := l.foldl (fun t e => t.wr e.1 e.2) s

/-- Adds one to a saturating 32-bit count. -/
def State.bump (s : State) (a : Nat) : State := s.wr a (satInc (s.rd a))

/-- Adds to a saturating 32-bit count. -/
def State.bumpBy (s : State) (a n : Nat) : State := s.wr a (BitVec.ofNat 32 (satAdd 32 (s.rd a).toNat n))

/-- Adds to a wrapping 32-bit count. -/
def State.wrapBy (s : State) (a n : Nat) : State := s.wr a (s.rd a + BitVec.ofNat 32 n)

/-- Adds to a saturating count field. -/
def State.bumpF (s : State) (a lo n by' : Nat) : State := s.wrF a lo n (satAdd n (s.rdF a lo n) by')

/-- The byte of memory at a device address. -/
def State.rdB (s : State) (a : Nat) : W8 := SMap.get Memory.unlisted s.mem a

/-- Writes a byte of memory. -/
def State.wrB (s : State) (a : Nat) (b : W8) : State := { s with mem := SMap.set Memory.unlisted s.mem a b }

/-- `n` bytes from an address. -/
def State.rdBytes (s : State) (a n : Nat) : List W8 := (List.range n).map (fun i => s.rdB (a + i))

/-- Writes bytes from an address on. -/
def State.wrBytes (s : State) (a : Nat) : List W8 → State
  | [] => s
  | b :: r => (s.wrB a b).wrBytes (a + 1) r

/-- Writes bytes at listed addresses. -/
def State.wrCells (s : State) (l : List (Nat × W8)) : State := l.foldl (fun t e => t.wrB e.1 e.2) s

/-- A little-endian number of `n` bytes (00 R7). -/
def State.rdLE (s : State) (a n : Nat) : Nat := ofBytesLE (s.rdBytes a n)

def State.wrLE (s : State) (a n v : Nat) : State := s.wrBytes a (bytesLE n v)

/-- Clears every byte of a range (18 R452, 19 R462, 09 R243). -/
def State.zero (s : State) (a n : Nat) : State :=
  { s with mem := s.mem.filter (fun e => decide (e.1 < a ∨ a + n ≤ e.1)) }

/-- The granule of a poison mark at an address: a 64-bit word of a core's memories, a 32-byte line elsewhere (07 R199). -/
def granule (a : Nat) : Nat := if a < 0x100000000 then a - a % 8 else a - a % 32

def State.isPoisonAt (s : State) (a : Nat) : Bool := s.poison.elem (granule a)

/-- Whether any of `n` bytes from `a` is poisoned. -/
def State.isPoison (s : State) (a n : Nat) : Bool := (List.range n).any (fun i => s.isPoisonAt (a + i))

/-- Inserts into a rising list without repeats. -/
def insertNat (k : Nat) : List Nat → List Nat
  | [] => [k]
  | x :: r => if k < x then k :: x :: r else if k = x then x :: r else x :: insertNat k r

/-- Marks what a write of bytes leaves (07 R199, R200): a granule that a marked byte enters is poisoned, one written whole with clean
bytes is clean, and one written in part keeps the mark it had. -/
def State.markBytes (s : State) (a : Nat) (marks : List Bool) : State :=
  let n := marks.length
  let whole := fun (g : Nat) => decide (a ≤ g ∧ g + (if g < 0x100000000 then 8 else 32) ≤ a + n)
  let hit := ((List.range n).filter (fun i => marks.getD i false)).map (fun i => granule (a + i))
  { s with poison := hit.foldl (fun l g => insertNat g l) (s.poison.filter (fun g => !whole g)) }

/-- Whether cells cover every byte of a granule. -/
def coverWhole (l : List (Nat × W8)) (g : Nat) : Bool :=
  (List.range (if g < 0x100000000 then 8 else 32)).all (fun i => l.any (fun (e : Nat × W8) => e.1 == g + i))

/-- Writes clean cells: a granule whose every byte is among them becomes clean (07 R199). -/
def State.putCells (s : State) (l : List (Nat × W8)) : State :=
  let t := s.wrCells l
  { t with poison := t.poison.filter (fun g => !coverWhole l g) }

/-- Marks the granules of a range poisoned or clean. -/
def State.setPoison (s : State) (a n : Nat) (p : Bool) : State :=
  let gs := ((List.range n).map (fun i => granule (a + i))).eraseDups
  { s with poison := if p then gs.foldl (fun l g => insertNat g l) s.poison
                     else s.poison.filter (fun g => !gs.elem g) }

/-- SIG_ID, a fuse of the stepping (02 R63). -/
def State.sigId (s : State) : Nat := if s.dev.stepB0 then 0x000200B0 else 0x000100A1

/-- Sets an interrupt bit; a message of its vector goes out when the bit was clear and is enabled (15 R394). -/
def State.irq (s : State) (n : Nat) : State :=
  let st := s.rd Reg.irqStatus
  if bit st n then s
  else
    let s := s.wr Reg.irqStatus (setBit st n true)
    if bit (s.rd Reg.irqEn) n then { s with host.msi := s.host.msi.set n ((s.host.msi.getD n 0) + 1) } else s

def irqReply : Nat := 0
def irqFault : Nat := 1
def irqState : Nat := 2
def irqStream : Nat := 3

/-- Whether the Hub runs: any state but Off, Boot and Safe. -/
def State.hubOn (s : State) : Bool :=
  match s.dev.state with
  | .off | .boot | .safe => false
  | _ => true

/-- The shedding stage WA_STATE shows: the SHED field of PWR_STAT (17 Table 17.3). -/
def State.shedStage (s : State) : Nat := s.rdF Reg.pwrStat 24 3

/-- The end of a step: the maps return to their canonical form, the queue is as the step left it to the command, and a
change of STATE or SHED sets IRQ_STATUS.STATE while the endpoint is up (15 R390, R394). -/
def State.seal (s t : State) : State :=
  let t := if !s.hubOn || !t.hubOn || (t.dev.state = s.dev.state ∧ t.shedStage = s.shedStage) then t else t.irq irqState
  { t with regs := SMap.norm regReset t.regs, mem := SMap.norm (fun _ => Memory.unlisted) t.mem, pending := s.pending }

/-- The answer of a meaning: the next state. -/
def State.done (s t : State) : Host.Outcome State Fault Refusal := .next (s.seal t)

/-- The answer of a meaning that names units: a fault where one does not exist (log 2). -/
def State.onUnit (s : State) (ok : Bool) (t : State) : Host.Outcome State Fault Refusal :=
  if ok then s.done t else .fault .illFormed

/-- The current TICK_ID (02 R43). -/
def State.tickId (s : State) : W32 := s.rd Reg.tickId

/-- C_tick in FAB cycles (02 R36). -/
def State.cTick (s : State) : Nat := s.rdF Reg.tickCfg 0 16

/-- A tick some ticks after the current one. -/
def State.tickPlus (s : State) (n : Nat) : W32 := s.tickId + BitVec.ofNat 32 n

/-- Whether the strobe `t` has come (TICK_ID is at or after it in the signed sense of 08 R227). -/
def State.due (s : State) (t : Option W32) : Bool :=
  match t with
  | some d => tickReached s.tickId d
  | none => false

/-- What the front end keeps by TICK_ID ends with the count that a new one replaces (02 R37; 14 R361). -/
def State.newCount (s : State) : State := { s with fe.strobes := [], fe.summaries := [], fe.records := [] }

/-- The rate of the time of day: INC in 2^-32 ns per TIME cycle (14 R366). -/
def State.inc (s : State) : Nat := s.rdF Reg.timeIncHi 0 8 * 2 ^ 32 + (s.rd Reg.timeIncLo).toNat

/-- The time of day as one number of 2^-32 ns. -/
def todOf (sec ns frac : Nat) : Nat := (sec * 1000000000 + ns) * 2 ^ 32 + frac

/-- Sets the time of day from a number of 2^-32 ns; SEC wraps at 2^48 (14 R366). -/
def State.setTod (s : State) (x : Nat) : State :=
  let whole := x / 2 ^ 32
  { s with tod.frac := x % 2 ^ 32, tod.ns := whole % 1000000000, tod.sec := (whole / 1000000000) % 2 ^ 48 }

/-- The INC of the present TIME cycle (14 R367). -/
def State.incNow (s : State) : Nat := s.tod.incOld.getD s.inc

/-- What `x` 4,096ths of a TIME cycle from the last TIME edge on add to the counter: the present cycle at its own INC. -/
def State.advance (s : State) (x : Nat) : Nat := min x 4096 * s.incNow / 4096 + (x - 4096) * s.inc / 4096

/-- Lets FAB cycles pass: TIME runs 5 cycles in 16 FAB cycles and adds INC in each (14 R366, log 8). -/
def State.elapse (s : State) (n : Nat) : State :=
  let ph := s.tod.sixteenths + 5 * n
  let s := s.setTod (todOf s.tod.sec s.tod.ns s.tod.frac + s.advance (4096 * (ph / 16)))
  { s with tod.fab := s.tod.fab + n, tod.sixteenths := ph % 16, tod.incOld := if ph < 16 then s.tod.incOld else none }

/-- Lets time pass to FAB cycle `c` of the current tick, if that lies ahead. -/
def State.atCycle (s : State) (c : Nat) : State := s.elapse (s.tod.tickFab + c - s.tod.fab)

/-- The FAB cycle within the tick that time has reached. -/
def State.cycleNow (s : State) : Nat := s.tod.fab - s.tod.tickFab

/-- Lets time pass to a FAB cycle since reset, if that lies ahead. -/
def State.atFab (s : State) (f : Nat) : State := s.elapse (f - s.tod.fab)

/-- Whether a FAB cycle since reset comes before the next strobe. -/
def State.reach (s : State) (f : Nat) : Bool := decide (f < s.tick.nextAt)

/-- The SAMPLE cycle since reset, two FAB cycles each (02 R36). -/
def State.sampleNow (s : State) : Nat := s.tod.fab / 2

/-- The SAMPLE cycle within the current tick of a SAMPLE cycle since reset. -/
def State.inTickCyc (s : State) (c : Nat) : Nat := c - s.tod.tickFab / 2

/-- The time of day, in 2^-32 ns, of the instant `x` 4,096ths of a TIME cycle after the FAB cycle reached: the counter at the
preceding TIME edge and the offset times INC, truncated to 2^-24 ns (14 R369). -/
def State.todIn (s : State) (x : Nat) : Nat :=
  let t := todOf s.tod.sec s.tod.ns s.tod.frac + s.advance (256 * s.tod.sixteenths + x)
  t - t % 256

/-- The counter as a number of 2^-32 ns. -/
def State.now (s : State) : Nat := todOf s.tod.sec s.tod.ns s.tod.frac

/-- A time of day in 2^-32 ns as a stamp, its fraction in 2^-24 ns. -/
def stampOf (x : Nat) : Stamp :=
  ⟨x / 2 ^ 32 / 1000000000 % 2 ^ 48, x / 2 ^ 32 % 1000000000, x % 2 ^ 32 / 256⟩

/-- Whether stamps carry HOLDOVER: in holdover, or while the TIME PLL is out of lock (14 R368, R369). -/
def State.holdover (s : State) : Bool := bit (s.rd Reg.timeStat) 31 || !bit (s.rd Reg.timeStat) 29

/-- The state code of a context slot (06 Table 6.1). -/
def State.ctxState (s : State) (k : Nat) : Nat := s.rdF (Reg.ctxrState k) 29 3

def State.setCtxState (s : State) (k v : Nat) : State := s.wrF (Reg.ctxrState k) 29 3 v

def State.ctxTimed (s : State) (k : Nat) : Bool := bit (s.rd (Reg.ctxrState k)) 28

def State.ctxTLast (s : State) (k : Nat) : Nat := s.rdF (Reg.ctxrState k) 16 8

namespace Ctx
def empty : Nat := 0
def loaded : Nat := 1
def armed : Nat := 2
def running : Nat := 3
def draining : Nat := 4
def faulted : Nat := 5
def retired : Nat := 6
end Ctx

/-- The run of a context slot. -/
def State.cx (s : State) (k : Nat) : CtxRun := s.ctx.getD k CtxRun.none'

def State.setCx (s : State) (k : Nat) (c : CtxRun) : State := { s with ctx := s.ctx.set k c }

/-- Changes the run of every context slot of a list. -/
def State.mapCx (s : State) (ks : List Nat) (f : CtxRun → CtxRun) : State :=
  ks.foldl (fun t k => t.setCx k (f (t.cx k))) s

/-- Every context slot named by a mask and the rest of its section chain (06 R164). -/
def State.chainOf (s : State) (mask : Nat) : List Nat :=
  (List.range 4).filter (fun k => (List.range 4).any (fun j => nbit mask j &&
    (k == j || nbit (s.cx j).chainMask k)))

/-- Whether some context slot is in one of the states and satisfies a condition. -/
def anyCtx (p : Nat → Bool) : Bool := (List.range 4).any p

/-- Whether a Timed context is Armed, Running or Draining (02 R40). -/
def State.timedActive (s : State) : Bool :=
  anyCtx (fun k => s.ctxTimed k && (s.ctxState k == Ctx.armed || s.ctxState k == Ctx.running || s.ctxState k == Ctx.draining))

/-- The device state that Table 15.8 derives from the context states (15 R400); Retired counts as Loaded. -/
def State.derived (s : State) : DevState :=
  let st := fun c => anyCtx (fun k => s.ctxState k == c)
  if st Ctx.running || st Ctx.faulted then .running
  else if st Ctx.draining then .draining
  else if st Ctx.armed then .armed
  else if st Ctx.loaded || st Ctx.retired then .loaded
  else .idle

/-- The derivation of R400 at a strobe; Halted, Safe and Boot override it. -/
def State.derive (s : State) : State :=
  match s.dev.state with
  | .off | .boot | .safe | .halted => s
  | _ => { s with dev.state := s.derived }

/-- Where a packet of `n` units goes in a ring of `size` units whose writer leaves one unit free: the next TAIL, or none
where it lacks room (15 R391). A packet never crosses the end. -/
def ringPlace (size head tail n : Nat) : Option Nat :=
  let used := (tail + size - head) % size
  let pad := if size < tail + n then size - tail else 0
  if used + pad + n + 1 ≤ size then some ((tail + pad + n) % size) else none

/-- The bytes of a reply: a five-word header and its payload (15 R381). -/
def Reply.bytes (r : Reply) : Nat := 20 + 4 * r.payload.length

/-- The words of a reply without its CRC word (15 Table 15.2). -/
def Reply.head (r : Reply) : List W32 :=
  [ BitVec.ofNat 32 (r.tag * 65536 + r.opcode),
    BitVec.ofNat 32 ((if r.completion then 2 ^ 31 else 0) + (if r.forwarded then 2 ^ 30 else 0) + r.state * 65536 + r.status),
    BitVec.ofNat 32 (r.payload.length * 65536),
    BitVec.ofNat 32 r.timeNs ]

/-- The words of a reply as sent, with the CRC of R378 (taken with its word zero). -/
def Reply.words (r : Reply) : List W32 :=
  let crc := crc32 ((r.head ++ [(0 : W32)] ++ r.payload).flatMap (fun (w : W32) => bytesLE 4 w.toNat))
  r.head ++ [crc] ++ r.payload

/-- Writes a reply to the PCIe reply ring where it has room; otherwise it is held, in order (15 R391, R392). -/
def State.toRing (s : State) (r : Reply) : State :=
  let size := 2 ^ (s.rdF Reg.rplCfg 0 5) / 16
  let room := ringPlace size (s.rdF Reg.rplHead 4 20) (s.rdF Reg.rplTail 4 20) (ceilDiv r.bytes 16)
  match bit (s.rd Reg.rplCfg) 31, s.host.held.isEmpty, room with
  | true, true, some t =>
    ({ s with host.replies := s.host.replies ++ [r] }.wrF Reg.rplTail 4 20 t).irq irqReply
  | _, _, _ => { s with host.held := s.host.held ++ [r] }

/-- Sends a reply on its transport (15 R381, R397, R398). -/
def State.send (s : State) (r : Reply) : State :=
  match r.transport with
  | .pcie => s.toRing r
  | .spi => { s with host.spiReplies := s.host.spiReplies ++ [r] }
  | .inband g src => { s with host.inbandReplies := s.host.inbandReplies ++ [(g, src, r)] }

/-- Releases held replies as far as the ring has room (15 R392). -/
def State.releaseHeld (s : State) : Nat → State
  | 0 => s
  | n + 1 =>
    match s.host.held with
    | [] => s
    | r :: rest =>
      let t := { s with host.held := [] }.toRing r
      if t.host.held.isEmpty then { t with host.held := rest }.releaseHeld n else s

/-- Replies to a command. -/
def State.reply (s : State) (tr : Transport) (tag op : Nat) (completion : Bool) (status : Nat) (payload : List W32) : State :=
  s.send { transport := tr, tag := tag, opcode := op, completion := completion, forwarded := false,
           state := s.dev.state.code, status := status, payload := payload, timeNs := s.tod.ns }

/-- Ends the outstanding asynchronous commands that satisfy a condition, each with one completion (15 R386). -/
def State.complete (s : State) (p : Async → Bool) (status : Nat) (payload : List W32) : State :=
  let ds := s.host.async.filter p
  ds.foldl (fun t a => t.reply a.transport a.tag a.opcode true status payload)
    { s with host.async := s.host.async.filter (fun a => !p a) }

/-- A bit list as a word: bit `i` is `p i`. -/
def wordOf (n : Nat) (p : Nat → Bool) : W32 :=
  BitVec.ofNat 32 ((List.range n).foldl (fun w i => w + (if p i then 2 ^ i else 0)) 0)

/-- The n-bit number whose bit `i` is `p i`. -/
def natOf (n : Nat) (p : Nat → Bool) : Nat := (List.range n).foldl (fun w i => w + (if p i then 2 ^ i else 0)) 0

/-- A free value: a constant of Config applied to a counter that the step reads and advances (log 13). -/
def State.fresh (s : State) : W32 × State := (Config.freeWord s.free, { s with free := s.free + 1 })

/-- Whether an address lies in the Hub's loader region of HBM stack H7 (09 R240). -/
def inLoader (a : Nat) : Bool := decide (0x14600000000 ≤ a ∧ a < 0x14800000000)

/-- The address of an image byte in the loader region (09 R240). -/
def imgAddr (base off : Nat) : Nat := 0x14600000000 + base + off

end Sys2Proof.Machine
end

