-- ==== Sys2Proof/Machine/Flags.lean ====
section
/-! DEFINITION. Fault codes, records, counters and the event log (21 R487 to R494; 15 R393; 18 R459): the one operation
by which the block raises a code. -/

namespace Sys2Proof.Machine

namespace Code
def residueMismatch := 0x1001
def scaleNan := 0x1002
def elemNonfinite := 0x1003
def accTerms := 0x1004
def sfuDesc := 0x1010
def sfuSetOver := 0x1011
def coreRetired := 0x1101
def substExhausted := 0x1102
def coreReturned := 0x1103
def substAbort := 0x1104
def coreUncorr := 0x2001
def storeUncorr := 0x2002
def hbmUncorr := 0x2003
def patternUncorr := 0x2004
def poisonConsumed := 0x2005
def eccCorrected := 0x2010
def coreBounds := 0x2101
def chunkOverlap := 0x2102
def addrFault := 0x2201
def deadlineLate := 0x3001
def deadlineMissing := 0x3002
def tickInLost := 0x3003
def tickInPhase := 0x3004
def droopCap := 0x3005
def fallbackEscalated := 0x3006
def tagSkew := 0x3010
def surveyOverrun := 0x3011
def sfuResultDrop := 0x3012
def ctxTagMismatch := 0x3013
def staleFlit := 0x3014
def scarabTimed := 0x3015
def scarabStarved := 0x3016
def scarabSpillFull := 0x3017
def drainTimeout := 0x3018
def scarabSpill := 0x3019
def slotCollision := 0x301A
def slotMissed := 0x301B
def patTruncated := 0x3020
def laneLockLoss := 0x4001
def laneDown := 0x4002
def laneSkew := 0x4003
def laneDrift := 0x4004
def laneMarker := 0x4005
def laneOverrun := 0x4006
def laneMiswired := 0x4007
def groupDegraded := 0x4008
def groupDown := 0x4009
def laneReentered := 0x400A
def txPllUnlock := 0x400B
def fecUncorr := 0x400C
def frameCrc := 0x4010
def frameTick := 0x4011
def frameAbsent := 0x4012
def frameLate := 0x4013
def fcDrop := 0x4014
def remoteRt := 0x4015
def remoteUnreachable := 0x4016
def meshTtl := 0x4017
def linkReplay := 0x4018
def clickCalFail := 0x5001
def clickDrop := 0x5002
def feSkip := 0x5003
def acqDead := 0x5010
def acqGap := 0x5011
def acqHole := 0x5012
def busSyncLoss := 0x5020
def busCalFail := 0x5021
def busLost := 0x5022
def tsGap := 0x5023
def timeStepped := 0x5030
def timeHoldover := 0x5031
def timePllRelock := 0x5032
def feedSwitch := 0x6001
def feedReturn := 0x6002
def feedFault := 0x6003
def feedLost := 0x6004
def shedEnter := 0x6010
def shedRestore := 0x6011
def shedS6 := 0x6012
def coolantRange := 0x6020
def avsLimit := 0x6030
def clockUnlock := 0x6040
def twinMismatch := 0x7001
def twinTakeover := 0x7002
def twinSilent := 0x7003
def twinLinkDown := 0x7004
def twinPartnerUnknown := 0x7005
def twinAttestFail := 0x7006
def twinBothFaulted := 0x7007
def twinTickSkew := 0x7008
def fwVerifyFail := 0x8001
def fwFallback := 0x8002
def fuseFail := 0x8003
def ownerKeyChanged := 0x8004
def debugLockSet := 0x8005
def sigReject := 0x8006
def hubWatchdog := 0x8007
end Code

/-- Whether a code is a report (kind R of Table 21.2). -/
def isReport (c : Nat) : Bool :=
  [0x1101, 0x1103, 0x2010, 0x3019, 0x3020, 0x400A, 0x5002, 0x5003, 0x5010, 0x5011, 0x5023, 0x5030, 0x5031, 0x6001, 0x6002,
   0x6011, 0x6020, 0x7002, 0x8002, 0x8004, 0x8005].elem c

/-- Whether a code is a loader record (21 R489: no rate limit). -/
def isLoader (c : Nat) : Bool := decide (0x9001 ≤ c ∧ c ≤ 0x900E)

/-- Whether the event log receives a code (21 R491). -/
def isLogged (c : Nat) : Bool :=
  decide (0x6000 ≤ c ∧ c < 0x9000) || isLoader c ||
  [Code.fallbackEscalated, Code.coreRetired, Code.substExhausted, Code.tickInLost, Code.timeStepped, Code.timePllRelock].elem c

namespace Die
def edge (e : Nat) := 0x10 + e
def store (k : Nat) := 0x14 + k
def pattern (k : Nat) := 0x18 + k
def hbm (k : Nat) := 0x1C + k
def hub := 0x24
def warden := 0x25
def noc (k : Nat) := 0x26 + k
def none := 0xFF
end Die

/-- Where a code is raised: die, unit, context and SUB of its record, and the unit its rate limit keeps apart beside
(DIE, UNIT), which is the monitor of 02 R51 and 0 elsewhere. -/
structure Loc where
  die : Nat
  unit : Nat := 0
  ctx : Nat := 0
  sub : Nat := 0
  mon : Nat := 0
  deriving DecidableEq, Repr

/-- The fault ring in records of 32 bytes (15 R393). -/
def State.fltSize (s : State) : Nat := 2 ^ (s.rdF Reg.fltCfg 0 5) / 32

/-- The free record places of the fault ring. -/
def State.fltRoom (s : State) : Nat :=
  let size := s.fltSize
  size - 1 - (s.rdF Reg.fltTail 5 19 + size - s.rdF Reg.fltHead 5 19) % size

/-- Places records in the ring: TAIL moves, FAULT interrupts, and a fault record of class c sets FAULT_SUMMARY bit c. -/
def State.fltPut (s : State) (rs : List FaultRec) : State :=
  let size := s.fltSize
  let s := { s with host.faultRing := s.host.faultRing ++ rs }
  let s := s.wrF Reg.fltTail 5 19 ((s.rdF Reg.fltTail 5 19 + rs.length) % size)
  let s := rs.foldl (fun t r => if r.kind = 0 ∨ r.kind = 2 ∨ r.kind = 3 then
      t.wr Reg.faultSummary (setBit (t.rd Reg.faultSummary) (r.code / 4096) true) else t) s
  s.irq irqFault

/-- The ring-gap record (15 R393, KIND 5). -/
def State.gapRec (s : State) : FaultRec :=
  { code := 0, kind := 5, die := Die.hub, unit := 0, ctx := 0, sub := 0, tick := s.tickId, ns := s.tod.ns,
    sec := s.tod.sec % 2 ^ 32,
    detail := s.host.gapCount + s.host.gapFirst.toNat * 2 ^ 32 + s.host.gapLast.toNat * 2 ^ 64 }

/-- Writes a record to the host fault ring (15 R393): dropped and counted where it finds no room, and led by a ring-gap
record after drops. There is no fault ring in Boot and Safe, nor before the host enables it (21 R491). -/
def State.record (s : State) (r : FaultRec) : State :=
  if !s.hubOn || !bit (s.rd Reg.fltCfg) 31 then s
  else if s.host.gapCount = 0 then
    if 1 ≤ s.fltRoom then s.fltPut [r]
    else { (s.bump Reg.fltDrops) with host.gapCount := 1, host.gapFirst := r.tick, host.gapLast := r.tick }
  else if 2 ≤ s.fltRoom then { (s.fltPut [s.gapRec, r]) with host.gapCount := 0 }
  else { (s.bump Reg.fltDrops) with host.gapCount := s.host.gapCount + 1, host.gapLast := r.tick }

/-- Appends an event-log entry: SEQ rises by 1, the chain takes the previous entry's, the oldest of 4,096 is overwritten
(18 R459). -/
def State.logPut (s : State) (code kind die : Nat) (tick : W32) (detail : Nat) : State :=
  let seq := (s.rd Reg.logSeq).toNat + 1
  let e : LogEntry := { seq := seq % 2 ^ 32, code := code, kind := kind, die := die, tick := tick, sec := s.tod.sec,
                        ns := s.tod.ns, detail := detail, chain := 0 }
  let prev := match s.log.getLast? with
    | some p => p.chain
    | none => 0
  let l := s.log ++ [e.link prev]
  { (s.wr Reg.logSeq (BitVec.ofNat 32 seq)) with log := l.drop (l.length - 4096) }

/-- The KIND of a code's record: fault 0, report 1, loader 3 (15 Table 15.5). -/
def recKind (c : Nat) : Nat := if isLoader c then 3 else if isReport c then 1 else 0

/-- The KIND of a code's log entry (18 Table 18.4). -/
def logKind (c : Nat) : Nat := if isLoader c then 2 else if isReport c then 1 else 0

/-- The report window a raise falls in: by the TICK_ID current when it is detected (21 R489). -/
def State.winIx (s : State) : Nat := s.tickId.toNat / 2 ^ 20

/-- The summary of a window that held raises of a fault (21 R489, KIND 2); a report writes none. -/
def State.summary (s : State) (w : RepWin) : State :=
  if isReport w.code then s
  else s.record { code := w.code, kind := 2, die := w.die, unit := w.unit, ctx := w.ctx, sub := w.sub, tick := w.last,
                  ns := s.tod.ns, sec := s.tod.sec % 2 ^ 32,
                  detail := w.count + w.first.toNat * 2 ^ 32 + w.last.toNat * 2 ^ 64 }

/-- Ascending code, then DIE, then UNIT (21 R490). -/
def RepWin.le (a b : RepWin) : Bool :=
  decide (a.code * 2 ^ 40 + a.die * 2 ^ 20 + a.unit ≤ b.code * 2 ^ 40 + b.die * 2 ^ 20 + b.unit)

/-- Ends the report windows before window `n`: one summary for each that held raises of a fault. -/
def State.endWindows (s : State) (n : Nat) : State :=
  let old := s.windows.filter (fun w => decide (w.win ≠ n))
  (sortBy RepWin.le old).foldl State.summary { s with windows := s.windows.filter (fun w => decide (w.win = n)) }

/-- Whether a fault affects a Timed context, so that EVIDENCE counts it (16 R420): one that names its context by that context, an
uncorrectable word of a core by the contexts of the core, of a shared memory and a droop cap while a Timed context is Armed,
Running or Draining, and a frame fault where its stream carries class-T fields. -/
def State.affectsTimed (s : State) (code : Nat) (l : Loc) : Bool :=
  if [Code.residueMismatch, Code.poisonConsumed, Code.deadlineLate, Code.deadlineMissing, Code.slotCollision, Code.slotMissed,
      Code.tagSkew, Code.ctxTagMismatch, Code.staleFlit].elem code then s.ctxTimed l.ctx
  else if code = Code.coreUncorr then
    anyCtx (fun k => bit (s.rd (Reg.ctxCfg l.die l.unit k)) 31 && bit (s.rd (Reg.ctxCfg l.die l.unit k)) 30)
  else if [Code.storeUncorr, Code.patternUncorr, Code.droopCap].elem code then s.timedActive
  else if [Code.frameCrc, Code.frameTick, Code.frameAbsent, Code.frameLate].elem code then
    (List.range 1024).any (fun f =>
      let w := s.rd (Reg.fieldEnt f)
      bit w 31 && bit w 30 && fld w 23 6 == l.unit && fld w 15 8 == l.sub)
  else false

/-- A raise counts, and EVIDENCE keeps it where it affects a Timed context (21 R488; 16 R420). -/
def State.countCode (s : State) (code : Nat) (l : Loc) (tick : W32) : State :=
  let s := s.bump (Reg.fcCount code)
  if s.affectsTimed code l then { s with evidence := s.evidence ++ [(code, tick)] } else s

/-- The record of a raise, and its log entry where the log takes the code (21 R491). -/
def State.writeCode (s : State) (code : Nat) (l : Loc) (tick : W32) (detail : Nat) : State :=
  let t := s.record { code := code, kind := recKind code, die := l.die, unit := l.unit, ctx := l.ctx, sub := l.sub,
                      tick := tick, ns := s.tod.ns, sec := s.tod.sec % 2 ^ 32, detail := detail % 2 ^ 96 }
  if isLogged code || !t.hubOn then t.logPut code (logKind code) l.die tick detail else t

/-- Whether a report window is that of a code at a place (21 R489; 02 R51). -/
def RepWin.covers (code : Nat) (l : Loc) (w : RepWin) : Bool :=
  w.code == code && w.die == l.die && w.unit == l.unit && w.mon == l.mon

/-- Opens the report window of a code at a place in the current window of ticks. -/
def State.openWin (s : State) (code : Nat) (l : Loc) (tick : W32) : State :=
  { s with windows := s.windows ++ [⟨code, l.die, l.unit, l.mon, l.ctx, l.sub, s.winIx, 1, tick, tick⟩] }

/-- One more raise within the open window. -/
def State.joinWin (s : State) (code : Nat) (l : Loc) (tick : W32) : State :=
  { s with windows := s.windows.map (fun x => if x.covers code l then { x with count := x.count + 1, last := tick } else x) }

/-- Closes the window of a code at a place. -/
def State.dropWin (s : State) (code : Nat) (l : Loc) : State := { s with windows := s.windows.filter (fun x => !x.covers code l) }

/-- Raises a code (21 R488 to R494): its counter rises; in each window of 2^20 ticks the first raise at its place writes
its record and, where the log takes the code, its log entry; the window keeps the count and the first and last TICK_ID.
Loader records are not limited. -/
def State.raise (s : State) (code : Nat) (l : Loc) (tick : W32) (detail : Nat) : State :=
  let s := s.countCode code l tick
  if isLoader code then s.writeCode code l tick detail
  else
    match s.windows.find? (RepWin.covers code l) with
    | some w =>
      if w.win = s.winIx then s.joinWin code l tick
      else ((State.summary (s.dropWin code l) w).openWin code l tick).writeCode code l tick detail
    | none => (s.openWin code l tick).writeCode code l tick detail

/-- Raises a code of no particular event: its record carries the current TICK_ID (21 R488). -/
def State.raiseNow (s : State) (code : Nat) (l : Loc) (detail : Nat) : State := s.raise code l s.tickId detail

/-- DETAIL layout A (21 Table 21.1): device address, tensor if any, and the PC or requester id. -/
def detailA (addr : Nat) (tensor : Option Nat) (pc : Nat) : Nat :=
  addr % 2 ^ 48 + (match tensor with | some t => t * 2 ^ 48 | none => 2 ^ 58) + pc * 2 ^ 64

/-- DETAIL layout C: PC, tensor if any, SFU function. -/
def detailC (pc : Nat) (tensor : Option Nat) (fn : Nat) : Nat :=
  pc + (match tensor with | some t => t * 2 ^ 16 | none => 2 ^ 26) + fn * 2 ^ 32

/-- DETAIL layout D: completion in eighths, all ones when missing; deadline in eighths; event tag. -/
def detailD (e : Option Nat) (dl : Nat) (tag : Nat) : Nat :=
  (match e with | some x => x % 2 ^ 32 | none => 2 ^ 32 - 1) + dl * 2 ^ 32 + tag * 2 ^ 64

/-- DETAIL layout S: owner id of the slot, owner id held, slot number. -/
def detailS (owner heldId slot : Nat) : Nat := owner + heldId * 2 ^ 32 + slot * 2 ^ 64

/-- DETAIL layout Q: global queue number and event tag. -/
def detailQ (q tag : Nat) : Nat := q + tag * 2 ^ 24

/-- DETAIL layout L: lane (0xFF a whole group), group, the value concerned, remote part. -/
def detailL (lane group v part : Nat) : Nat := lane + group * 2 ^ 8 + (v % 65536) * 2 ^ 16 + part * 2 ^ 32

/-- DETAIL layout F: group, stream, header TICK_ID, trigger number. -/
def detailF (group stream : Nat) (hdr : W32) (num : Nat) : Nat :=
  group * 2 ^ 8 + stream * 2 ^ 14 + hdr.toNat * 2 ^ 32 + (num % 2 ^ 20) * 2 ^ 64

/-- DETAIL layout T: old and new NS and SEC. -/
def detailT (oldNs oldSec newNs newSec : Nat) : Nat :=
  oldNs + (oldSec % 65536) * 2 ^ 32 + newNs * 2 ^ 48 + (newSec % 65536) * 2 ^ 80

/-- DETAIL layout W: own and partner EVIDENCE, tick of the mismatch. -/
def detailW (own partner : Nat) (k : W32) : Nat := own + partner * 2 ^ 16 + k.toNat * 2 ^ 32

/-- DETAIL layout Y: firmware kind, owner slot, fuse or opcode; copy; rejected status. -/
def detailY (what copy status : Nat) : Nat := what + copy * 2 ^ 16 + status * 2 ^ 32

/-- The global number of a queue (06 R176). -/
def queueNo (t c k q : Nat) : Nat := ((t * 544 + c) * 4 + k) * 8 + q

end Sys2Proof.Machine
end

