-- ==== Sys2Proof/Machine/Numerics.lean ====
section
/-! DEFINITION. Arithmetic of the formats of chapter 04 as pure functions: dyadic values, binary32, extended float,
element formats, narrowing and the exponential (05 R143). -/

namespace Sys2Proof.Machine

/-- A value of the arithmetic paths: finite (±m × 2^e, with the sign kept for zero), infinite or NaN. -/
structure Val where
  nan : Bool
  inf : Bool
  neg : Bool
  m : Nat
  e : Int
  deriving DecidableEq, Repr

def Val.fin (neg : Bool) (m : Nat) (e : Int) : Val := ⟨false, false, neg, m, e⟩
def Val.nanV : Val := ⟨true, false, false, 0, 0⟩
def Val.infV (neg : Bool) : Val := ⟨false, true, neg, 0, 0⟩
def Val.zero : Val := Val.fin false 0 0
def Val.isFin (v : Val) : Bool := !v.nan && !v.inf
/-- The signed integer n of n × 2^e. -/
def Val.n (v : Val) : Int := if v.neg then -(v.m : Int) else v.m

/-- n × 2^e from a signed integer. -/
def Val.ofInt (n : Int) (e : Int) : Val := Val.fin (decide (n < 0)) n.natAbs e

/-- n shifted left by e, or right towards minus infinity. -/
def shl (n : Int) (e : Int) : Int := if 0 ≤ e then n * 2 ^ e.toNat else n / 2 ^ (-e).toNat

/-- Exact sum of two finite values; an exact zero from opposite signs is +0, of two negative zeros −0 (IEEE 754 RNE). -/
def Val.add (a b : Val) : Val :=
  let e := min a.e b.e
  let n := shl a.n (a.e - e) + shl b.n (b.e - e)
  if n = 0 then Val.fin (a.neg && b.neg) 0 0 else Val.ofInt n e

/-- Exact product of two finite values. -/
def Val.mul (a b : Val) : Val := Val.fin (a.neg != b.neg) (a.m * b.m) (a.e + b.e)

/-- m / 2^k to the nearest integer, ties to even. -/
def rneShift (m k : Nat) : Nat :=
  if k = 0 then m
  else
    let q := m / 2 ^ k
    let r := m % 2 ^ k
    if 2 ^ (k - 1) < r ∨ (r = 2 ^ (k - 1) ∧ q % 2 = 1) then q + 1 else q

/-- m × 2^e as a multiple of 2^q, rounded to nearest even. -/
def rneAt (m : Nat) (e q : Int) : Nat := if q ≤ e then m * 2 ^ (e - q).toNat else rneShift m (q - e).toNat

/-- ⌊log2 (m × 2^e)⌋ for m > 0. -/
def ilog (m : Nat) (e : Int) : Int := (Nat.log2 m : Int) + e

/-- Whether |a| < |b| for finite values. -/
def magLt (a b : Val) : Bool :=
  let e := min a.e b.e
  decide (shl a.m (a.e - e) < shl b.m (b.e - e))

/-- Whether a < b for finite values. -/
def Val.lt (a b : Val) : Bool :=
  let e := min a.e b.e
  decide (shl a.n (a.e - e) < shl b.n (b.e - e))

def Val.eqv (a b : Val) : Bool :=
  let e := min a.e b.e
  decide (shl a.n (a.e - e) = shl b.n (b.e - e))

/-! Binary32 (04 R120). -/

/-- The value of a binary32 code. -/
def f32Val (w : W32) : Val :=
  let neg := bit w 31
  let ex := fld w 23 8
  let man := fld w 0 23
  if ex = 255 then (if man = 0 then Val.infV neg else Val.nanV)
  else if ex = 0 then Val.fin neg man (-149)
  else Val.fin neg (2 ^ 23 + man) ((ex : Int) - 150)

/-- The magnitude code of a finite value rounded to binary32; 0x7F800000 or more is beyond the largest. -/
def f32Mag (m : Nat) (e : Int) : Nat :=
  if m = 0 then 0
  else
    let ex := max (ilog m e) (-126)
    (ex + 126).toNat * 2 ^ 23 + rneAt m e (ex - 23)

def f32Sign (neg : Bool) : Nat := if neg then 2 ^ 31 else 0
def f32Max : Nat := 0x7F7FFFFF
def f32Inf : Nat := 0x7F800000

/-- A NaN result: quiet, its sign and payload a free value of the operands (log 13). -/
def f32NaN (a b : W32) : W32 := (0x7FC00000#32) ||| (Config.nanBits a b &&& 0x803FFFFF#32)

/-- IEEE rounding of a finite value. -/
def f32Round (v : Val) : W32 := BitVec.ofNat 32 (f32Sign v.neg + min (f32Mag v.m v.e) f32Inf)

/-- The code of any value: NaN from the operands `a`, `b`. -/
def f32Of (v : Val) (a b : W32) : W32 :=
  if v.nan then f32NaN a b else if v.inf then BitVec.ofNat 32 (f32Sign v.neg + f32Inf) else f32Round v

/-- IEEE sum with infinities and NaN. -/
def Val.addX (a b : Val) : Val :=
  if a.nan || b.nan then Val.nanV
  else if a.inf && b.inf then (if a.neg == b.neg then a else Val.nanV)
  else if a.inf then a else if b.inf then b else Val.add a b

/-- IEEE product with infinities and NaN. -/
def Val.mulX (a b : Val) : Val :=
  if a.nan || b.nan then Val.nanV
  else if a.inf || b.inf then
    (if (a.isFin && a.m == 0) || (b.isFin && b.m == 0) then Val.nanV else Val.infV (a.neg != b.neg))
  else Val.mul a b

def f32Add (a b : W32) : W32 := f32Of ((f32Val a).addX (f32Val b)) a b
def f32Mul (a b : W32) : W32 := f32Of ((f32Val a).mulX (f32Val b)) a b
/-- a × b + c with one rounding. -/
def f32Fma (a b c : W32) : W32 := f32Of (((f32Val a).mulX (f32Val b)).addX (f32Val c)) a c

/-- a < b of two codes, false with NaN. -/
def f32Lt (a b : W32) : Bool :=
  let x := f32Val a
  let y := f32Val b
  if x.nan || y.nan then false
  else if x.inf then x.neg && !(y.inf && y.neg)
  else if y.inf then !y.neg
  else x.lt y

def f32Eq (a b : W32) : Bool :=
  let x := f32Val a
  let y := f32Val b
  if x.nan || y.nan then false
  else if x.inf || y.inf then x.inf && y.inf && x.neg == y.neg
  else x.eqv y

/-- VMAX and VMIN return the operand that is no NaN when exactly one is (04 R120); which of two equal zeros they return is
free (log 13). -/
def f32Pick (wantMax : Bool) (a b : W32) : W32 :=
  if (f32Val a).nan then (if (f32Val b).nan then f32NaN a b else b)
  else if (f32Val b).nan then a
  else if f32Eq a b then (if Config.zeroPick a b then a else b)
  else if f32Lt a b == wantMax then b else a

/-- Compare modes of VCMP: GT, GE, EQ, NE. -/
def f32Cmp (mode : Nat) (a b : W32) : Bool :=
  match mode with
  | 0 => f32Lt b a
  | 1 => f32Lt b a || f32Eq a b
  | 2 => f32Eq a b
  | _ => !f32Eq a b

/-! Extended float (04 R109): sign, 12-bit exponent with bias 2,047, 48-bit significand with explicit leading bit. -/

structure XF where
  neg : Bool
  exp : Nat
  sig : Nat
  deriving DecidableEq, Repr

def XF.zero : XF := ⟨false, 0, 0⟩

def XF.val (x : XF) : Val := if x.sig = 0 then Val.zero else Val.fin x.neg x.sig ((x.exp : Int) - 2047 - 47)

/-- One rounding to extended float, to nearest even. A zero is +0, of whichever sign the value (DESIGN CHOICE, log 27: R109 gives zero no
rule of sign). -/
def rne48 (v : Val) : XF :=
  if v.m = 0 then XF.zero
  else
    let q := ilog v.m v.e - 47
    let s := rneAt v.m v.e q
    if s = 2 ^ 48 then ⟨v.neg, (q + 48 + 2047).toNat, 2 ^ 47⟩ else ⟨v.neg, (q + 47 + 2047).toNat, s⟩

def XF.add (a b : XF) : XF := rne48 (Val.add a.val b.val)

/-- The 61-bit code of a partial slot (04 Table 4.4). -/
def XF.code (x : XF) : Nat := (if x.neg then 2 ^ 60 else 0) + x.exp * 2 ^ 48 + x.sig

def XF.ofCode (n : Nat) : XF := ⟨nbit n 60, (n / 2 ^ 48) % 2 ^ 12, n % 2 ^ 48⟩

/-! Element formats (04 Table 4.1). -/

namespace Fmt
def e4m3 := 0
def e5m2 := 1
def e3m2 := 2
def e2m3 := 3
def e2m1 := 4
def int8 := 5
def int4 := 6
def lut4 := 7
def fp32 := 8
def int32 := 9
end Fmt

/-- Exponent bits, mantissa bits and bias of a float element format. -/
def fmtShape (f : Nat) : Nat × Nat × Nat :=
  match f with
  | 0 => (4, 3, 7)
  | 1 => (5, 2, 15)
  | 2 => (3, 2, 3)
  | 3 => (2, 3, 1)
  | _ => (2, 1, 1)

/-- The largest finite magnitude code. -/
def fmtMax (f : Nat) : Nat :=
  match f with
  | 0 => 0x7E
  | 1 => 0x7B
  | 2 => 0x1F
  | 3 => 0x1F
  | _ => 0x7

/-- Bits of a code, sign included. -/
def fmtBits (f : Nat) : Nat := let s := fmtShape f; s.1 + s.2.1 + 1

/-- Whether a format packs two codes to a byte (04 R98). -/
def isFour (f : Nat) : Bool := f == Fmt.e2m1 || f == Fmt.int4 || f == Fmt.lut4

/-- The value of a float element code (04 Tables 4.1, 4.2): expansion is exact. -/
def elemVal (f code : Nat) : Val :=
  let (eb, mb, bias) := fmtShape f
  let neg := nbit code (eb + mb)
  let ex := (code / 2 ^ mb) % 2 ^ eb
  let man := code % 2 ^ mb
  if f = Fmt.e4m3 ∧ ex = 15 ∧ man = 7 then Val.nanV
  else if f = Fmt.e5m2 ∧ ex = 31 then (if man = 0 then Val.infV neg else Val.nanV)
  else if ex = 0 then Val.fin neg man (1 - (bias : Int) - mb)
  else Val.fin neg (2 ^ mb + man) ((ex : Int) - bias - mb)

/-- What narrowing one value gives: the code and its counts (04 R114 to R118). -/
structure Narrowed where
  code : Nat
  sat : Nat
  under : Nat
  nonfinite : Bool
  deriving DecidableEq, Repr

/-- The magnitude code of m × 2^e rounded to a float element format with unbounded exponent. -/
def elemMag (f m : Nat) (e : Int) : Nat :=
  if m = 0 then 0
  else
    let (_, mb, bias) := fmtShape f
    let emin : Int := 1 - bias
    let ex := max (ilog m e) emin
    (ex - emin).toNat * 2 ^ mb + rneAt m e (ex - mb)

/-- Narrowing to a float element format (R114, R115). A NaN that becomes code 0 counts no UNDER (DESIGN CHOICE, log 27: R118 counts elements
non-zero before and zero after, and does not name NaN). -/
def narrowElem (f : Nat) (ieee : Bool) (v : Val) : Narrowed :=
  let (eb, mb, _) := fmtShape f
  let sgn := fun (n : Bool) => if n then 2 ^ (eb + mb) else 0
  if v.nan then ⟨0, 0, 0, true⟩
  else
    let top := elemVal f (fmtMax f)
    let ieee := ieee && f == Fmt.e5m2
    if v.inf then ⟨sgn v.neg + (if ieee then 0x7C else fmtMax f), 1, 0, false⟩
    else if magLt top v then ⟨sgn v.neg + (if ieee then min (elemMag f v.m v.e) 0x7C else fmtMax f), 1, 0, false⟩
    else
      let c := elemMag f v.m v.e
      ⟨sgn v.neg + c, 0, (if v.m ≠ 0 ∧ c = 0 then 1 else 0), false⟩

/-- Narrowing to an integer range (R116): the range is judged before rounding. -/
def narrowInt (bits : Nat) (full : Bool) (v : Val) : Narrowed :=
  let hi : Int := 2 ^ (bits - 1) - 1
  let lo : Int := if full then -(2 ^ (bits - 1)) else -hi
  let code := fun (x : Int) => ofSigned bits x
  if v.nan then ⟨0, 0, 0, true⟩
  else if v.inf then ⟨code (if v.neg then lo else hi), 1, 0, false⟩
  else if (Val.ofInt hi 0).lt v then ⟨code hi, 1, 0, false⟩
  else if v.lt (Val.ofInt lo 0) then ⟨code lo, 1, 0, false⟩
  else
    let q := rneAt v.m v.e 0
    ⟨code (if v.neg then -(q : Int) else q), 0, (if v.m ≠ 0 ∧ q = 0 then 1 else 0), false⟩

/-- Narrowing to binary32 (R115): beyond the maximum it saturates to it. -/
def narrowF32 (v : Val) : Narrowed :=
  if v.nan then ⟨0, 0, 0, true⟩
  else if v.inf then ⟨f32Sign v.neg + f32Max, 1, 0, false⟩
  else
    let c := f32Mag v.m v.e
    if magLt (f32Val (BitVec.ofNat 32 f32Max)) v then ⟨f32Sign v.neg + f32Max, 1, 0, false⟩
    else ⟨f32Sign v.neg + c, 0, (if v.m ≠ 0 ∧ c = 0 then 1 else 0), false⟩

/-- Narrowing to a result format (R113 step 4). INT32 of the native path takes the full range (log 15). -/
def narrow (f : Nat) (ieee full : Bool) (v : Val) : Narrowed :=
  if f = Fmt.int8 then narrowInt 8 full v
  else if f = Fmt.int4 then narrowInt 4 full v
  else if f = Fmt.int32 then narrowInt 32 true v
  else if f = Fmt.fp32 then narrowF32 v
  else narrowElem f ieee v

/-- EMAX of block-scaled output (R117). -/
def emax (f : Nat) : Int :=
  match f with
  | 0 => 8
  | 1 => 15
  | 2 => 4
  | 3 => 2
  | 4 => 2
  | _ => 0

/-- The power of two that divides an element of a block besides 2^X: 6 for INT8, 2 for INT4 (R117 step 5). -/
def intShift (f : Nat) : Int := if f = Fmt.int8 then 6 else if f = Fmt.int4 then 2 else 0

/-- v / 2^k. -/
def Val.scale (v : Val) (k : Int) : Val := { v with e := v.e - k }

/-- A block narrowed with its E8M0 scale code (R117). -/
def narrowBlock (f : Nat) (ieee full : Bool) (vs : List Val) : Nat × List Narrowed :=
  let nums := vs.filter (fun v => !v.nan)
  if nums.any (·.inf) then (254, vs.map (fun v => narrow f ieee full (v.scale 127)))
  else
    let amax := nums.foldl (fun a v => if magLt a v then v else a) Val.zero
    if amax.m = 0 then (0, vs.map (fun v => if v.nan then ⟨0, 0, 0, true⟩ else narrow f ieee full (Val.fin v.neg 0 0)))
    else
      let x := ilog amax.m amax.e - emax f
      if 127 < x then (254, vs.map (fun v => narrow f ieee full (v.scale 127)))
      else if x < -127 then
        (0, vs.map (fun v => if v.nan then ⟨0, 0, 0, true⟩ else ⟨0, 0, (if v.m ≠ 0 then 1 else 0), false⟩))
      else ((x + 127).toNat, vs.map (fun v => narrow f ieee full (v.scale (x - intShift f))))

/-- The value of a source code of VCVT, for packing and widening (R119). A NaN code is NaN and an infinity infinite, which R115 then
narrows (DEDUCED, log 27: R115 speaks of values and names FP32 infinity only). VCVT names no table for a LUT4 code: its value is
free (log 13). -/
def codeVal (f code : Nat) : Val :=
  if f = Fmt.lut4 then f32Val (Config.lutVal code)
  else if f = Fmt.int8 then Val.ofInt (toSigned 8 code) 0
  else if f = Fmt.int4 then Val.ofInt (toSigned 4 code) 0
  else if f = Fmt.int32 then Val.ofInt (toSigned 32 code) 0
  else if f = Fmt.fp32 then f32Val (BitVec.ofNat 32 code)
  else elemVal f code

/-- VRSC of one lane (04 R123): the result and its SAT count. -/
def vrsc (x : Int) (mul s : Nat) (zp : Int) (even : Bool) (lo hi : Int) : Int × Nat :=
  let p := x * mul
  let q : Int :=
    if s = 0 then p
    else if !even then (p + 2 ^ (s - 1)) / 2 ^ s
    else
      let f := p / 2 ^ s
      let r := p - f * 2 ^ s
      if 2 ^ (s - 1) < r ∨ (r = 2 ^ (s - 1) ∧ f % 2 = 1) then f + 1 else f
  let q := q + zp
  if hi < q then (hi, 1) else if q < lo then (lo, 1) else (q, 0)

/-- The mod-7 residue of an integer (04 R124). -/
def res7 (n : Int) : Nat := (n % 7).toNat

/-! RECIP and EXP (05 R143). -/

/-- ⌊log2 (1/(m × 2^e))⌋ and the quotient 1/(m 2^e) in units of 2^q with its remainder flag: correctly rounded RECIP. -/
def recipMag (m : Nat) (e : Int) : Nat :=
  let lg := Nat.log2 m
  let ex0 : Int := if m = 2 ^ lg then -(lg : Int) - e else -(lg : Int) - e - 1
  let ex := max ex0 (-126)
  let q := ex - 23
  -- 1 / (m 2^(e+q)) as num / den
  let sh := -(e + q)
  let num := if 0 ≤ sh then 2 ^ sh.toNat else 1
  let den := if 0 ≤ sh then m else m * 2 ^ (-sh).toNat
  let d := num / den
  let r := num % den
  let d := if den < 2 * r ∨ (2 * r = den ∧ d % 2 = 1) then d + 1 else d
  (ex + 126).toNat * 2 ^ 23 + d

/-- RECIP of a binary32 code: correctly rounded; RECIP(±0) is ±maximum and counts SAT, RECIP(±∞) is ±0; a result beyond
the maximum saturates. -/
def f32Recip (w : W32) : Narrowed :=
  let v := f32Val w
  if v.nan then ⟨0, 0, 0, true⟩
  else if v.inf then ⟨f32Sign v.neg, 0, 0, false⟩
  else if v.m = 0 then ⟨f32Sign v.neg + f32Max, 1, 0, false⟩
  else
    let c := recipMag v.m v.e
    if f32Max < c then ⟨f32Sign v.neg + f32Max, 1, 0, false⟩ else ⟨f32Sign v.neg + c, 0, 0, false⟩

/-- ln 2 in units of 2^-256. -/
def ln2 : Nat := 80260960185991308862233904206310070533990667611589946606122867505419956976171

/-- Horner evaluation of 1 + r (1 + r/2 (1 + r/3 (…))) in units of 2^-256. -/
def expHorner (r : Int) : Nat → Int → Int
  | 0, acc => acc
  | k + 1, acc => expHorner r k (2 ^ 256 + (r * acc) / ((k + 1 : Nat) * 2 ^ 256))

/-- The magnitude code of the largest binary32 not above e^x, for a finite x with |x| < 2^7. -/
def expFloor (v : Val) : Nat :=
  let x := shl v.n (v.e + 256)
  let k := (2 * x + ln2) / (2 * ln2)
  let r := x - k * ln2
  let y := (expHorner r 60 (2 ^ 256)).toNat
  -- e^x = y × 2^(k - 256)
  let e : Int := k - 256
  let ex := max (ilog y e) (-126)
  let q := ex - 23
  (ex + 126).toNat * 2 ^ 23 + (if q ≤ e then y * 2 ^ (e - q).toNat else y / 2 ^ (q - e).toNat)

/-- EXP of a binary32 code: one of the two neighbours of e^x, fixed for each input and free between them (log 10). -/
def f32Exp (w : W32) : Narrowed :=
  let v := f32Val w
  if v.nan then ⟨0, 0, 0, true⟩
  else if v.inf then (if v.neg then ⟨0, 0, 0, false⟩ else ⟨f32Max, 1, 0, false⟩)
  else if v.m = 0 then ⟨0x3F800000, 0, 0, false⟩
  else if magLt (Val.fin false 1 7) v then (if v.neg then ⟨if Config.expUp w then 1 else 0, 0, if Config.expUp w then 0 else 1, false⟩
    else ⟨f32Max, 1, 0, false⟩)
  else
    let c := expFloor v + (if Config.expUp w then 1 else 0)
    if f32Max < c then ⟨f32Max, 1, 0, false⟩ else ⟨c, 0, if c = 0 then 1 else 0, false⟩

end Sys2Proof.Machine
end

