-- ==== Sys2Proof/Machine/Operands.lean ====
section
/-! DEFINITION. The instruction word, operand descriptors and format codes of the Ant (03 Tables 3.2 to 3.4), the places of
cores, and every form in which an operand is read or written: core store with its bounds, vector registers, accumulators,
queues and immediates. -/

namespace Sys2Proof.Machine

/-- An instruction word by its fields (03 Table 3.2). -/
structure AntIns where
  cls : Nat
  op : Nat
  fmtA : Nat
  fmtB : Nat
  mode : Nat
  cnt : Nat
  dst : Nat
  srcA : Nat
  srcB : Nat
  step : Nat
  aux : Nat
  deriving DecidableEq, Repr

def bits (n lo k : Nat) : Nat := (n / 2 ^ lo) % 2 ^ k

/-- The fields of a 128-bit word; CNT is encoded as count − 1. -/
def antIns (w : Nat) : AntIns :=
  { cls := bits w 125 3, op := bits w 120 5, fmtA := bits w 116 4, fmtB := bits w 112 4, mode := bits w 108 4,
    cnt := bits w 96 12 + 1, dst := bits w 72 24, srcA := bits w 48 24, srcB := bits w 24 24, step := bits w 12 12,
    aux := bits w 0 12 }

/-- KIND of a descriptor (03 Table 3.3). -/
def dKind (d : Nat) : Nat := bits d 21 3
def dAddr (d : Nat) : Nat := bits d 0 18
def dReg (d : Nat) : Nat := bits d 0 5
def dSet (d : Nat) : Nat := bits d 0 2
def dFirst (d : Nat) : Nat := bits d 2 6
def dQueue (d : Nat) : Nat := bits d 0 3
/-- The FP32 value of an immediate: its low 11 bits are 0. -/
def dImm (d : Nat) : W32 := BitVec.ofNat 32 (bits d 0 21 * 2 ^ 11)

namespace Kind
def none := 0
def store := 1
def vreg := 2
def acc := 3
def queue := 4
def imm := 5
end Kind

/-! Cores. -/

def kc (t c : Nat) : Nat := 544 * t + c

/-- SHIFT_FROM of a row (03 Table 3.9). -/
def State.shiftFrom (s : State) (t r : Nat) : Nat := s.rdF (Reg.rowMap t r) 0 5

/-- The physical core on which a logical core 16 r + j runs (03 R67, R92). -/
def State.phys (s : State) (t lc : Nat) : Nat :=
  17 * (lc / 16) + (if s.shiftFrom t (lc / 16) ≤ lc % 16 then lc % 16 + 1 else lc % 16)

/-- The logical core that a physical core serves, if any. -/
def State.logical (s : State) (t c : Nat) : Option Nat :=
  let sh := s.shiftFrom t (c / 17)
  if c % 17 < sh then some (16 * (c / 17) + c % 17)
  else if c % 17 = sh then none
  else some (16 * (c / 17) + c % 17 - 1)

def tensorOf (l : List (Nat × Nat × Nat × Nat)) (a : Nat) : Option Nat :=
  (l.find? (fun e => decide (e.2.1 ≤ a ∧ a < e.2.1 + e.2.2.1))).map (·.2.2.2)

/-- The event whose tag a flit carries: the last tick with that low byte (02 R33). -/
def State.eventOf (s : State) (tag : W8) : W32 :=
  s.tickId - BitVec.ofNat 32 ((s.tickId.toNat + 256 - tag.toNat) % 256)

/-- Where poison stands that no device address holds: vector register `r` of a core, as a place beyond the 48-bit addresses. -/
def regPlace (f : Firing) (r : Nat) : Nat := 2 ^ 48 + kc f.tile f.core * 64 + r

/-- Consumption of poisoned data found at an address (07 R201). A vector register has no device address and lies in no tensor: the record
names one that the spec does not give, a free value (log 36). -/
def State.consume (s : State) (f : Firing) (addr : Nat) : State :=
  s.raise Code.poisonConsumed { die := f.tile, unit := f.core, ctx := f.ctx } (s.eventOf f.tag)
    (if addr < 2 ^ 48 then detailA addr (tensorOf s.ant.tensors addr) f.pc
     else detailA (Config.regAddr (addr - 2 ^ 48)).toNat none f.pc)

/-- Bytes with their poison marks, the state that reading them leaves, and where the first poisoned one was found (07 R201). -/
structure Got where
  st : State
  bytes : List W8
  marks : List Bool
  at' : Nat

/-- Whether a byte read is poisoned. -/
def Got.poison (g : Got) : Bool := g.marks.any id

/-- The state after poisoned data that were read are consumed (07 R201). -/
def Got.used (g : Got) (f : Firing) : State := if g.poison then g.st.consume f g.at' else g.st

/-! Results in their latency (03 R73). A result is written at once, and what it hides from readers is kept until the FAB cycle from
which it is read: an instruction whose cycle comes before reads that. A result of another instruction in its latency at the same
place hides it in its turn, so that of two results in their latency at one place that of the later instruction stays, whichever is due
first (DESIGN CHOICE, log 36: R73 does not say). -/

/-- The results of a core that have their latency to run. -/
def State.shadowsOf (s : State) (t c : Nat) : List Shadow := SMap.get [] s.ant.shadows (kc t c)

/-- What an instruction in FAB cycle `T` reads of a place, where the last result there has its latency to run. -/
def seenOld {α : Type} (pick : Old → Option α) (T : Nat) (l : List Shadow) : Option α :=
  l.foldl (fun r h => match pick h.old with
    | none => r
    | some v => if h.due ≤ T then none else some (r.getD v)) none

/-- Keeps what a result of the instruction that a firing issues hides until it is due. -/
def State.shade (s : State) (f : Firing) (o : Old) : State :=
  { s with ant.shadows := SMap.set [] s.ant.shadows (kc f.tile f.core) (s.shadowsOf f.tile f.core ++ [⟨f.due, o⟩]) }

/-- A byte of core store with its mark, as an instruction reads it. -/
def State.seenByte (s : State) (f : Firing) (a : Nat) : W8 × Bool :=
  (seenOld (fun o => match o with
    | .mem b bs ms => if b ≤ a ∧ a < b + bs.length then some (bs.getD (a - b) 0, ms.getD (a - b) false) else none
    | _ => none) f.clk (s.shadowsOf f.tile f.core)).getD (s.rdB a, s.isPoisonAt a)

/-- The bounds of the running context (03 R75). -/
def State.inBounds (s : State) (f : Firing) (off n : Nat) : Bool :=
  decide (s.rdF (Reg.ctxBoundLo f.tile f.core f.ctx) 0 18 ≤ off ∧
    off + n ≤ s.rdF (Reg.ctxBoundHi f.tile f.core f.ctx) 0 18)

def State.boundsFault (s : State) (f : Firing) (a : Nat) : State :=
  s.raise Code.coreBounds { die := f.tile, unit := f.core, ctx := f.ctx } (s.eventOf f.tag)
    (detailA a (tensorOf s.ant.tensors a) f.pc)

/-- Reads core-store bytes: outside the bounds the data are poisoned (03 R75). -/
def State.csRead (s : State) (f : Firing) (off n : Nat) : Got :=
  let a := Reg.coreBase f.tile f.core + off
  if s.inBounds f off n then
    let l := (List.range n).map (fun i => s.seenByte f (a + i))
    let ms := l.map (·.2)
    ⟨s, l.map (·.1), ms, a + (findIx id ms).getD 0⟩
  else ⟨s.boundsFault f a, (List.range n).map (fun i => Config.poisonByte (a + i)), List.replicate n true, a⟩

/-- Writes core-store bytes with their poison marks; outside the bounds the write is discarded (03 R75). -/
def State.csWrite (s : State) (f : Firing) (off : Nat) (bs : List W8) (marks : List Bool) : State :=
  let a := Reg.coreBase f.tile f.core + off
  let n := bs.length
  if s.inBounds f off n then
    let old := Old.mem a (s.rdBytes a n) ((List.range n).map (fun i => s.isPoisonAt (a + i)))
    ((s.shade f old).wrBytes a bs).markBytes a marks
  else s.boundsFault f a

/-- A vector register and its poisoned lanes. -/
def State.vr (s : State) (t c r : Nat) : BitVec 512 := SMap.get 0 s.ant.vr (kc t c * 32 + r)
def State.vrPoison (s : State) (t c r : Nat) : Nat := SMap.get 0 s.ant.vrPoison (kc t c * 32 + r)
def State.setVr (s : State) (t c r : Nat) (v : BitVec 512) (p : Nat) : State :=
  { s with ant.vr := SMap.set 0 s.ant.vr (kc t c * 32 + r) v, ant.vrPoison := SMap.set 0 s.ant.vrPoison (kc t c * 32 + r) p }

/-- A vector register and its poisoned lanes, as an instruction reads them. -/
def State.vrSeen (s : State) (f : Firing) (r : Nat) : BitVec 512 × Nat :=
  (seenOld (fun o => match o with
    | .vr r' v p => if r' = r then some (v, p) else none
    | _ => none) f.clk (s.shadowsOf f.tile f.core)).getD (s.vr f.tile f.core r, s.vrPoison f.tile f.core r)

/-- Writes a vector register as the result of an instruction. -/
def State.putVr (s : State) (f : Firing) (r : Nat) (v : BitVec 512) (p : Nat) : State :=
  (s.shade f (.vr r (s.vr f.tile f.core r) (s.vrPoison f.tile f.core r))).setVr f.tile f.core r v p

def lane (v : BitVec 512) (i : Nat) : W32 := v.extractLsb' (32 * i) 32
def lanesOf (v : BitVec 512) : List W32 := (List.range 16).map (lane v)
def ofLanes (l : List W32) : BitVec 512 := BitVec.ofNat 512 (ofWordsLE l)

def Acc.zero : Acc :=
  { exact := 0, xneg := false, xexp := 0, xsig := 0, terms := 0, faulted := false, mode := 0, inBlk := 0, scale := 0,
    zeroed := false }

/-- Accumulator i of a set of a core. -/
def accKey (t c set i : Nat) : Nat := (kc t c * 4 + set) * 64 + i % 64
def State.accAt (s : State) (t c set i : Nat) : Acc := SMap.get Acc.zero s.ant.acc (accKey t c set i)
def State.setAcc (s : State) (t c set i : Nat) (a : Acc) : State :=
  { s with ant.acc := SMap.set Acc.zero s.ant.acc (accKey t c set i) a }

/-- An accumulator, as an instruction reads it. An addition into an accumulator is no read: it takes the accumulator as the additions
before it leave it (log 17). -/
def State.accSeen (s : State) (f : Firing) (set i : Nat) : Acc :=
  (seenOld (fun o => match o with
    | .acc k a => if k = accKey f.tile f.core set i then some a else none
    | _ => none) f.clk (s.shadowsOf f.tile f.core)).getD (s.accAt f.tile f.core set i)

/-- Keeps what readers see of an accumulator while the result of the instruction has its latency to run. -/
def State.shadeAcc (s : State) (f : Firing) (set i : Nat) : State :=
  s.shade f (.acc (accKey f.tile f.core set i) (s.accAt f.tile f.core set i))

/-! Queues. -/

def State.qEn (s : State) (t c k q : Nat) : Bool := bit (s.rd (Reg.qalloc t c k q)) 31
def State.qGather (s : State) (t c k q : Nat) : Bool := bit (s.rd (Reg.qalloc t c k q)) 30
def State.qBase (s : State) (t c k q : Nat) : Nat := s.rdF (Reg.qalloc t c k q) 16 9
def State.qDepth (s : State) (t c k q : Nat) : Nat := s.rdF (Reg.qalloc t c k q) 0 7
def State.qHeld (s : State) (t c k q : Nat) : Nat := s.rdF (Reg.qstat t c k q) 24 7

/-- The spilled flits of a queue, oldest first, as they are read back from Store (06 R177). -/
def State.spilledOf (s : State) (t c k q : Nat) : List Flit :=
  (s.scarab.spilled.filter (fun e => e.q == queueNo t c k q)).map (fun e =>
    { e.flit with data := BitVec.ofNat 256 (s.rdLE e.addr 32), poison := e.flit.poison || s.isPoison e.addr 32 })

/-- COUNT as the firing rule sees it: the complete flits in the slots and those spilled (06 R177). -/
def State.qCount (s : State) (t c k q : Nat) : Nat := s.qHeld t c k q + (s.spilledOf t c k q).length

/-- The address of slot `rel` of a queue in queue RAM (07 Table 7.3). -/
def State.slotAddr (s : State) (t c k q rel : Nat) : Nat :=
  Reg.coreBase t c + 0x38000 + (s.qBase t c k q + rel) * 32

def Side.none' : Side := ⟨0, false, false, none, []⟩

def State.sideAt (s : State) (a : Nat) : Side := SMap.get Side.none' s.ant.side a
def State.setSide (s : State) (a : Nat) (x : Side) : State := { s with ant.side := SMap.set Side.none' s.ant.side a x }

/-- The flit in a slot. -/
def State.slotFlit (s : State) (a k q : Nat) : Flit :=
  let x := s.sideAt a
  { data := BitVec.ofNat 256 (s.rdLE a 32), tag := x.tag, ctx := k, dq := q, off := 0, len := 0, last := x.last,
    poison := x.poison || s.isPoison a 32, src := x.src, fires := x.fires }

/-- The head flit of a queue: a spilled one first (06 R177). -/
def State.qHead (s : State) (t c k q : Nat) : Option Flit :=
  match s.spilledOf t c k q with
  | f :: _ => some f
  | [] =>
    if s.qHeld t c k q = 0 then none
    else some (s.slotFlit (s.slotAddr t c k q (s.rdF (Reg.qstat t c k q) 16 6)) k q)

/-- The credit of a slot or call that a flit held goes back towards its route (03 R82, 06 R154). -/
def State.giveBack (s : State) (src : Option Src) : State :=
  match src with
  | some x => { s with ant.credits := s.ant.credits ++ [x] }
  | none => s

/-- Removes the oldest spilled flit of a queue; SCARAB_SPILLED follows. -/
def State.unspill (s : State) (t c k q : Nat) : State :=
  match findIx (fun (e : Spilled) => e.q == queueNo t c k q) s.scarab.spilled with
  | some i =>
    let s := { s with scarab.spilled := s.scarab.spilled.eraseIdx i }
    s.wrF (Reg.scarab t + 0xC) 0 24 (s.rdF (Reg.scarab t + 0xC) 0 24 - 1)
  | none => s

/-- Pops the head flit: a spilled one, whose credit went back at the spill, or the head slot, whose credit goes back now
(03 R82, 06 R177). -/
def State.qPop (s : State) (t c k q : Nat) : State :=
  match s.spilledOf t c k q with
  | _ :: _ => s.unspill t c k q
  | [] =>
    if s.qHeld t c k q = 0 then s
    else
      let st := s.rd (Reg.qstat t c k q)
      let h := fld st 16 6
      let a := s.slotAddr t c k q h
      let src := (s.sideAt a).src
      let st := setFld (setFld st 16 6 ((h + 1) % max 1 (s.qDepth t c k q))) 24 7 (s.qHeld t c k q - 1)
      ((s.wr (Reg.qstat t c k q) st).setSide a Side.none').giveBack src

/-- Writes a complete flit into the tail slot. -/
def State.qPut (s : State) (t c k q : Nat) (f : Flit) : State :=
  let st := s.rd (Reg.qstat t c k q)
  let tail := fld st 8 6
  let a := s.slotAddr t c k q tail
  let s := (s.wrLE a 32 f.data.toNat).setPoison a 32 false
  let s := s.setSide a ⟨f.tag, f.last, f.poison, f.src, f.fires⟩
  let st := setFld (setFld (setFld st 8 6 ((tail + 1) % max 1 (s.qDepth t c k q))) 24 7 (s.qHeld t c k q + 1)) 0 8 0
  s.wr (Reg.qstat t c k q) st

/-- Takes one credit of a route (03 R82). -/
def State.takeCredit (s : State) (r : Src) : State :=
  let a := Reg.credit r.tile (s.phys r.tile r.core) r.ctx r.route
  s.wrF a 0 7 (s.rdF a 0 7 - 1)

/-- A chunk that completes a flit takes a credit (03 R82); one of a multicast push takes a single one while any of the flits it
completed is held. -/
def State.chunkCredit (s : State) (f : Flit) : State :=
  match f.src with
  | none => s
  | some r =>
    if f.len = 0 then s
    else if r.mid = 0 then s.takeCredit r
    else
      let n := SMap.get 0 s.ant.mcast r.mid
      let s := { s with ant.mcast := SMap.set 0 s.ant.mcast r.mid (n + 1) }
      if n = 0 then s.takeCredit r else s

/-- The route whose credit a flit on its way holds: a chunk holds none (03 R82). -/
def Flit.credit (f : Flit) : Option Src := if f.len = 0 then f.src else none

/-- Writes a chunk into the tail flit (03 R71, R81): a chunk that names a unit already set is dropped, with the credit of a full flit
returned, and the tail flit poisoned; the flit completes, takes its credit and advances TAIL when all eight units are set, or at once in a queue that
does not gather. The flit that gathered chunks make has the event tag, LAST and route of the last of them (DESIGN CHOICE, log 36: R81 names
none). -/
def State.qChunk (s : State) (t c k q : Nat) (f : Flit) : State :=
  let st := s.rd (Reg.qstat t c k q)
  let tail := fld st 8 6
  let a := s.slotAddr t c k q tail
  let len := if f.len = 0 then 8 else f.len
  let mask := ((2 ^ len - 1) * 2 ^ f.off) % 256
  let x := s.sideAt a
  if Nat.land (fld st 0 8) mask ≠ 0 then
    ((s.setSide a { x with poison := true }).raise Code.chunkOverlap { die := t, unit := c, ctx := k, sub := q }
      (s.eventOf f.tag) (detailQ (queueNo t c k q) f.tag.toNat)).giveBack f.credit
  else
    let bs := (bytesLE (4 * len) f.data.toNat).take (32 - 4 * f.off)
    let s := (s.wrBytes (a + 4 * f.off) bs).markBytes (a + 4 * f.off) (List.replicate bs.length false)
    let g := Nat.lor (fld st 0 8) mask
    let s := s.setSide a ⟨f.tag, f.last, x.poison || f.poison, f.src, f.fires ++ x.fires⟩
    if g = 255 ∨ s.qGather t c k q = false then
      let st := setFld (setFld (setFld st 8 6 ((tail + 1) % max 1 (s.qDepth t c k q))) 24 7 (s.qHeld t c k q + 1)) 0 8 0
      (s.wr (Reg.qstat t c k q) st).chunkCredit f
    else s.wr (Reg.qstat t c k q) (setFld st 0 8 g)

/-- VALID of a context on a core (03 Table 3.6). -/
def State.ctxValid (s : State) (t c k : Nat) : Bool := bit (s.rd (Reg.ctxCfg t c k)) 31

/-- Flushes a flit that its destination does not accept: counted, reported, its credit returned (06 R158, R162). -/
def State.stale (s : State) (t c k q : Nat) (f : Flit) : State :=
  ((s.bump (Reg.ctxrStale k)).raise Code.staleFlit { die := t, unit := c, ctx := k, sub := q } (s.eventOf f.tag)
    (detailQ (queueNo t c k q) f.tag.toNat)).giveBack f.credit

/-- A flit or chunk arrives at a core (06 R157, R158; 03 R81; 05 R137): the queue of its context tag takes it, a slot that
is not VALID or a queue that is not enabled flushes it, an SFU result that finds the queue full is dropped. A flit that finds
no room otherwise has had no credit; the credits of R82 keep that from happening, and it waits. -/
def State.arrive (s : State) (t c : Nat) (f : Flit) (result : Bool) : Option State :=
  let k := f.ctx
  let q := f.dq
  if !s.ctxValid t c k then some (s.stale t c k q f)
  else if !s.qEn t c k q then
    some (((s.bump (Reg.ctxrStale k)).raise Code.ctxTagMismatch { die := t, unit := c, ctx := k, sub := q } (s.eventOf f.tag)
      (detailQ (queueNo t c k q) f.tag.toNat)).giveBack f.credit)
  else if s.qHeld t c k q < s.qDepth t c k q then
    some (if f.len = 0 ∧ s.qGather t c k q = false then s.qPut t c k q f else s.qChunk t c k q f)
  else if result then
    some (s.raise Code.sfuResultDrop { die := t, unit := c, ctx := k, sub := q } (s.eventOf f.tag)
      (detailQ (queueNo t c k q) f.tag.toNat))
  else none

/-- Removes every flit of a queue; `loud` says whether each is a STALE_FLIT (06 R162, R163). -/
def State.qFlush (s : State) (t c k q : Nat) (loud : Bool) : Nat → State
  | 0 => s
  | n + 1 =>
    match s.qHead t c k q with
    | none => s.wrF (Reg.qstat t c k q) 0 8 0
    | some f =>
      let s := if loud then (s.bump (Reg.ctxrStale k)).raise Code.staleFlit { die := t, unit := c, ctx := k, sub := q }
                    (s.eventOf f.tag) (detailQ (queueNo t c k q) f.tag.toNat) else s
      (s.qPop t c k q).qFlush t c k q loud n

/-- Whether a context is eligible on a core (03 R77). -/
def State.eligible (s : State) (t c k : Nat) : Bool :=
  s.ctxValid t c k && !(s.ant.firings.any (fun f => f.tile == t && f.core == c)) &&
  (List.range 8).all (fun q =>
    let need := s.rdF (Reg.ctxNeed t c k q) (8 * (q % 4)) 8
    need == 0 || decide (need ≤ s.qCount t c k q)) &&
  (List.range 16).all (fun r =>
    let w := s.rd (Reg.route t c k r)
    !bit w 31 || decide (fld w 7 7 ≤ s.rdF (Reg.credit t c k r) 0 7))

/-- The queues a firing names (NEED not 0), lowest first. -/
def State.named (s : State) (t c k : Nat) : List Nat :=
  (List.range 8).filter (fun q => s.rdF (Reg.ctxNeed t c k q) (8 * (q % 4)) 8 != 0)

/-- The flits of a push on a route (03 Table 3.8, R86): one for a core, stop, port or line, a copy for each destination of a
tree. -/
def State.expandRoute (s : State) (fi : Firing) (r : Nat) (data : BitVec 256) (off len : Nat) (last poison : Bool) :
    State × List MeshItem :=
  let w := s.rd (Reg.route fi.tile fi.core fi.ctx r)
  let lc := (s.logical fi.tile fi.core).getD 0
  let src : Src := ⟨fi.tile, lc, fi.ctx, r, 0⟩
  let flit := fun (dq mid : Nat) =>
    ({ data := data, tag := fi.tag, ctx := fi.ctx, dq := dq, off := off, len := len, last := last,
       poison := poison || fi.poisoned, src := some { src with mid := mid }, fires := [fi.serial], pc := fi.pc } : Flit)
  let item := fun (d : Dest) => ({ flit := flit (fld w 25 3) 0, dest := d, result := false } : MeshItem)
  match fld w 28 3 with
  | 0 => (s, [item (.core fi.tile (16 * fld w 20 5 + fld w 16 4))])
  | 1 =>
    match s.ant.trees.find? (fun e => e.2.tile == fi.tile && e.2.id == fld w 16 8) with
    | some e =>
      let ds := bitsOf e.2.mask 512
      let mid := s.ant.nextMid + 1
      ({ s with ant.nextMid := mid, ant.mcast := SMap.set 0 s.ant.mcast mid (if len = 0 then ds.length else 0) },
       ds.map (fun d => { flit := flit e.2.dq mid, dest := .core fi.tile d, result := false }))
    | none => (s, [])
  | 2 => (s, [item (.stop (fld w 16 9))])
  | 3 => (s, [item (.store fi.tile (fld w 16 2))])
  | 4 => (s, [item (.decision fi.tile (fld w 16 8))])
  | _ => (s, [])

/-- The digest taps record every flit their routes push (16 R417). -/
def State.tapPush (s : State) (fi : Firing) (r : Nat) (data : BitVec 256) (poison : Bool) : State :=
  if !bit (s.rd Reg.twinCfg) 31 then s
  else
    let lc := (s.logical fi.tile fi.core).getD 0
    { s with twin.tapped := s.twin.tapped ++
        (((List.range s.twin.taps.length).filter (fun i => s.twin.taps[i]? == some (fi.tile, lc, fi.ctx, r))).map
          (fun i => (s.tickId, i, data, s.eventOf fi.tag, poison))) }

/-- Pushes one flit, which takes a credit, or one chunk, which takes none until it completes a flit (03 R82). -/
def State.push (s : State) (fi : Firing) (r : Nat) (data : BitVec 256) (off len : Nat) (last poison : Bool) : State :=
  let (s, items) := s.expandRoute fi r data off len last poison
  let s := State.tapPush { s with ant.mesh := s.ant.mesh ++ items } fi r data (poison || fi.poisoned)
  if len = 0 then
    let a := Reg.credit fi.tile fi.core fi.ctx r
    s.wrF a 0 7 (s.rdF a 0 7 - 1)
  else s

/-- The byte address of a descriptor line named by AUX (04 R106). -/
def State.auxLine (s : State) (f : Firing) (aux : Nat) : Nat := s.rdF (Reg.ctxBoundLo f.tile f.core f.ctx) 0 18 + 32 * aux

/-- The firing in the cycle of step `i` of the instruction it issues. -/
def Firing.step (f : Firing) (i : Nat) : Firing := { f with clk := f.clk + i }

/-- The bytes an operand supplies in step `i` of an instruction: core store advances by STEP lines, a queue gives and pops
as many flits as the bytes need, a vector register gives its 64 bytes, an immediate its FP32 value in every word
(03 Tables 3.2, 3.3; log 16). Poison found in a register names its place. -/
def State.srcBytes (s : State) (f : Firing) (d step i n : Nat) : Got :=
  let f := f.step i
  if dKind d = Kind.store then s.csRead f (dAddr d + 32 * step * i) n
  else if dKind d = Kind.vreg then
    let x := s.vrSeen f (dReg d)
    let y := s.vrSeen f (dReg d + 1)
    ⟨s, (bytesLE 64 x.1.toNat ++ bytesLE 64 y.1.toNat).take n,
     (List.range (min n 128)).map (fun b => if b < 64 then nbit x.2 (b / 4) else nbit y.2 (b % 64 / 4)),
     regPlace f (if x.2 = 0 then dReg d + 1 else dReg d)⟩
  else if dKind d = Kind.queue then
    (List.range (ceilDiv n 32)).foldl (fun (g : Got) _ =>
      let a := g.st.slotAddr f.tile f.core f.ctx (dQueue d) (g.st.rdF (Reg.qstat f.tile f.core f.ctx (dQueue d)) 16 6)
      match g.st.qHead f.tile f.core f.ctx (dQueue d) with
      | some fl => ⟨g.st.qPop f.tile f.core f.ctx (dQueue d), g.bytes ++ bytesLE 32 fl.data.toNat,
                    g.marks ++ List.replicate 32 fl.poison, if g.poison then g.at' else a⟩
      | none => ⟨g.st, g.bytes ++ (List.range 32).map (fun j => Config.poisonByte (a + j)), g.marks ++ List.replicate 32 true,
                 if g.poison then g.at' else a⟩) ⟨s, [], [], 0⟩
  else if dKind d = Kind.imm then
    ⟨s, (List.range (ceilDiv n 4)).flatMap (fun _ => bytesLE 4 (dImm d).toNat), List.replicate n false, 0⟩
  else ⟨s, List.replicate n 0, List.replicate n false, 0⟩

/-- The address that an operand names in core store; a register, a queue and an immediate name none. -/
def srcAddr (f : Firing) (d : Nat) : Option Nat :=
  if dKind d = Kind.store then some (Reg.coreBase f.tile f.core + dAddr d) else none

/-- FP32 lanes with their poison mask, the state that reading them leaves, and where the first poisoned one was found. -/
structure Lanes where
  st : State
  vals : List W32
  mask : Nat
  at' : Nat

/-- The state after poisoned lanes that were read are consumed (07 R201). -/
def Lanes.used (l : Lanes) (f : Firing) : State := if l.mask = 0 then l.st else l.st.consume f l.at'

/-- The mask of the lanes that 64 marked bytes make. -/
def laneMask (marks : List Bool) : Nat := natOf 16 (fun i => ((marks.drop (4 * i)).take 4).any id)

/-- The FP32 lanes of a vector operand: a register, an immediate in every lane, or a pair of core-store lines. -/
def State.srcLanes (s : State) (f : Firing) (d : Nat) : Lanes :=
  if dKind d = Kind.vreg then
    let x := s.vrSeen f (dReg d)
    ⟨s, lanesOf x.1, x.2, regPlace f (dReg d)⟩
  else if dKind d = Kind.imm then ⟨s, List.replicate 16 (dImm d), 0, 0⟩
  else
    let g := s.srcBytes f d 0 0 64
    ⟨g.st, (List.range 16).map (fun i => BitVec.ofNat 32 (ofBytesLE ((g.bytes.drop (4 * i)).take 4))), laneMask g.marks, g.at'⟩

end Sys2Proof.Machine
end

