-- ==== Sys2Proof/Machine/MemOps.lean ====
section
/-! DEFINITION. The device address map and accesses of the host and other class-S requesters (07 R184 to R190), error
correction and poison (R197 to R201), and the entries of the pattern banks (08 R214, R215). -/

namespace Sys2Proof.Machine

/-- A region of Table 7.1. -/
inductive Region where
  | none | core | store | pattern | hbm | tileReg | csr | remote
  deriving DecidableEq, Repr

/-- The region that holds a byte address; reserved and unmapped addresses have none (07 Tables 7.1 to 7.3, 08 R214). -/
def regionOf (a : Nat) : Region :=
  if a < 0x100000000 then
    let o := a % 0x10000000
    if o < 0x8800000 then
      (if o % 0x40000 < 0x3C000 then .core else if (regRow (a - a % 4)).isSome then .tileReg else .none)
    else if (regRow (a - a % 4)).isSome then .tileReg else .none
  else if a < 0x140000000 then .store
  else if 0x200000000 ≤ a ∧ a < 0x210000000 then (if a % 0x4000000 < 0x2000000 then .pattern else .none)
  else if Reg.csr ≤ a ∧ a < Reg.csr + 0x10000000 then (if (regRow (a - a % 4)).isSome then .csr else .none)
  else if 0x10000000000 ≤ a ∧ a < 0x14800000000 then .hbm
  else if 0x800000000000 ≤ a ∧ a < 0x1000000000000 then .remote
  else .none

/-- Whether a region is a byte-addressed memory. -/
def Region.isMem : Region → Bool
  | .core | .store | .pattern | .hbm => true
  | _ => false

/-- The memory kind of an address: 0 core store, instruction RAM and queue RAM, 1 Store, 2 HBM, 3 pattern banks (07 R203). -/
def memKind (a : Nat) : Nat :=
  if a < 0x100000000 then 0 else if a < 0x140000000 then 1 else if a < 0x210000000 then 3 else 2

/-- The die that holds an address. -/
def dieOf (a : Nat) : Nat :=
  if a < 0x100000000 then a / 0x10000000
  else if a < 0x140000000 then Die.store ((a - 0x100000000) / 0x10000000)
  else if a < 0x210000000 then Die.pattern ((a - 0x200000000) / 0x4000000)
  else if a < 0x310000000 then Die.hub
  else Die.hbm ((a - 0x10000000000) / 0x900000000)

/-- The unit within the die: the core of a tile. -/
def unitOf (a : Nat) : Nat := if a < 0x100000000 then a % 0x10000000 / 0x40000 else 0

def uncorrCode (kind : Nat) : Nat :=
  match kind with
  | 0 => Code.coreUncorr
  | 1 => Code.storeUncorr
  | 2 => Code.hbmUncorr
  | _ => Code.patternUncorr

/-- The code word that holds an address (07 Table 7.6; 08 R215): a 64-bit word of a core's memories, the row of a Store line, a burst of
HBM, or half a pattern entry. -/
def codeWord (a : Nat) : Nat :=
  if memKind a = 0 then a - a % 8
  else if memKind a = 3 then a - a % 32 + (if a % 32 < 10 ∨ a % 32 = 20 then 0 else 10)
  else a - a % 32

/-- What the codes find in a word with errors (07 Table 7.6): every code corrects one bit, of an HBM burst one byte. A Store row
interleaves four words, of which word w holds the physical bits w, w + 4, ...: `n` is there the mask of wrong bits of its 288, elsewhere
their number. A line with a word past correction is uncorrectable once. More errors than a code detects have no outcome in the spec,
and count as uncorrectable (DESIGN CHOICE, log 9). -/
def eccOf (a n : Nat) : List EccResult :=
  if memKind a = 1 then
    let per := (List.range 4).map (fun w => popcount (natOf 72 (fun j => nbit n (4 * j + w))) 72)
    (per.filter (fun x => x == 1)).map (fun _ => .corrected) ++ (if per.any (fun x => decide (2 ≤ x)) then [.uncorrectable] else [])
  else if n = 0 then [] else if n = 1 then [.corrected] else [.uncorrectable]

/-- The outcome of one code word read at an address (07 R198, R199): a corrected one is written back corrected, an uncorrectable one
poisons its granule. -/
def State.eccAt (s : State) (a : Nat) (r : EccResult) (requester : Nat) : State :=
  let k := memKind a
  match r with
  | .clean => s
  | .corrected =>
    let s := s.bumpF (Reg.scrub k + 0xC) 0 16 1
    { s with banks.eccWin := s.banks.eccWin.mapIdx (fun i n => if i = k then n + 1 else n) }
  | .uncorrectable =>
    ((s.bumpF (Reg.scrub k + 0xC) 16 16 1).setPoison (granule a) 1 true).raiseNow (uncorrCode k)
      { die := dieOf a, unit := unitOf a } (detailA a (tensorOf s.ant.tensors a) requester)

/-- Findings with those of one code word taken together. -/
def joined (l : Findings) : Findings :=
  l.foldl (fun acc e =>
    if acc.any (fun x => codeWord x.1 == codeWord e.1) then
      acc.map (fun x => if codeWord x.1 = codeWord e.1 then (x.1, if memKind e.1 = 1 then Nat.lor x.2 e.2 else x.2 + e.2) else x)
    else acc ++ [e]) []

/-- What the codes find in the words that an access reads (07 R197 to R199). -/
def State.found (s : State) (l : Findings) (requester : Nat) : State :=
  (joined l).foldl (fun t e => (eccOf e.1 e.2).foldl (fun u r => u.eccAt e.1 r requester) t) s

/-- The findings in a range of addresses. -/
def within (l : Findings) (a n : Nat) : Findings := l.filter (fun e => decide (a ≤ e.1 ∧ e.1 < a + n))

/-- ADDR_FAULT of a requester at an address (07 R186). -/
def State.addrFault (s : State) (a requester : Nat) : State :=
  s.raiseNow Code.addrFault { die := Die.hub } (detailA a (tensorOf s.ant.tensors a) requester)

/-- ADDR_FAULT of a request that an instruction of a core made (07 R186): by tile, core, context and instruction address. -/
def State.coreFault (s : State) (tile lcore ctx pc a : Nat) : State :=
  s.raiseNow Code.addrFault { die := tile, unit := s.phys tile lcore, ctx := ctx } (detailA a (tensorOf s.ant.tensors a) pc)

/-! The requester ids of Table 7.9. -/
namespace Req
def loader := 0x050
def reconf := 0x051
def host := 0x052
def scrub := 0x053
def scarab := 0x054
def subst := 0x056
end Req

/-- The number of a pattern entry's place: sub-bank b (global) and entry e (08 R214). -/
def patAddr (b e : Nat) : Nat := 0x200000000 + (b / 16) * 0x4000000 + (b % 16) * 0x200000 + e * 32

/-- The check bits of half an entry; those of a zero half are zero, as in every linear code (08 R215, log 11). -/
def halfEcc (x : Nat) : Nat := if x % 2 ^ 80 = 0 then 0 else (Config.patEcc (BitVec.ofNat 80 x)).toNat

/-- The entry at an address as 256 bits: ECC[7:0] over KEY[79:0], ECC[15:8] over KEY[95:80] and VALUE (08 R215, log 11). -/
def State.patEntry (s : State) (a : Nat) : Nat :=
  let w := s.rdLE a 32
  w + halfEcc w * 2 ^ 160 + halfEcc (w / 2 ^ 80) * 2 ^ 168

/-- A copy of VALID that disagrees with the majority counts as a corrected error, and is written back corrected (08 R215, 07 R198). -/
def State.fixValid (s : State) (a requester : Nat) : State :=
  let w := s.rdLE a 32
  let v := bits w 176 3
  if v = 0 ∨ v = 7 then s
  else
    let maj := if v = 3 ∨ v = 5 ∨ v = 6 then 7 else 0
    (s.wrLE a 32 (w - v * 2 ^ 176 + maj * 2 ^ 176)).eccAt a .corrected requester

/-- An entry is read: what its codes find, and its copies of VALID. -/
def State.readEntry (s : State) (a requester : Nat) (ecc : Findings) : State := (s.found (within ecc a 32) requester).fixValid a requester

/-- What the codes find in `n` bytes that an access reads, and in the copies of VALID of the entries among them (07 R198, R199; 08
R215). -/
def State.readCodes (s : State) (a n requester : Nat) (ecc : Findings) : State :=
  ((((List.range n).map (fun i => a + i)).filter (fun x => regionOf x == .pattern)).map granule).eraseDups.foldl
    (fun t e => t.fixValid e requester) (s.found (within ecc a n) requester)

/-- Writes an entry: KEY, VALUE and the three copies of VALID (08 R215). -/
def State.patPut (s : State) (a key value : Nat) (valid : Bool) : State :=
  (s.wrLE a 32 (key % 2 ^ 96 + (value % 2 ^ 64) * 2 ^ 96 + (if valid then 7 * 2 ^ 176 else 0))).setPoison a 32 false

/-- The byte a memory read returns. -/
def State.memByte (s : State) (a : Nat) : W8 :=
  if regionOf a = .pattern ∧ (a % 32 = 20 ∨ a % 32 = 21) then BitVec.ofNat 8 (s.patEntry (a - a % 32) / 2 ^ (8 * (a % 32)))
  else s.rdB a

/-- A class-S read of `n` bytes: the bytes and their marks; an address that has no memory raises ADDR_FAULT and
reads poisoned (07 R186, R200). -/
def State.memRead (s : State) (a n requester : Nat) : Got :=
  if (List.range n).all (fun i => (regionOf (a + i)).isMem) then
    ⟨s, (List.range n).map (fun i => s.memByte (a + i)), (List.range n).map (fun i => s.isPoisonAt (a + i)), a⟩
  else ⟨s.addrFault a requester, (List.range n).map (fun i => Config.poisonByte (a + i)), List.replicate n true, a⟩

/-- A write of bytes, all clean or all poisoned (07 R199, R200). -/
def State.memWrite (s : State) (a : Nat) (bs : List W8) (poison : Bool) : State :=
  (s.wrBytes a bs).markBytes a (List.replicate bs.length poison)

/-- A write of a line under its byte mask, of which a byte it leaves is none; poison enters with a byte, and a line written whole takes
the mark of its data (07 R187, R199, R200). -/
def State.lineWrite (s : State) (a : Nat) (bs : List (Option W8)) (poison : Bool) : State :=
  if bs.all Option.isSome then s.memWrite a (bs.map (fun b => b.getD 0)) poison
  else
    let s := s.wrCells ((List.range bs.length).filterMap (fun i => (bs.getD i none).map (fun b => (a + i, b))))
    if poison && bs.any Option.isSome then s.setPoison a bs.length true else s

/-- The HBM stack that holds an address (07 Table 7.1). -/
def stackOf (a : Nat) : Nat := (a - 0x10000000000) / 0x900000000

/-- Whether an address lies in a stack in self-refresh, which takes no transfer (07 R190). -/
def State.asleep (s : State) (a : Nat) : Bool :=
  match regionOf a with
  | .hbm => nbit s.pwr.asleep (stackOf a)
  | _ => false

/-- Whether a range meets a stack in self-refresh. -/
def State.asleepIn (s : State) (a n : Nat) : Bool := s.asleep a || s.asleep (a + n - 1)

end Sys2Proof.Machine
end

