-- ==== Sys2Proof/Machine/Arb.lean ====
section
/-! DEFINITION. Arbitration (07 R206 to R212) and background scrub (07 R202, R203). Cycles are those of the resource's own clock. -/

namespace Sys2Proof.Machine

/-- Whether an arbiter is mapped (07 R212). -/
def arbOk (i : Nat) : Bool := decide (i < 0x140 ∨ (0x180 ≤ i ∧ i < 0x1F3) ∨ (0x200 ≤ i ∧ i < 0x240))

/-- The die at a Store port or a stop of a Store die, by its arbiter. -/
def arbStore (i : Nat) : Option Nat :=
  if 0x100 ≤ i ∧ i < 0x140 then some ((i - 0x100) / 16) else if 0x1D0 ≤ i ∧ i < 0x1E0 then some ((i - 0x1D0) / 4) else none

/-- The pseudo-channel of an HBM address (07 R189, R212): its stack, and bits [12:8] of the offset within it. -/
def pseudoOf (a : Nat) : Nat := 32 * stackOf a + (a - 0x10000000000) % 0x900000000 / 256 % 32

/-- Whether a transfer may carry an access (07 R187, R189): bursts of one 256-byte run of a pseudo-channel, lines of the Store die of the
port, or one entry of the sub-bank. -/
def accessOk (i len : Nat) (q : ArbAccess) : Bool :=
  decide (q.addr % 32 = 0) && (match q.data with | some d => d.length == 32 * len | none => true) &&
  (if i < 0x100 then regionOf q.addr == .hbm && pseudoOf q.addr == i && decide (q.addr % 256 + 32 * len ≤ 256)
   else if i < 0x200 then
     (match arbStore i with
      | some k => (List.range len).all (fun j => regionOf (q.addr + 32 * j) == .store && (q.addr + 32 * j - 0x100000000) / 0x10000000 == k)
      | none => false)
   else regionOf q.addr == .pattern && q.data.isNone && q.addr == patAddr (i - 0x200) (q.addr % 0x200000 / 32))

/-! Reserved slots in an arbiter's cycles (07 R192, R196, R208). -/

/-- The direction of a transfer at a Store port: 0 to the die, 1 from it. -/
def ArbReq.dir (r : ArbReq) : Nat := match r.acc with | some ⟨_, none, _⟩ => 1 | _ => 0

/-- The flits that a resource can pass in one of its cycles beside its reserved slots: a stop one per NOP cycle, a Store port two per FAB
cycle and direction, a sub-bank one lookup per PAT cycle beside those of class T (R196; 08 R219), a pseudo-channel one. A frame begins with
each strobe. -/
def State.arbRoom (s : State) (i dir cyc : Nat) : Nat :=
  let taken := fun (p : Nat → Bool) => (s.ant.slots.filter (fun e => e.2.port == i && p e.2.slot)).length
  if 0x100 ≤ i ∧ i < 0x140 then
    let o := (cyc - s.tod.tickFab) % max 1 s.cTick
    2 - taken (fun sl => sl / 4 == o && sl % 4 / 2 == dir)
  else if 0x180 ≤ i ∧ i < 0x200 then
    let o := (cyc - 3 * s.tod.tickFab / 2) % max 1 (3 * s.cTick / 2)
    1 - taken (fun sl => sl == o)
  else if 0x200 ≤ i then
    let o := (cyc - s.tod.tickFab / 2) % max 1 (s.cTick / 2)
    1 - (s.banks.patSlots.filter (fun e => e.2.bank + 0x200 == i && e.2.frame == o)).length
  else 1

/-- The cycle in which the last of `left` flits passes, from cycle `cyc` on: the transfer is suspended over reserved slots. -/
def State.arbLast (s : State) (i dir : Nat) : Nat → Nat → Nat → Nat
  | 0, cyc, _ => cyc
  | n + 1, cyc, left =>
    let room := s.arbRoom i dir cyc
    if left ≤ room then cyc else s.arbLast i dir n (cyc + 1) (left - room)

/-- Whether a requester may use a resource: the Warden's stop serves class S only (07 Table 7.4). -/
def arbServes (i id : Nat) : Bool := decide (i ≠ 0x1F2 ∨ 0x50 ≤ id)

/-- Whether a resource takes transfers: a pseudo-channel of a stack in self-refresh takes none (07 R190). -/
def State.arbAwake (s : State) (i : Nat) : Bool := decide (0x100 ≤ i) || !nbit s.pwr.asleep (i / 32)

/-- Whether a requester exists (07 Table 7.9). -/
def requesterOk (id : Nat) : Bool := decide (id < 0x057 ∨ (0x100 ≤ id ∧ id < 0x104) ∨ (0x140 ≤ id ∧ id < 0x180))

def ArbSt.new (i : Nat) : ArbSt :=
  { ix := i, waiting := [], holder := none, guarded := false, lastAt := [], losses := [], earliest := 0, lastCyc := 0 }

def State.arb (s : State) (i : Nat) : ArbSt := (s.banks.arbs.find? (fun a => a.ix == i)).getD (ArbSt.new i)

def State.setArb (s : State) (a : ArbSt) : State :=
  { s with banks.arbs := s.banks.arbs.filter (fun x => x.ix != a.ix) ++ [a] }

/-- The priority of a requester (07 R206). -/
def State.prio (s : State) (id : Nat) : Nat := s.rdF (Reg.reqPrio id) 0 3

/-- The priority with which a holder was granted, which a later raise does not change (07 R211). -/
def State.holdPrio (s : State) (i : Nat) : Nat := s.rdF (Reg.arb i) 27 3

/-- ARB_STAT. -/
def State.arbStat (s : State) (i : Nat) (holding parked : Bool) (prio owner : Nat) : State :=
  s.wr (Reg.arb i) (BitVec.ofNat 32 ((if holding then 2 ^ 31 else 0) + (if parked then 2 ^ 30 else 0) + prio * 2 ^ 27 + owner))

/-- The lines that a granted read takes of a Store port or stop, each with the FAB cycle in which it is served (07 R188); NoP cycles are two
thirds of a FAB cycle. -/
def State.arbLines (s : State) (i cyc : Nat) (r : ArbReq) : List (Nat × Nat × Option (List W8 × Bool)) :=
  match r.acc with
  | some ⟨a, none, _⟩ =>
    if (arbStore i).isNone then []
    else (List.range r.len).map (fun j =>
      let y := s.arbLast i r.dir (64 * (s.ant.slots.length + 1)) cyc (j + 1)
      ((if i < 0x180 then y else 2 * y / 3), a + 32 * j, none))
  | _ => []

/-- A line as it reads now, with its poison. -/
def State.lineNow (s : State) (a : Nat) : List W8 × Bool := (s.rdBytes a 32, s.isPoison a 32)

/-- The lines of reads that hold Store ports and stops are served up to FAB cycle `f`, as memory stands (07 R188): those of the requesters
that a condition names. -/
def State.serveLines (s : State) (f : Nat) (who : Nat → Bool) : State :=
  { s with banks.arbs := s.banks.arbs.map (fun x =>
      if x.holder.any (fun r => who r.id) then
        { x with lines := x.lines.map (fun e => if e.2.2.isNone && decide (e.1 < f) then (e.1, e.2.1, some (s.lineNow e.2.1)) else e) }
      else x) }

/-- Before a write to Store: the reads of earlier cycles have seen their lines, and of its own cycle those of class A come before a write
of class S (07 R188). -/
def State.beforeWrite (s : State) (classS : Bool) : State :=
  let t := s.serveLines s.tod.fab (fun _ => true)
  if classS then t.serveLines (s.tod.fab + 1) (fun id => decide (id < 0x50)) else t

/-- The holder loses its grant (07 R209): its transfer waits again, to restart from its first flit. -/
def State.arbRevoke (s : State) (i from' : Nat) : State :=
  let a := s.arb i
  match a.holder with
  | some r =>
    let s := s.setArb { a with holder := none, guarded := false, waiting := a.waiting ++ [r], earliest := from', lines := [],
                               losses := SMap.set 0 a.losses r.id (SMap.get 0 a.losses r.id + 1) }
    (s.bump (Reg.arb i + 8)).arbStat i false false 0 r.id
  | none => s

/-- ARB_REQUEST (07 R207, R209): a request of strictly higher priority revokes a holder that is not protected. A class-A record for a
stack in self-refresh makes no request: its source drops it (R190, R204). -/
def State.arbRequest (s : State) (i id len cyc : Nat) (acc : Option ArbAccess) : State :=
  let a := s.arb i
  if (id < 0x50 ∧ s.arbAwake i = false) ∨ cyc < a.lastCyc ∨ a.waiting.any (fun r => r.id == id) ∨ a.holder.any (fun r => r.id == id) then s
  else
    let s := s.setArb { a with waiting := a.waiting ++ [⟨id, len, cyc, acc⟩], lastCyc := cyc }
    if a.holder.isSome && !a.guarded && decide (s.holdPrio i < s.prio id) then s.arbRevoke i (cyc + 2) else s

/-- A transfer's largest length (07 R208): 64 flits at a Store port or NoP egress, 8 bursts on a pseudo-channel, one lookup. -/
def arbLenOk (i len : Nat) : Bool := decide (1 ≤ len ∧ len ≤ if i < 0x100 then 8 else if i < 0x200 then 64 else 1)

def execArbRequest (arb id len cyc : Nat) (s : State) (acc : Option ArbAccess := none) : Host.Outcome State Fault Refusal :=
  s.onUnit (arbOk arb && requesterOk id && arbServes arb id && arbLenOk arb len && acc.all (accessOk arb len))
    (if s.hubOn then s.arbRequest arb id len cyc acc else s)

/-- Whether a waiting request may be granted in a cycle (07 R207): two cycles after it was presented, one for the parked owner where no
other request of equal or higher priority waits. -/
def State.arbRipe (s : State) (i cyc : Nat) (r : ArbReq) : Bool :=
  decide (r.at' + 2 ≤ cyc) ||
  (bit (s.rd (Reg.arb i)) 30 && s.rdF (Reg.arb i) 0 9 == r.id && decide (r.at' + 1 ≤ cyc) &&
   !(s.arb i).waiting.any (fun x => x.id != r.id && decide (s.prio r.id ≤ s.prio x.id)))

/-- The request that a decision grants (07 R206): of the highest priority, the first after the last one granted at that level. -/
def State.arbPick (s : State) (i cyc : Nat) : Option ArbReq :=
  let a := s.arb i
  let ripe := a.waiting.filter (s.arbRipe i cyc)
  let top := ripe.foldl (fun m r => max m (s.prio r.id)) 0
  let last := SMap.get 0 a.lastAt top
  let turn := fun (r : ArbReq) => if last ≤ r.id then r.id - last else r.id + 512 - last
  match ripe.filter (fun r => s.prio r.id == top) with
  | [] => none
  | r :: rs => some (rs.foldl (fun b x => if turn x < turn b then x else b) r)

/-- ARB_GRANT (07 R206, R207, R210): a decision of a resource that no transfer holds, in a cycle that no reserved slot takes (R27).
`lastAt` holds one more than the requester last granted at a level, `earliest` one more than the cycle of the last flit. -/
def State.arbGrant (s : State) (i cyc : Nat) : State :=
  let a := s.arb i
  if a.holder.isSome ∨ cyc < a.earliest ∨ cyc < a.lastCyc ∨ s.arbAwake i = false then s
  else match s.arbPick i cyc with
    | none => s
    | some r =>
      if s.arbRoom i r.dir cyc = 0 then s else
      let last := s.arbLast i r.dir (64 * (s.ant.slots.length + 1)) cyc r.len
      let limit := s.rdF (Reg.arb i + 0x14) 0 5
      let guarded := decide (limit ≠ 0 ∧ limit ≤ SMap.get 0 a.losses r.id)
      let p := s.prio r.id
      let s := s.setArb { a with waiting := a.waiting.erase r, holder := some r, guarded := guarded, earliest := last + 1,
                                 lines := s.arbLines i cyc r, lastCyc := cyc, lastAt := SMap.set 0 a.lastAt p (r.id + 1) }
      let s := (s.wrapBy (Reg.arb i + 4) 1).arbStat i true false p r.id
      let s := if guarded then s.bump (Reg.arb i + 0xC) else s
      if (s.rd (Reg.arb i + 0x10)).toNat < cyc - r.at' then s.wr (Reg.arb i + 0x10) (BitVec.ofNat 32 (cyc - r.at')) else s

def execArbGrant (arb cyc : Nat) (s : State) : Host.Outcome State Fault Refusal :=
  s.onUnit (arbOk arb) (if s.hubOn then s.arbGrant arb cyc else s)

/-- The access of a transfer takes effect when its last flit passes (07 R209): a write changes memory line by line, a read is delivered
whole, a Store line as it stood in the cycle that served it (R188). -/
def State.arbAccess (s : State) (r : ArbReq) (lines : List (Nat × Nat × Option (List W8 × Bool))) (ecc : Findings) : State :=
  match r.acc with
  | none => s
  | some ⟨a, some bs, bad⟩ =>
    (List.range (ceilDiv bs.length 32)).foldl (fun t j => t.lineWrite (a + 32 * j) ((bs.drop (32 * j)).take 32) (nbit bad j))
      (s.beforeWrite (decide (0x50 ≤ r.id)))
  | some ⟨a, none, _⟩ =>
    let n := 32 * (if r.len = 0 then 1 else r.len)
    let t := s.readCodes a n r.id ecc
    if lines.isEmpty then
      let g := t.memRead a n r.id
      { g.st with banks.arbReads := g.st.banks.arbReads ++ [(r.id, a, g.bytes, g.poison)] }
    else
      let got := lines.map (fun e => e.2.2.getD (t.lineNow e.2.1))
      let hurt := (joined (within ecc a n)).any (fun e => (eccOf e.1 e.2).contains .uncorrectable)
      { t with banks.arbReads := t.banks.arbReads ++ [(r.id, a, got.flatMap (·.1), hurt || got.any (·.2))] }

/-- ARB_TRANSFER_END (07 R207, R208): the last flit or burst of the holder passes in cycle `cyc`; the grant parks where none waits. -/
def State.arbEnd (s : State) (i cyc : Nat) (ecc : Findings) : State :=
  let a := s.arb i
  match a.holder with
  | some r =>
    if cyc + 1 < a.earliest then s
    else
      let s := s.setArb { a with holder := none, guarded := false, earliest := cyc + 1, lastCyc := cyc, lines := [],
                                 losses := SMap.set 0 a.losses r.id 0 }
      (s.arbStat i false a.waiting.isEmpty 0 r.id).arbAccess r a.lines ecc
  | none => s

def execArbTransferEnd (arb cyc : Nat) (s : State) (ecc : Findings := []) : Host.Outcome State Fault Refusal :=
  s.onUnit (arbOk arb) (if s.hubOn then s.arbEnd arb cyc ecc else s)

/-- REQ_PRIO (07 R211): waiting requests use the new value at the next decision; a holder lowered below a waiter is revoked. -/
def State.setPrio (s : State) (id : Nat) (v : W32) : State :=
  let old := s.prio id
  let s := s.wr (Reg.reqPrio id) (BitVec.ofNat 32 (fld v 0 3))
  if old ≤ fld v 0 3 then s
  else s.banks.arbs.foldl (fun t a =>
    if a.holder.any (fun r => r.id == id) && !a.guarded && a.waiting.any (fun r => decide (fld v 0 3 < t.prio r.id)) then
      t.arbRevoke a.ix (a.lastCyc + 1)
    else t) s

def execReqPrio (id : Nat) (v : W32) (s : State) : Host.Outcome State Fault Refusal :=
  s.onUnit (requesterOk id) (if s.hubOn then s.setPrio id v else s)

/-! Scrub (07 R202). -/

/-- Whether scrub of a memory kind runs: enabled, and not paused by shedding (17 Table 17.1). -/
def State.scrubOn (s : State) (kind : Nat) : Bool := s.hubOn && bit (s.rd (Reg.scrub kind)) 31 && decide (s.shedStage = 0)

/-- SCRUB_READ: one location is read, corrected and written back, or poisoned. A stack in self-refresh answers nothing. -/
def execScrubRead (addr : Nat) (ecc : Findings) (s : State) : Host.Outcome State Fault Refusal :=
  s.onUnit (regionOf addr).isMem
    (if s.scrubOn (memKind addr) && !(regionOf addr == .hbm && s.asleep addr) then
      (if regionOf addr == .pattern then s.readEntry (granule addr) Req.scrub ecc
       else s.found (within ecc (granule addr) (if addr < 0x100000000 then 8 else 32)) Req.scrub)
    else s)

/-- SCRUB_PASS_END: a pass of `seconds` ends. -/
def execScrubPassEnd (kind seconds : Nat) (s : State) : Host.Outcome State Fault Refusal :=
  s.onUnit (decide (kind < 4))
    (if s.scrubOn kind then
      let s := s.wrapBy (Reg.scrub kind + 4) 1
      if s.rdF (Reg.scrub kind) 0 16 < seconds then s.bump (Reg.scrub kind + 8) else s
    else s)

end Sys2Proof.Machine
end

