-- ==== Sys2Proof/Machine/Cmd.lean ====
section
/-! DEFINITION. The command processor (15): the opcode and legality table, the status codes, the signature check and the
one operation by which a command packet that passed steps 1 to 6 of Table 15.3 is judged, executed and answered. -/

namespace Sys2Proof.Machine

namespace Status
def ok := 0x0000
def accepted := 0x0001
def pktCrc := 0x0101
def pktLength := 0x0102
def pktReserved := 0x0103
def opcodeUnknown := 0x0104
def targetUnknown := 0x0105
def sequenceError := 0x0106
def transportDenied := 0x0107
def tagInUse := 0x0108
def asyncFull := 0x0109
def stateIllegal := 0x0201
def ctxState := 0x0202
def tickNotLocked := 0x0203
def linkNotReady := 0x0204
def twinRequired := 0x0205
def shedActive := 0x0206
def superseded := 0x0207
def resourceBusy := 0x0208
def sigRequired := 0x0301
def sigInvalid := 0x0302
def sigStale := 0x0303
def sigWrongPart := 0x0304
def debugLocked := 0x0305
def valueRange := 0x0401
def addrInvalid := 0x0402
def laneInUse := 0x0501
def busNotQuiet := 0x0502
def busTickDiffers := 0x0503
def busNoMaster := 0x0504
def patBusy := 0x0505
def patFull := 0x0506
def patNeedsGen := 0x0507
def partnerUnknown := 0x0508
def shedNotHeld := 0x0509
def selftestFail := 0x050A
def fused := 0x050B
def fwInvalid := 0x050C
def imgFormat := 0x0901
def imgSignature := 0x0902
def imgTarget := 0x0903
def tickMismatch := 0x0904
def fieldRange := 0x0905
def fallbackInvalid := 0x0906
def relocFault := 0x0907
def allocOver := 0x0908
def latencyMismatch := 0x0909
def loadNoSpace := 0x090A
def loadSequence := 0x090B
def patchRange := 0x090C
def loadMedia := 0x090D
def loaderBusy := 0x090E
end Status

namespace Op
def sysNop := 0x0000
def sysInfo := 0x0001
def sysState := 0x0002
def sysReset := 0x0003
def regRead := 0x0004
def regWrite := 0x0005
def sigTable := 0x0006
def tickConfig := 0x0100
def tickIdSet := 0x0101
def loadBegin := 0x0200
def loadChunk := 0x0201
def relocate := 0x0202
def patch := 0x0203
def commit := 0x0204
def unload := 0x0205
def loadInfo := 0x0206
def arm := 0x0300
def start := 0x0301
def drain := 0x0302
def stop := 0x0303
def resume := 0x0304
def laneConfig := 0x0400
def laneTrain := 0x0401
def lanePower := 0x0402
def laneGroup := 0x0403
def lanePrbs := 0x0404
def laneInject := 0x0405
def laneEye := 0x0406
def linkPersonality := 0x0407
def meshRoute := 0x0408
def linkField := 0x0409
def linkAggregate := 0x040A
def feConfig := 0x0500
def primConfig := 0x0501
def primSet := 0x0502
def clickConfig := 0x0503
def clickCal := 0x0504
def combConfig := 0x0505
def condSet := 0x0506
def trigEnable := 0x0507
def busConfig := 0x0508
def busCal := 0x0509
def busComp := 0x050A
def busAlign := 0x050B
def busTxMap := 0x050C
def acqConfig := 0x0600
def acqArm := 0x0601
def acqDisarm := 0x0602
def chgConfig := 0x0603
def acqStream := 0x0604
def acqStats := 0x0605
def timeSet := 0x0700
def timeStep := 0x0701
def timeInc := 0x0702
def timeHoldover := 0x0703
def ppsConfig := 0x0704
def tsConfig := 0x0705
def ptpConfig := 0x0706
def timeFrame := 0x0707
def timeFrameRead := 0x0708
def twinConfig := 0x0800
def admitPartner := 0x0801
def twinStatus := 0x0802
def twinHandover := 0x0803
def twinDisable := 0x0804
def pwrStatus := 0x0900
def feedConfig := 0x0901
def loopConfig := 0x0902
def attest := 0x0A00
def ownerKey := 0x0A01
def fuseBlow := 0x0A02
def fwUpdateBegin := 0x0A03
def fwUpdateChunk := 0x0A04
def fwUpdateCommit := 0x0A05
def eventLogRead := 0x0A06
def sensorRead := 0x0A07
def coreRetire := 0x0B00
def coreReturn := 0x0B01
def selftest := 0x0B02
def debugRead := 0x0B03
def debugWrite := 0x0B04
def patRead := 0x0C00
def patWrite := 0x0C01
def patInsert := 0x0C02
def patDelete := 0x0C03
def patGenSwitch := 0x0C04
def patSync := 0x0C05
def patStats := 0x0C06
end Op

/-- A row of Table 15.10: first and last opcode, the states (bit = code of Table 15.8) in which it is legal, Sig, Async. -/
structure OpRow where
  first : Nat
  last : Nat
  states : Nat
  sig : Bool
  async : Bool
  deriving DecidableEq, Repr

/-- Table 15.10. Boot is bit 1, Idle 2, Loaded 3, Armed 4, Running 5, Draining 6, Halted 7, Safe 8. -/
def opTable : List OpRow :=
  [ ⟨0x0000, 0x0003, 0x1FE, false, false⟩, ⟨0x0004, 0x0006, 0xFC, false, false⟩
  , ⟨0x0100, 0x0101, 0x04, false, false⟩
  , ⟨0x0200, 0x0200, 0x7C, true, false⟩, ⟨0x0201, 0x0203, 0x7C, false, false⟩, ⟨0x0204, 0x0204, 0x7C, true, true⟩
  , ⟨0x0205, 0x0205, 0xFC, false, false⟩, ⟨0x0206, 0x0206, 0x7C, false, false⟩
  , ⟨0x0300, 0x0301, 0x78, false, true⟩, ⟨0x0302, 0x0302, 0x20, false, true⟩, ⟨0x0303, 0x0303, 0x70, false, true⟩
  , ⟨0x0304, 0x0304, 0xFC, false, true⟩
  , ⟨0x0400, 0x0405, 0xFC, false, false⟩, ⟨0x0406, 0x0406, 0xFC, false, true⟩, ⟨0x0407, 0x0407, 0x04, false, false⟩
  , ⟨0x0408, 0x040A, 0x0C, false, false⟩
  , ⟨0x0500, 0x0500, 0x04, false, false⟩, ⟨0x0501, 0x0501, 0x0C, false, false⟩, ⟨0x0502, 0x0502, 0x7C, false, false⟩
  , ⟨0x0503, 0x0503, 0x0C, false, false⟩, ⟨0x0504, 0x0504, 0x0C, false, true⟩, ⟨0x0505, 0x0505, 0x0C, false, false⟩
  , ⟨0x0506, 0x0506, 0x7C, false, false⟩, ⟨0x0507, 0x0507, 0xFC, false, false⟩, ⟨0x0508, 0x0508, 0x04, false, false⟩
  , ⟨0x0509, 0x0509, 0x04, false, true⟩, ⟨0x050A, 0x050A, 0x04, false, false⟩, ⟨0x050B, 0x050B, 0x04, false, true⟩
  , ⟨0x050C, 0x050C, 0x0C, false, false⟩
  , ⟨0x0600, 0x0600, 0x0C, false, false⟩, ⟨0x0601, 0x0601, 0x7C, false, false⟩, ⟨0x0602, 0x0602, 0xFC, false, false⟩
  , ⟨0x0603, 0x0604, 0x0C, false, false⟩, ⟨0x0605, 0x0605, 0xFC, false, false⟩
  , ⟨0x0700, 0x0703, 0xFC, false, false⟩, ⟨0x0704, 0x0706, 0x0C, false, false⟩, ⟨0x0707, 0x0708, 0xFC, false, false⟩
  , ⟨0x0800, 0x0800, 0x04, false, false⟩, ⟨0x0801, 0x0801, 0x0C, true, true⟩, ⟨0x0802, 0x0802, 0xFC, false, false⟩
  , ⟨0x0803, 0x0803, 0xF8, false, true⟩, ⟨0x0804, 0x0804, 0x04, false, false⟩
  , ⟨0x0900, 0x0900, 0x1FE, false, false⟩, ⟨0x0901, 0x0901, 0x0C, false, false⟩, ⟨0x0902, 0x0902, 0xFC, false, false⟩
  , ⟨0x0A00, 0x0A00, 0x1FE, false, true⟩, ⟨0x0A01, 0x0A01, 0x04, true, false⟩, ⟨0x0A02, 0x0A02, 0x04, true, true⟩
  , ⟨0x0A03, 0x0A03, 0x106, true, false⟩, ⟨0x0A04, 0x0A04, 0x106, false, false⟩, ⟨0x0A05, 0x0A05, 0x106, true, true⟩
  , ⟨0x0A06, 0x0A07, 0x1FE, false, false⟩
  , ⟨0x0B00, 0x0B01, 0x7C, false, true⟩, ⟨0x0B02, 0x0B02, 0x04, false, true⟩, ⟨0x0B03, 0x0B03, 0xFC, false, false⟩
  , ⟨0x0B04, 0x0B04, 0x0C, false, false⟩
  , ⟨0x0C00, 0x0C00, 0xF8, false, false⟩, ⟨0x0C01, 0x0C04, 0x78, false, false⟩, ⟨0x0C05, 0x0C05, 0x78, false, true⟩
  , ⟨0x0C06, 0x0C06, 0x78, false, false⟩ ]

def opRow (op : Nat) : Option OpRow := opTable.find? (fun r => decide (r.first ≤ op ∧ op ≤ r.last))

/-- Whether an opcode is defined (15 R408). -/
def opDefined (op : Nat) : Bool := (opRow op).isSome

/-- Whether an opcode is legal in a device state (Table 15.10). -/
def opLegal (op : Nat) (d : DevState) : Bool :=
  match opRow op with
  | some r => nbit r.states d.code
  | none => false

def opSigned (op : Nat) : Bool :=
  match opRow op with
  | some r => r.sig
  | none => false

def opAsync (op : Nat) : Bool :=
  match opRow op with
  | some r => r.async
  | none => false

/-- A rejection: its status, the payload word at fault (0xFFFF when none) and DETAIL [15:0] (15 R381). -/
structure Rej where
  status : Nat
  word : Nat
  info : Nat
  deriving DecidableEq, Repr

def rej (status : Nat) (info : Nat := 0) (word : Nat := 0xFFFF) : Rej := ⟨status, word, info⟩

/-- The DETAIL word of a rejection (15 R381). -/
def Rej.detail (r : Rej) : W32 := BitVec.ofNat 32 (r.word * 65536 + r.info % 65536)

/-- The first of several checks that fails. -/
def firstRej : List (Bool × Rej) → Option Rej
  | [] => none
  | (ok, r) :: rest => if ok then firstRej rest else some r

/-- The first of several checks, evaluated in order. -/
def orRej (a b : Option Rej) : Option Rej := match a with | some r => some r | none => b

/-- The part's identity fingerprint (18 R449, 16 R412): the digest of the 96 bytes X, Y (DEDUCED, log 33: R461 gives public keys as those
bytes, R412 says only uncompressed). -/
def identityFp : BitVec 384 := sha384 ((List.range 96).map (fun i => Config.identityKey.extractLsb' (8 * (95 - i)) 8))

/-- The checks of R385 on a signature block, in order. `bare` is the slot that OWNER_KEY installs: on a part without a provisioned
slot, KEY_SLOT must name it and the key comes with the command (18 R454). -/
def State.sigCheck (s : State) (b : SigBlock) (bare : Option Nat) : Option Rej :=
  let slot := s.owners.getD b.keySlot { key := none, counter := 0 }
  let held := if s.owners.any (fun o => o.key.isSome) then slot.key.isSome else bare == some b.keySlot
  firstRej
    [ (decide (b.keySlot < 4) && held && b.alg == 1, rej Status.sigInvalid)
    , (b.bind == 0 || b.bind == (identityFp.extractLsb' 0 64).toNat, rej Status.sigWrongPart)
    , (b.verifies, rej Status.sigInvalid)
    , (decide (slot.counter < b.counter), rej Status.sigStale) ]

/-- The Warden stores COUNTER when the four checks pass (15 R385). -/
def State.sigStore (s : State) (b : SigBlock) : State :=
  { s with owners := s.owners.mapIdx (fun i o => if i = b.keySlot then { o with counter := b.counter } else o) }

/-- Whether a transport is served in the present device state (15 Table 15.8). -/
def State.served (s : State) : Transport → Bool
  | .spi => s.dev.state != .off
  | .pcie => s.hubOn
  | .inband _ _ => s.hubOn

/-- Commands never taken in-band (15 R398). -/
def noInband (op : Nat) : Bool := [0x0A02, 0x0A03, 0x0A04, 0x0A05, 0x0B03, 0x0B04].elem op

/-- Step 6 of Table 15.3. -/
def State.transportOk (s : State) (tr : Transport) (op : Nat) : Bool :=
  match tr with
  | .inband g _ => bit (s.rd (Reg.inbandMask g)) (g % 32) && !noInband op
  | _ => true

/-- Takes the packet of a command out of those that wait, and frees the SPI buffer it held (15 R397). -/
def State.take (s : State) (h : Hdr) (op : Nat) : State :=
  let w0 : W32 := BitVec.ofNat 32 (h.tag * 65536 + op)
  let s := match findIx (fun (f : Fetched) => f.transport == h.transport && f.words.head? == some w0) s.host.fetched with
    | some i => { s with host.fetched := s.host.fetched.eraseIdx i }
    | none => s
  match h.transport with
  | .spi => { s with host.spiFull := false }
  | _ => s

/-- What a command does when it passes every check: the state, the reply's payload, for an asynchronous command what it names and
its strobe, whether its reply comes later, and what follows the reply. -/
structure Effect where
  st : State
  out : List W32 := []
  mask : Nat := 0
  tick : W32 := 0
  late : Bool := false
  after : State → State := id

def State.rejectWith (s : State) (h : Hdr) (op : Nat) (r : Rej) : State :=
  s.reply h.transport h.tag op false r.status [r.detail]

/-- Steps 6 to 9 of Table 15.3 on a command packet: a rejection, or none (15 R382). SIGNED on an unsigned command is
PKT_RESERVED (R379). -/
def State.judge (s : State) (h : Hdr) (op : Nat) : Option Rej :=
  firstRej
    [ (opSigned op || h.sig.isNone, rej Status.pktReserved 2)
    , (s.transportOk h.transport op, rej Status.transportDenied)
    , (opLegal op s.dev.state, rej Status.stateIllegal)
    , (!opSigned op || h.sig.isSome, rej Status.sigRequired) ]

/-- Step 8 of Table 15.3 for a signed command: the rejection, or none (15 R385). -/
def State.judgeSig (s : State) (h : Hdr) (bare : Option Nat) : Option Rej :=
  match h.sig with
  | some b => s.sigCheck b bare
  | none => none

/-- A signed command rejected at step 8 counts in SIG_FAILS and raises SIG_REJECT (18 Tables 18.5, 18.6). -/
def State.sigFail (s : State) (op : Nat) (r : Rej) : State :=
  (s.bump Reg.sigFails).raiseNow Code.sigReject { die := Die.warden } (detailY op 0 r.status)

def State.sigKeep (s : State) (h : Hdr) : State :=
  match h.sig with
  | some b => s.sigStore b
  | none => s

/-- Step 9 of Table 15.3. -/
def State.judgeSlot (s : State) (h : Hdr) (op : Nat) : Option Rej :=
  firstRej
    [ (!(s.host.async.any (fun a => a.transport == h.transport && a.tag == h.tag)), rej Status.tagInUse)
    , (!opAsync op || decide (s.host.async.length < 64), rej Status.asyncFull) ]

/-- The answer to a command that passed every check: OK for a synchronous one (QUIET suppresses it), ACCEPTED and an
outstanding entry for an asynchronous one (15 R379, R386). -/
def State.answer (h : Hdr) (op : Nat) (e : Effect) : State :=
  e.after
    (if opAsync op then
      let a : Async := ⟨h.transport, h.tag, op, e.mask, e.tick⟩
      let s := { e.st with host.async := e.st.host.async ++ [a] }
      s.reply h.transport h.tag op false Status.accepted e.out
    else if h.quiet || e.late then e.st
    else e.st.reply h.transport h.tag op false Status.ok e.out)

/-- IMAGE_UID of the staged image once its header has come, 0 before (09 R252). -/
def State.stagedUid (s : State) : Nat :=
  match s.loader.staged with
  | some g =>
    if (List.range 4).all (fun i => g.got.any (fun (e : Nat × Nat) => decide (e.1 ≤ 32 * i ∧ 32 * i + 32 ≤ e.2)))
    then s.rdLE (0x14600000000 + g.base + 0x28) 8 else 0
  | none => 0

/-- A refusal of the loader writes its record (09 R252): the code of Table 9.10, the detail word and IMAGE_UID. -/
def State.noteRej (s : State) (op : Nat) (r : Rej) : State :=
  if 0x0200 ≤ op ∧ op ≤ 0x0206 ∧ 0x0901 ≤ r.status ∧ r.status ≤ 0x090E then
    s.raiseNow (r.status + 0x8700) { die := Die.hub } (r.detail.toNat + s.stagedUid * 2 ^ 32)
  else s

/-- In Boot ROM recovery every command outside this list that Boot permits completes with FW_INVALID (18 R451); ATTEST, which is
asynchronous, says so in its completion. -/
def romServes (op : Nat) : Bool := decide (op ≤ Op.sysReset ∨ op = Op.attest ∨ (Op.fwUpdateBegin ≤ op ∧ op ≤ Op.eventLogRead))

/-- Judges, executes and answers a command packet (15 Table 15.3, steps 6 to 10). A rejected packet has no side effect but
its reply, the loader record of a refusal of the loader, and, at step 8 or later, what R385 says of signatures. -/
def State.serveKey (s : State) (h : Hdr) (op : Nat) (bare : Option Nat) (check : State → Option Rej) (eff : State → Effect) : State :=
  if !s.served h.transport then s
  else
    let s := s.take h op
    match s.judge h op with
    | some r => s.rejectWith h op r
    | none =>
      match s.judgeSig h bare with
      | some r => (s.sigFail op r).rejectWith h op r
      | none =>
        let s := s.sigKeep h
        match s.judgeSlot h op with
        | some r => s.rejectWith h op r
        | none =>
          match (if s.warden.romOnly && !romServes op then some (rej Status.fwInvalid) else check s) with
          | some r => (s.noteRej op r).rejectWith h op r
          | none => State.answer h op (eff s)

def State.serve (s : State) (h : Hdr) (op : Nat) (check : State → Option Rej) (eff : State → Effect) : State :=
  s.serveKey h op none check eff

/-- A command without checks of its own. -/
def noCheck : State → Option Rej := fun _ => none

/-- The rule R161 gives for a named strobe: 0 asks for TICK_ID + 2, any other value must be at least that. -/
def State.strobeOk (s : State) (d : W32) : Bool := d == 0 || decide (2 ≤ tickDiff d s.tickId)

/-- The strobe in force for a named one (06 R161). -/
def State.strobeOf (s : State) (d : W32) : W32 := if d = 0 then s.tickPlus 2 else d

/-- The next strobe. -/
def State.nextStrobe (s : State) : W32 := s.tickPlus 1

end Sys2Proof.Machine
end

