-- ==== Sys2Proof/Machine/Fec.lean ====
section
/-! DEFINITION. The codes of the line: the scrambler (10 R259), the test patterns (10 R287) and the Calwiza short FEC (11 R303). The spec
gives the Reed-Solomon code and neither the order of a symbol's bits nor of the two bits of an interval: log 21. -/

namespace Sys2Proof.Machine

/-! The scrambler. -/

/-- The self-synchronising scrambler x^58 + x^39 + 1 on `k` bits, bit 0 first (10 R259): the line bits and the last 58 of them, the newest
lowest. -/
def scrambleBits (w : Nat) : Nat → Nat → Nat → Nat → Nat × Nat
  | 0, _, sr, out => (out, sr)
  | k + 1, i, sr, out =>
    let o := (w / 2 ^ i % 2 + sr / 2 ^ 38 % 2 + sr / 2 ^ 57 % 2) % 2
    scrambleBits w k (i + 1) ((2 * sr + o) % 2 ^ 58) (out + o * 2 ^ i)

/-- The self-synchronising descrambler x^58 + x^39 + 1 on `k` bits, bit 0 first (10 R259): the output and the last 58 line
bits, the newest lowest. -/
def descrambleBits (w : Nat) : Nat → Nat → Nat → Nat → Nat × Nat
  | 0, _, sr, out => (out, sr)
  | k + 1, i, sr, out =>
    let b := (w / 2 ^ i) % 2
    let o := (b + (sr / 2 ^ 38) % 2 + (sr / 2 ^ 57) % 2) % 2
    descrambleBits w k (i + 1) ((2 * sr + b) % 2 ^ 58) (out + o * 2 ^ i)

/-! Test patterns (10 R287). -/

/-- The order of a pattern's polynomial and its middle term, by POLY. -/
def prbsPoly : Nat → Nat × Nat
  | 0 => (7, 6)
  | 1 => (9, 5)
  | 2 => (15, 14)
  | 3 => (23, 18)
  | _ => (31, 28)

/-- The next bit of a pattern after the bits in a register, the newest lowest. -/
def prbsNext (poly reg : Nat) : Bool := nbit reg ((prbsPoly poly).1 - 1) != nbit reg ((prbsPoly poly).2 - 1)

/-- The register after one more bit. -/
def prbsShift (reg : Nat) (b : Bool) : Nat := (2 * reg + if b then 1 else 0) % 2 ^ 31

/-- The first bits of a pattern that continues a register. -/
def prbsSeq (poly : Nat) : Nat → Nat → List Bool
  | 0, _ => []
  | k + 1, reg => prbsNext poly reg :: prbsSeq poly k (prbsShift reg (prbsNext poly reg))

/-! The field GF(2^10) with polynomial x^10 + x^3 + 1. -/

/-- A product. -/
def gfMul (a b : Nat) : Nat :=
  (List.range 10).foldr (fun i p => Nat.xor (if 1024 ≤ 2 * p then Nat.xor (2 * p) 0x409 else 2 * p) (if nbit b i then a else 0)) 0

/-- A power of α = x. -/
def gfAlpha (k : Nat) : Nat := (List.range (k % 1023)).foldl (fun p _ => gfMul p 2) 1

/-- The inverse: the power 2^10 - 2. -/
def gfInv (a : Nat) : Nat :=
  ((List.range 9).foldl (fun (e : Nat × Nat) _ => (gfMul e.1 (gfMul e.2 e.2), gfMul e.2 e.2)) (1, a)).1

/-- The value of a polynomial, highest coefficient first. -/
def gfEval (x : Nat) (p : List Nat) : Nat := p.foldl (fun v c => Nat.xor (gfMul v x) c) 0

/-- A sum of polynomials, lowest coefficient first. -/
def polyAdd : List Nat → List Nat → List Nat
  | [], q => q
  | p, [] => p
  | a :: p, b :: q => Nat.xor a b :: polyAdd p q

def polyScale (c : Nat) (p : List Nat) : List Nat := p.map (gfMul c)

/-- A product of polynomials, lowest coefficient first. -/
def polyMul : List Nat → List Nat → List Nat
  | [], _ => []
  | a :: p, q => polyAdd (polyScale a q) (0 :: polyMul p q)

/-! RS(140,130). -/

/-- The generator: the product of x - α^i for i from 0 to 9, lowest coefficient first. -/
def rsGen : List Nat := (List.range 10).foldl (fun g i => polyMul g [gfAlpha i, 1]) [1]

/-- The ten check symbols of a message, highest first: the remainder of the message times x^10. -/
def rsCheck (msg : List Nat) : List Nat :=
  (msg.foldl (fun (r : List Nat) m =>
    let f := Nat.xor m (r.getD 9 0)
    (polyAdd (0 :: r.take 9) (polyScale f (rsGen.take 10)))) (List.replicate 10 0)).reverse

/-- The codeword of a message of 130 symbols. -/
def rsEncode (msg : List Nat) : List Nat := msg ++ rsCheck msg

/-- The syndromes of a word of 140 symbols. -/
def rsSyndromes (c : List Nat) : List Nat := (List.range 10).map (fun i => gfEval (gfAlpha i) c)

/-- The state of the search for the error locator: the locator and the one before its last change, its length, the steps since that
change, and the discrepancy then. -/
structure Locator where
  cur : List Nat
  old : List Nat
  len : Nat
  gap : Nat
  disc : Nat

/-- One syndrome taken into the locator (the shortest shift register that makes the syndromes). -/
def Locator.take (l : Locator) (syn : List Nat) (n : Nat) : Locator :=
  let d := (List.range (l.len + 1)).foldl (fun a i => Nat.xor a (gfMul (l.cur.getD i 0) (if i ≤ n then syn.getD (n - i) 0 else 0))) 0
  if d = 0 then { l with gap := l.gap + 1 }
  else
    let next := polyAdd l.cur (List.replicate l.gap 0 ++ polyScale (gfMul d (gfInv l.disc)) l.old)
    if 2 * l.len ≤ n then { cur := next, old := l.cur, len := n + 1 - l.len, gap := 1, disc := d }
    else { l with cur := next, gap := l.gap + 1 }

/-- The word that differs from a received one in at most 5 symbols and is a codeword, and in how many it differs; none: the word cannot be
corrected. -/
def rsDecode (c : List Nat) : Option (List Nat × Nat) :=
  let syn := rsSyndromes c
  if syn.all (· == 0) then some (c, 0)
  else
    let l := (List.range 10).foldl (fun (l : Locator) n => l.take syn n) { cur := [1], old := [1], len := 0, gap := 1, disc := 1 }
    let at' := fun (p : List Nat) (x : Nat) => gfEval x p.reverse
    let omega := (polyMul syn l.cur).take 10
    let slope := l.cur.mapIdx (fun i a => if i % 2 = 1 then a else 0)
    let fixed := c.mapIdx (fun j s =>
      let y := gfInv (gfAlpha (139 - j))
      if at' l.cur y = 0 then Nat.xor s (gfMul (at' omega y) (gfInv (at' slope y))) else s)
    let n := ((c.zip fixed).filter (fun e => e.1 != e.2)).length
    if l.len ≤ 5 && n == l.len && (rsSyndromes fixed).all (· == 0) then some (fixed, n) else none

/-! Codewords on the line. -/

/-- Symbols of a number of bits, first symbol lowest. -/
def symbolsOf (k w : Nat) : List Nat := (List.range k).map (fun j => w / 2 ^ (10 * j) % 1024)

def ofSymbols (l : List Nat) : Nat := l.foldr (fun a v => a + 1024 * v) 0

/-- The 1,300 message bits of 20 blocks, each transcoded to 65 bits: 1 first for a control block. -/
def fecMessage (bl : List (Nat × W64)) : Nat :=
  bl.foldr (fun b v => (if b.1 = 2 then 1 else 0) + 2 * b.2.toNat + 2 ^ 65 * v) 0

/-- The blocks of message bits. -/
def fecBlocksOf (m : Nat) : List (Nat × W64) :=
  (List.range 20).map (fun k =>
    let v := m / 2 ^ (65 * k) % 2 ^ 65
    (if v % 2 = 1 then 2 else 1, BitVec.ofNat 64 (v / 2)))

/-- The 1,400 bits of the codeword of 20 blocks. -/
def fecEncode (bl : List (Nat × W64)) : Nat := ofSymbols (rsEncode (symbolsOf 130 (fecMessage bl)))

/-- The PAM4 levels of codeword bits, two to an interval, Gray-coded. -/
def grayLevels (k w : Nat) : List Nat :=
  (List.range k).map (fun u => 2 * (w / 2 ^ (2 * u) % 2) + (w / 2 ^ (2 * u) % 2 + w / 2 ^ (2 * u + 1) % 2) % 2)

/-- The bits of PAM4 levels. -/
def grayBits (l : List Nat) : Nat := l.foldr (fun a v => a / 2 % 2 + 2 * ((a / 2 + a) % 2) + 4 * v) 0

/-- The blocks of a received codeword and the symbols corrected. -/
def fecDecode (levels : List Nat) : Option (List (Nat × W64) × Nat) :=
  (rsDecode (symbolsOf 140 (grayBits levels))).map (fun e => (fecBlocksOf (ofSymbols (e.1.take 130)), e.2))

end Sys2Proof.Machine
end

