-- ==== Sys2Proof/Machine/Line.lean ====
section
/-! DEFINITION. Lanes and lane groups as the registers have them (10 Tables 10.7, 10.8), and what their transmitters put on the line: bit
positions, injected errors, test patterns, coding, markers, and the blocks of frames and fast blocks in their order (10 R259, R273, R287,
R288; 11 R293 to R295, R303, R304). Positions count from reset at the line rate: block `p` of a lane leaves in bits 66 p to 66 p + 65,
on a PAM4 lane in codeword p / 20 of 1,400 bits (log 21). -/

namespace Sys2Proof.Machine

def State.lane (s : State) (n : Nat) : LaneSt := SMap.get LaneSt.init s.link.lanes n
def State.setLane (s : State) (n : Nat) (l : LaneSt) : State := { s with link.lanes := SMap.set LaneSt.init s.link.lanes n l }
def State.mapLane (s : State) (n : Nat) (f : LaneSt → LaneSt) : State := s.setLane n (f (s.lane n))

def State.grpSt (s : State) (g : Nat) : GroupSt := SMap.get GroupSt.init s.link.groups g
def State.setGrp (s : State) (g : Nat) (x : GroupSt) : State := { s with link.groups := SMap.set GroupSt.init s.link.groups g x }

/-! Fields of LANE_STATE and LANE_CFG (10 Table 10.7). -/

namespace Rx
def off := 0
def training := 1
def locked := 2
def aligned := 3
def hold := 4
def down := 5
end Rx

def State.rxState (s : State) (n : Nat) : Nat := s.rdF (Reg.laneState n) 29 3
def State.setRx (s : State) (n v : Nat) : State := s.wrF (Reg.laneState n) 29 3 v
def State.txState (s : State) (n : Nat) : Nat := s.rdF (Reg.laneState n) 27 2
def State.setTx (s : State) (n v : Nat) : State := s.wrF (Reg.laneState n) 27 2 v
def State.lockState (s : State) (n : Nat) : Nat := s.rdF (Reg.laneState n) 24 3
def State.setLock (s : State) (n v : Nat) : State := s.wrF (Reg.laneState n) 24 3 v
def State.trainStep (s : State) (n : Nat) : Nat := s.rdF (Reg.laneState n) 20 4
def State.setStep (s : State) (n v : Nat) : State := s.wrF (Reg.laneState n) 20 4 v
def State.inGroup (s : State) (n : Nat) : Bool := bit (s.rd (Reg.laneState n)) 7
def State.laneMode (s : State) (n : Nat) : Nat := s.rdF (Reg.laneCfg n) 26 3
def State.laneRate (s : State) (n : Nat) : Nat := s.rdF (Reg.laneCfg n) 29 3
def State.calwiza (s : State) (n : Nat) : Bool := s.laneMode n == 1 || s.laneMode n == 2
def State.laneGrp (s : State) (n : Nat) : Option Nat :=
  if bit (s.rd (Reg.laneCfg n)) 15 then some (s.rdF (Reg.laneCfg n) 9 6) else none
def State.lanePos (s : State) (n : Nat) : Nat := s.rdF (Reg.laneCfg n) 5 4

/-- The lanes of a group in position order (10 Table 10.8). -/
def State.grpLanes (s : State) (g : Nat) : List Nat :=
  if bit (s.rd (Reg.grpCfg g)) 31 then
    let e := s.rdF (Reg.grpCfg g) 16 2
    let mask := (s.rd (Reg.grpLanesLo g)).toNat + s.rdF (Reg.grpLanesHi g) 0 4 * 2 ^ 32
    let ls := ((List.range 36).filter (nbit mask)).map (fun i => 36 * e + i)
    (List.range 16).filterMap (fun p => ls.find? (fun n => s.lanePos n == p))
  else []

def State.grpParity (s : State) (g : Nat) : Bool := bit (s.rd (Reg.grpCfg g)) 30

/-- The data lanes of a group: all but the last position where the group has parity (11 R294, R295; log 21). -/
def State.dataLanes (s : State) (g : Nat) : List Nat :=
  let ls := s.grpLanes g
  if s.grpParity g then ls.take (ls.length - 1) else ls

def State.grpState (s : State) (g : Nat) : Nat := s.rdF (Reg.grpStat g) 30 2
def State.declSkew (s : State) (g : Nat) : Nat := s.rdF (Reg.grpCfg g) 18 6

/-- Whether a group is Aligned or Protected (10 Table 10.8). -/
def State.grpReady (s : State) (g : Nat) : Bool := s.grpState g == 1 || s.grpState g == 2

def laneLoc (n : Nat) : Loc := { die := Die.edge (n / 36), unit := n }

/-- A code of a lane (10 R290), DETAIL layout L. -/
def State.raiseLane (s : State) (code n v : Nat) : State :=
  s.raiseNow code (laneLoc n)
    (detailL n ((s.laneGrp n).getD 0) v (s.rdF (Reg.laneState n) 0 6))

/-- A code of a group: its lane field is 0xFF. -/
def State.raiseGrp (s : State) (code g v : Nat) : State :=
  s.raiseNow code { die := Die.edge (s.rdF (Reg.grpCfg g) 16 2), unit := g } (detailL 0xFF g v 0)

/-! Bits on a lane. -/

/-- The bits of a lane in a FAB cycle, as a fraction: its line rate over 1.6 GHz (10 Table 10.1; 01 Table 1.3). -/
def bitsPerFab : Nat → Nat × Nat
  | 0 => (825, 128)
  | 1 => (4125, 256)
  | 2 => (1125, 64)
  | 3 => (1125, 32)
  | 4 => (2125, 32)
  | _ => (1125, 16)

/-- The bits a block takes at a rate: 66, or a twentieth of a codeword. -/
def blockBits (rate : Nat) : Nat := if rate < 4 then 66 else 70

/-- The bit of a lane's line that the FAB cycle reached stands at. -/
def State.bitAt (s : State) (n : Nat) : Nat := s.tod.fab * (bitsPerFab (s.laneRate n)).1 / (bitsPerFab (s.laneRate n)).2

/-- The block that it stands at. -/
def State.blockNow (s : State) (n : Nat) : Nat := s.bitAt n / blockBits (s.laneRate n)

/-! Error injection (10 R288). -/

/-- INJ_COUNT as it stands: with what rate injection has flipped since it was last brought up to date, one bit in 2^RATE_LOG2. -/
def State.injNow (s : State) (n : Nat) : W32 :=
  s.rd (Reg.injCount n) +
    BitVec.ofNat 32 (if (s.lane n).injecting then (s.bitAt n - (s.lane n).injFrom) / 2 ^ s.rdF (Reg.injCfg n) 18 6 else 0)

/-- The flipped bits among `len` bits of a lane's line from bit `p` on, bit 0 the first: of single errors and bursts, and the last of each
2^RATE_LOG2 bits while rate injection runs. -/
def State.flipMask (s : State) (n p len : Nat) : Nat :=
  let l := s.lane n
  if l.flips.isEmpty && !l.injecting then 0
  else natOf len (fun i => l.flips.any (fun r => decide (r.1 ≤ p + i ∧ p + i < r.1 + r.2)) ||
    (l.injecting && decide (l.injFrom ≤ p + i) && (p + i + 1 - l.injFrom) % 2 ^ s.rdF (Reg.injCfg n) 18 6 == 0))

/-! Test patterns (10 R287). -/

/-- The bits that a PRBS lane sends, `k` of them from the bit of the line on at which its generator started: the pattern, inverted with INV,
and with the bits that injection flips. -/
def State.prbsSent (s : State) (n k : Nat) : List Bool :=
  let w := s.rd (Reg.prbsCfg n)
  if s.laneMode n = 4 ∧ bit w 31 ∧ s.txState n = 2 then
    let m := s.flipMask n (s.lane n).prbsFrom k
    (prbsSeq (fld w 26 3) k (s.lane n).prbsReg).mapIdx (fun i b => (b != bit w 29) != nbit m i)
  else []

/-- One received bit at the self-synchronising checker: it is compared with what the bits before it say; CHK_LOCK is set after 64 clean bits
and cleared after 64 errors within 1,024 bits, and while it is set bits and errors count. -/
def State.checkBit (s : State) (n : Nat) (b : Bool) : State :=
  let cfg := s.rd (Reg.prbsCfg n)
  let l := s.lane n
  let b := b != bit cfg 29
  let full := decide ((prbsPoly (fld cfg 26 3)).1 ≤ l.chkFill)
  let err := full && prbsNext (fld cfg 26 3) l.chkReg != b
  let l := { l with chkReg := prbsShift l.chkReg b, chkFill := if full then l.chkFill else l.chkFill + 1, chkBits := l.chkBits + 1 }
  if bit (s.rd (Reg.prbsStat n)) 31 then
    let c := (s.rd (Reg.prbsBits n 0)).toNat + (s.rd (Reg.prbsBits n 1)).toNat * 2 ^ 32 + 1
    let s := (s.wr (Reg.prbsBits n 0) (BitVec.ofNat 32 c)).wr (Reg.prbsBits n 1) (BitVec.ofNat 32 (c / 2 ^ 32))
    let s := if err then s.bump (Reg.prbsErrs n) else s
    let es := (l.chkErrs.filter (fun x => decide (l.chkBits < x + 1024))) ++ (if err then [l.chkBits] else [])
    if es.length < 64 then s.setLane n { l with chkErrs := es }
    else (s.wr (Reg.prbsStat n) 0).setLane n { l with chkErrs := [], chkRun := 0 }
  else if err || !full then s.setLane n { l with chkRun := 0 }
  else if l.chkRun + 1 < 64 then s.setLane n { l with chkRun := l.chkRun + 1 }
  else (s.wr (Reg.prbsStat n) 0x80000000).setLane n { l with chkRun := 0, chkErrs := [] }

/-- The checker starts anew, out of lock. -/
def State.chkReset (s : State) (n : Nat) : State :=
  (s.wr (Reg.prbsStat n) 0).mapLane n (fun l => { l with chkReg := 0, chkFill := 0, chkRun := 0, chkBits := 0, chkErrs := [] })

/-- A write of PRBS_CFG (10 R287, Table 10.7): setting CHK clears PRBS_BITS and starts the checker; a generator that comes on, or whose
pattern changes, starts from an unstated register. -/
def State.setPrbs (s : State) (n : Nat) (w : W32) : State :=
  let old := s.rd (Reg.prbsCfg n)
  let new := !(bit old 31) || fld old 26 3 != fld w 26 3
  let s := s.wr (Reg.prbsCfg n) (setFld w 0 26 0)
  let s := if bit w 31 && new then s.mapLane n (fun l => { l with prbsReg := (Config.prbsSeed n s.tod.fab).toNat, prbsFrom := s.bitAt n }) else s
  if bit w 30 then ((s.wr (Reg.prbsBits n 0) 0).wr (Reg.prbsBits n 1) 0).chkReset n else s.wr (Reg.prbsStat n) 0

/-! Blocks (10 R259, R273; 11 R295, R303). -/

/-- The CRC-32 that a lane's trailer must hold: over the payload of the header and rows that it carries, before scrambling (11 R294). -/
def laneCrc (ws : List W64) : W32 := crc32 (ws.flatMap (fun (w : W64) => bytesLE 8 w.toNat))

/-- XOR of the bytes of a word, as BIP8 takes them (10 Table 10.5). -/
def xorBytes (w : Nat) : Nat := (bytesLE 8 w).foldl (fun a b => Nat.xor a b.toNat) 0

/-- Whether a lane's transmitter sends Calwiza blocks: trained, and On. -/
def State.sends (s : State) (n : Nat) : Bool := s.calwiza n && (s.lane n).txUp && s.txState n == 2

/-- A block at the pins of a lane, as scrambled; a PAM4 lane sends 20 as a codeword. Idle blocks, not `shown`, are listed where a bit of
them is flipped. -/
def State.putBlock (s : State) (n sync : Nat) (w : W64) (shown : Bool) : State :=
  let l := s.lane n
  let s := s.setLane n { l with txNext := l.txNext + 1 }
  if s.laneRate n < 4 then
    let m := s.flipMask n (66 * l.txNext) 66
    if shown || m != 0 then
      { s with link.line := s.link.line ++ [(n, Nat.xor sync (m % 4), w ^^^ BitVec.ofNat 64 (m / 4))] }
    else s
  else
    let bl := l.txFec ++ [(shown, sync, w)]
    if bl.length < 20 then s.mapLane n (fun l => { l with txFec := bl })
    else
      let s := s.mapLane n (fun l => { l with txFec := [] })
      let m := s.flipMask n (70 * l.txNext - 1330) 1400
      if m != 0 || bl.any (·.1) then
        { s with link.codes := s.link.codes ++ [(n, grayLevels 700 (Nat.xor (fecEncode (bl.map (·.2))) m))] }
      else s

/-- A block through the scrambler; BIP8 covers what leaves it. -/
def State.putCoded (s : State) (n sync : Nat) (w : W64) (shown : Bool) : State :=
  let x := scrambleBits w.toNat 64 0 (s.lane n).txScr 0
  (s.mapLane n (fun l => { l with txScr := x.2, txBip := Nat.xor l.txBip (xorBytes x.1) })).putBlock n sync (BitVec.ofNat 64 x.1) shown

/-- The marker of Table 10.5. -/
def State.markerWord (s : State) (n : Nat) : W64 :=
  let l := s.lane n
  BitVec.ofNat 64 (l.txBip % 256 * 2 ^ 40 + l.txSeq * 2 ^ 32 + s.dev.partId * 2 ^ 22 + ((s.laneGrp n).getD 0) * 2 ^ 16 + n * 2 ^ 8 + 0xE0)

/-- A marker on a lane: it bypasses the scrambler, and BIP8 starts anew. -/
def State.putMarker (s : State) (n : Nat) : State :=
  let w := s.markerWord n
  let s := s.mapLane n (fun l => { l with txSeq := (l.txSeq + 1) % 256, txBip := 0, txMark := some l.txNext })
  { s.putBlock n 2 w true with link.blocks := s.link.blocks ++ [(n, w)] }

/-- Whether a lane's next block is the 16,384th since its last marker, or a later one; the first marker follows training (10 Table 10.2). -/
def State.markerDue (s : State) (n : Nat) : Bool :=
  (s.lane n).txMark.all (fun m => decide (m + 16384 ≤ (s.lane n).txNext))

/-! The positions of a group (11 R293, R304). -/

/-- A FAST block (11 Table 11.7). -/
def fastWord (tick : W32) (kind arg : Nat) : W64 := BitVec.ofNat 64 (tick.toNat * 2 ^ 32 + kind * 2 ^ 28 + (arg % 2 ^ 20) * 2 ^ 8 + 0xE8)

/-- A FAST block as every lane of a group carries it (11 R302). -/
def fastBlk (w : W64) : TxBlk := ⟨false, 2, List.replicate 16 w⟩

/-- The block of a position and what waits after it (11 R304, R313): within a frame that nothing interrupts its next block; at a reserved position
a class-T frame; then a TICK that is due, ACCEPTs, the other FAST blocks, and frames; none: a marker or an idle block. -/
def GroupSt.take (x : GroupSt) (p : Nat) (reserved : Bool) : Option TxBlk × GroupSt :=
  let held := fun (q : List TxBlk) => (q.head?.map (·.hold)).getD false
  if held x.txT || (reserved && !held x.txq && !x.txT.isEmpty) then (x.txT.head?, { x with txT := x.txT.tail })
  else if held x.txq then (x.txq.head?, { x with txq := x.txq.tail })
  else match x.tickBlk.filter (fun e => decide (e.1 ≤ p)), x.accepts, x.shorts, x.txq with
    | some e, _, _, _ => (some (fastBlk e.2), { x with tickBlk := none })
    | none, (t, k) :: r, _, _ => (some (fastBlk (fastWord t 1 k)), { x with accepts := r })
    | none, [], w :: r, _ => (some (fastBlk w), { x with shorts := r })
    | none, [], [], b :: r => (some b, { x with txq := r })
    | none, [], [], [] => (none, x)

/-- What lane `i` of the lanes of a group carries of a block: a data lane its word, the parity lane the XOR of theirs (11 R295). -/
def laneWord (lanes : Nat) (parity : Bool) (b : TxBlk) (i : Nat) : W64 :=
  if parity && i + 1 == lanes then (b.words.take i).foldl (fun a w => a ^^^ w) 0 else b.words.getD i 0

/-- The next position of lanes: the earliest that one of them that sends has not filled. -/
def State.txPos (s : State) (ls : List Nat) : Option Nat :=
  (ls.filter s.sends).foldl (fun m n => some (min (s.lane n).txNext (m.getD (s.lane n).txNext))) none

/-- The port number under which a slot schedule reserves block positions of a group's TX, counted from the strobe (11 R313; log 18). -/
def linkPort (g : Nat) : Nat := 0x400 + g

/-- The block of a lane's line at the current strobe. -/
def State.strobeBlock (s : State) (n : Nat) : Nat :=
  s.tod.tickFab * (bitsPerFab (s.laneRate n)).1 / (bitsPerFab (s.laneRate n)).2 / blockBits (s.laneRate n)

/-- The block positions that a schedule reserves on a group's TX in a tick. -/
def State.linkSlots (s : State) (g : Nat) : List Nat := (s.ant.slots.filter (fun e => e.2.port == linkPort g)).map (·.2.slot)

/-- The block positions of a lane in a tick. -/
def State.tickBlocks (s : State) (n : Nat) : Nat :=
  max 1 (s.cTick * (bitsPerFab (s.laneRate n)).1 / (bitsPerFab (s.laneRate n)).2 / blockBits (s.laneRate n))

/-- Whether position `p` of a group's lanes is reserved for class T. -/
def State.reservedPos (s : State) (g p : Nat) : Bool :=
  let n := (s.grpLanes g).headD 0
  let z := s.strobeBlock n
  (s.linkSlots g).elem ((if z ≤ p then p - z else s.tickBlocks n - (z - p) % s.tickBlocks n) % s.tickBlocks n)

/-- Position `p` of lanes: the block that `x` gives it, a marker that is due, or an idle block. -/
def State.putPosition (s : State) (ls : List Nat) (parity reserved : Bool) (p : Nat) (x : GroupSt) : State × GroupSt :=
  let on := ls.zipIdx.filter (fun e => s.sends e.1 && decide ((s.lane e.1).txNext ≤ p))
  match x.take p reserved with
  | (some b, y) => (on.foldl (fun t e => t.putCoded e.1 b.sync (laneWord ls.length parity b e.2) true) s, y)
  | (none, y) =>
    if x.markDue then (on.foldl (fun t e => t.putMarker e.1) s, { y with markDue := false })
    else (on.foldl (fun t e => t.putCoded e.1 2 0x1E false) s, y)

/-- The positions of lanes up to the one that time has reached; `res` tells the reserved ones. -/
def State.txRun (ls : List Nat) (parity : Bool) (res : Nat → Bool) : Nat → State × GroupSt → State × GroupSt
  | 0, a => a
  | k + 1, a =>
    match a.1.txPos ls with
    | some p => State.txRun ls parity res k (a.1.putPosition ls parity (res p) p a.2)
    | none => a

/-- The positions that time has passed on some lanes. -/
def State.txLag (s : State) (ls : List Nat) : Nat :=
  match s.txPos ls with
  | some p => s.blockNow (ls.headD 0) + 1 - p
  | none => 0

/-- The line of a group up to the position that time has reached. A group none of whose lanes sends loses the frames handed to it. -/
def State.txAdvance (s : State) (g : Nat) : State :=
  let ls := s.grpLanes g
  if (s.txPos ls).isNone then s.setGrp g { s.grpSt g with txq := [], txT := [] }
  else
    let r := State.txRun ls (s.grpParity g) (s.reservedPos g) (s.txLag ls) (s, s.grpSt g)
    r.1.setGrp g r.2

/-! Frames and fast blocks handed to a group (11 R293, R294, R302). -/

def State.rowBytes (s : State) (g : Nat) : Nat := 8 * max 1 (s.dataLanes g).length

/-- The blocks of a frame: header, rows, and a trailer with each data lane's CRC (11 R293, R294); FAST blocks may stand between those of a
control frame only. -/
def State.frameBlks (s : State) (f : TxFrame) : List TxBlk :=
  let n := (s.dataLanes f.group).length
  if n = 0 then []
  else
    let hold := f.hdr.toNat % 256 != 0xE4
    let rows := (List.range (max 1 (ceilDiv f.payload.length (8 * n)))).map (fun r => (List.range n).map (fun i =>
      BitVec.ofNat 64 (ofBytesLE ((f.payload.drop (8 * (r * n + i))).take 8))))
    let trailer := (List.range n).map (fun i => BitVec.ofNat 64
      ((laneCrc (f.hdr :: rows.map (fun (w : List W64) => w.getD i 0))).toNat * 2 ^ 32 + 0xE3))
    ⟨false, 2, List.replicate n f.hdr⟩ :: (rows.map (fun w => (⟨hold, 1, w⟩ : TxBlk)) ++ [⟨hold, 2, trailer⟩])

/-- A frame joins those that wait on a group. -/
def State.queueFrame (s : State) (f : TxFrame) : State :=
  let x := s.grpSt f.group
  { s.setGrp f.group { x with txq := x.txq ++ s.frameBlks f } with link.sent := s.link.sent ++ [f] }

/-- A control frame of this part to a part on a group (11 Table 11.5). -/
def State.ctrlFrame (s : State) (g dst kind : Nat) (payload : List W8) : TxFrame :=
  { group := g, payload := payload,
    hdr := BitVec.ofNat 64 (dst * 2 ^ 58 + s.dev.partId * 2 ^ 52 + kind * 2 ^ 48 + 15 * 2 ^ 44 +
      (max 1 (ceilDiv payload.length (s.rowBytes g)) - 1) * 2 ^ 32 + 0xE4) }

/-! Class S (11 R312, R313). -/

/-- A MEM header's SEQ field replaced; a control header holds none (log 22). -/
def withSeq (h : W64) (q : Nat) : W64 :=
  if h.toNat % 256 = 0xE6 then BitVec.ofNat 64 (h.toNat - h.toNat / 2 ^ 22 % 2 ^ 8 * 2 ^ 22 + q * 2 ^ 22) else h

/-- The position that a frame handed to a group now would start at. -/
def State.startPos (s : State) (g : Nat) : Nat :=
  let x := s.grpSt g
  (s.txPos (s.grpLanes g)).getD 0 + x.accepts.length + x.shorts.length + x.txq.length

/-- Whether a class-S frame of `k` blocks ends before the next position that class T has reserved on its group (11 R313). -/
def State.fitsLink (s : State) (g k : Nat) : Bool :=
  let n := (s.grpLanes g).headD 0
  let at' := s.startPos g - s.strobeBlock n
  (s.linkSlots g).all (fun p => decide (at' + k ≤ p ∨ p < at') && decide (at' + k ≤ p + s.tickBlocks n))

/-- A class-S frame joins those that wait on a group: it takes the next SEQ and is kept for replay; while 64 frames are kept, or others wait, or
it would run into a reserved position, it waits (11 R312, R313). -/
def State.queueS (s : State) (f : TxFrame) : State :=
  let x := s.grpSt f.group
  if x.down then s
  else if 64 ≤ x.kept.length ∨ x.waits ≠ [] ∨ ¬ s.fitsLink f.group (s.frameBlks f).length then s.setGrp f.group { x with waits := x.waits ++ [f] }
  else
    let f := { f with hdr := withSeq f.hdr x.txSeq }
    (s.setGrp f.group { x with txSeq := (x.txSeq + 1) % 256, kept := x.kept ++ [⟨x.txSeq, f, 0, s.tod.fab⟩] }).queueFrame f

/-- The in-band replies of a group that have not gone yet become REPLY frames to who sent the command (15 R398). -/
def State.pumpReplies (s : State) (g : Nat) : State :=
  let rs := s.host.inbandReplies.filter (fun (e : Nat × Nat × Reply) => e.1 == g)
  (rs.drop (s.grpSt g).repSent).foldl (fun t e => t.queueS (t.ctrlFrame g e.2.1 1 (e.2.2.words.flatMap (fun (w : W32) => bytesLE 4 w.toNat))))
    (s.setGrp g { s.grpSt g with repSent := rs.length })

/-- The frames that waited for room among the 64 kept or for reserved positions to pass are tried again, oldest first. -/
def State.queueWaits (s : State) (g : Nat) : State :=
  (s.grpSt g).waits.foldl (fun t f => t.queueS f) (s.setGrp g { s.grpSt g with waits := [] })

/-- Brings the line of a group up to date, with the frames and replies that wait for it. -/
def State.settleTx (s : State) (g : Nat) : State := (((s.txAdvance g).queueWaits g).pumpReplies g).txAdvance g

/-- A frame handed to a group's transmit path: its blocks take the positions after those handed before. -/
def State.sendFrame (s : State) (f : TxFrame) : State := ((s.settleTx f.group).queueFrame f).txAdvance f.group

/-- A class-T frame handed to a group: it takes the reserved positions, where the schedule has any. -/
def State.sendT (s : State) (f : TxFrame) : State :=
  if (s.linkSlots f.group).isEmpty then s.sendFrame f
  else
    let s := s.settleTx f.group
    { s.setGrp f.group { s.grpSt f.group with txT := (s.grpSt f.group).txT ++ s.frameBlks f } with link.sent := s.link.sent ++ [f] }.txAdvance f.group

/-- A class-S frame handed to a group. -/
def State.sendS (s : State) (f : TxFrame) : State := ((s.settleTx f.group).queueS f).txAdvance f.group

/-- A FAST block on every lane of a group. -/
def State.sendFast (s : State) (g : Nat) (w : W64) : State :=
  let s := s.settleTx g
  let s := s.setGrp g { s.grpSt g with shorts := (s.grpSt g).shorts ++ [w] }
  { s with link.blocks := s.link.blocks ++ [(256 + g, w)] }.txAdvance g

/-! Lanes. -/

/-- Brings the line of a lane up to date, with that of its group. -/
def State.settleLane (s : State) (n : Nat) : State :=
  match s.laneGrp n with
  | some g => s.settleTx g
  | none => (State.txRun [n] false (fun _ => false) (s.txLag [n]) (s, GroupSt.init)).1

/-- Brings INJ_COUNT up to date, as before a write of what it counts by, once the line is: rate injection counts on from there. -/
def State.settleInj (s : State) (n : Nat) : State :=
  if (s.lane n).injecting then
    let s := s.settleLane n
    let r := 2 ^ s.rdF (Reg.injCfg n) 18 6
    let k := (s.bitAt n - (s.lane n).injFrom) / r
    (s.wr (Reg.injCount n) (s.injNow n)).mapLane n (fun l => { l with injFrom := l.injFrom + k * r })
  else s

/-- Rate injection ends. -/
def State.stopInj (s : State) (n : Nat) : State :=
  if (s.lane n).injecting then (s.settleInj n).mapLane n (fun l => { l with injecting := false }) else s

/-- A lane's transmitter comes on the line: at the next position of its group, on a PAM4 lane at the next codeword. -/
def State.txJoin (s : State) (n : Nat) : State :=
  let s := s.settleLane n
  let p := match s.laneGrp n with
    | some g => ((s.txPos ((s.grpLanes g).filter (· != n))).getD (s.blockNow n + 1))
    | none => s.blockNow n + 1
  s.mapLane n (fun l => { l with txNext := if s.laneRate n < 4 then p else 20 * ceilDiv p 20 })

/-- Training leaves a lane's transmitter up (10 Table 10.2): its scrambler stands where nothing says, and its first marker follows. -/
def State.txReady (s : State) (n : Nat) : State :=
  (s.txJoin n).mapLane n (fun l =>
    { l with txUp := true, txScr := (Config.idleScram n s.tod.fab).toNat, txBip := 0, txMark := none, txFec := [] })

end Sys2Proof.Machine
end

