-- ==== Sys2Proof/Machine/Lanes.lean ====
section
/-! DEFINITION. Serial lanes (10) at work: power states, training, block lock, markers, deskew and groups, FEC codewords, PRBS and
error injection. What a lane's analog part measures (signal, convergence, fill, lateness, set point, eye) comes with the
event (log 9). -/

namespace Sys2Proof.Machine

/-- Whether this part is the standby of a relay pair, whose edges and bus words come from the primary (16 R416). -/
def State.relayStandby (s : State) : Bool :=
  let w := s.rd Reg.twinCfg
  bit w 31 && bit w 30 && bit w 29

def State.relayPrimary (s : State) : Bool :=
  let w := s.rd Reg.twinCfg
  bit w 31 && !bit w 30 && bit w 29

/-- The twin state (16 Table 16.5). -/
def State.twinState (s : State) : Nat := s.rdF Reg.twinStat 29 3

def State.setTwinState (s : State) (v : Nat) : State := s.wrF Reg.twinStat 29 3 v

/-- The twin link is lost (16 R422): Link Lost, with TWIN_LINK_DOWN. -/
def State.twinLost (s : State) : State :=
  ({ s with twin.missing := 0 }.setTwinState 5).raiseNow Code.twinLinkDown { die := Die.hub } (detailW (s.rdF Reg.twinStat 0 16) 0 0)

/-- The twin group goes Down (16 R422, Table 16.5). -/
def State.twinGroupDown (s : State) (g : Nat) : State :=
  if g ≠ 63 ∨ !bit (s.rd Reg.twinCfg) 31 then s
  else if s.twinState = 4 then s.twinLost
  else if s.twinState = 3 then s.setTwinState 1
  else s

/-- The state of a group by the lanes that contribute (10 Table 10.8). -/
def State.grpByLanes (s : State) (g : Nat) : Nat :=
  let ls := s.grpLanes g
  let n := (ls.filter (fun l => s.inGroup l)).length
  if n = 0 then 0 else if n = ls.length then 1 else if s.grpParity g && n + 1 == ls.length then 2 else 3

/-- The part at the other end of a group, as IDENT taught it. -/
def State.partnerOf (s : State) (g : Nat) : Nat := s.rdF (Reg.laneState ((s.grpLanes g).headD 0)) 0 6

/-- Measures the round trip of a group by a PING, with its transmit cycle (11 R300, R314). -/
def State.sendPing (s : State) (g : Nat) : State := s.sendS (s.ctrlFrame g (s.partnerOf g) 3 (bytesLE 8 s.tod.fab))

/-- Sets GRP_STAT from the lanes that contribute, and raises what R280 and R281 say on a change for the worse. A group that
becomes ready, or a ready one that a lane joins, measures its round trip (11 R314), and its class S is no longer Down (DESIGN CHOICE, log
22). -/
def State.grpUpdate (s : State) (g : Nat) : State :=
  let n := ((s.grpLanes g).filter (fun l => s.inGroup l)).length
  let st := s.grpByLanes g
  let old := s.grpState g
  let was := s.rdF (Reg.grpStat g) 25 5
  let s := s.wr (Reg.grpStat g) (BitVec.ofNat 32 (st * 2 ^ 30 + n * 2 ^ 25))
  if st = 0 ∧ old ≠ 0 then (s.raiseGrp Code.groupDown g 0).twinGroupDown g
  else if st = 3 ∧ old ≠ 3 then s.raiseGrp Code.groupDegraded g n
  else if (st = 1 ∨ st = 2) ∧ was < n then (s.setGrp g { s.grpSt g with down := false }).sendPing g
  else s

/-- A lane leaves its group (10 R280). -/
def State.leaveGroup (s : State) (n : Nat) : State :=
  if s.inGroup n then
    let s := s.wr (Reg.laneState n) (setBit (s.rd (Reg.laneState n)) 7 false)
    let s := if s.rxState n = Rx.aligned then s.setRx n Rx.locked else s
    let s := s.mapLane n (fun l => { l with lost := true, goodMarkers := 0, rx := [] })
    match s.laneGrp n with
    | some g => s.grpUpdate g
    | none => s
  else s

/-- A direction turned Off (10 Table 10.6). -/
def State.rxOff (s : State) (n : Nat) : State :=
  let s := (s.leaveGroup n).wr (Reg.laneState n)
    (setFld (setFld ((s.leaveGroup n).rd (Reg.laneState n)) 29 3 Rx.off) 24 3 0)
  s.mapLane n (fun l => { l with hunting := false, backoff := false, good := 0, bad := 0, win := 0, rx := [],
                                 rxReturn := false, fecLock := false, fecGood := 0, fecBlocks := [], holdIn := none })

/-- A transmitter is turned On, into electrical idle while the TX PLL of its die has no lock (10 R283). -/
def State.txOn (s : State) (n : Nat) : State :=
  let pll := s.link.pll.getD (n / 36) true
  (s.setTx n (if pll then 2 else 1)).mapLane n (fun l => { l with pllIdle := !pll })

/-- Training begins at an attempt (10 R266, R269): both directions are On, the lane is out of its group, step 1. -/
def State.train (s : State) (n attempt : Nat) : State :=
  let s := ((s.settleLane n).leaveGroup n).txOn n
  let w := s.rd (Reg.laneState n)
  let w := setFld (setFld (setFld (setFld w 29 3 Rx.training) 24 3 0) 20 4 1) 16 4 attempt
  let s := s.wr (Reg.laneState n) w
  s.mapLane n (fun l => { l with hunting := false, backoff := false, good := 0, bad := 0, win := 0, rx := [], identOk := false,
                                 seqSeen := none, goodMarkers := 0, ackOut := 0, txReturn := false, rxReturn := false, asked := 0,
                                 txUp := false, holdIn := none })

/-- An attempt fails (10 R269): a back-off, or Down after the eighth. -/
def State.attemptFails (s : State) (n : Nat) : State :=
  if s.rdF (Reg.laneState n) 16 4 < 8 then s.mapLane n (fun l => { l with backoff := true })
  else
    let told := (s.lane n).downTold
    let s := ((s.setRx n Rx.down).bump (Reg.downCount n)).mapLane n (fun l => { l with downTold := true, backoff := false })
    if told then s else s.raiseLane Code.laneDown n (s.trainStep n)

def laneOk (n : Nat) : Bool := decide (n < 144)

/-! Training (10 R266 to R270). -/

/-- SIGNAL_DETECT: completes step SIGNAL, or begins the return of a Hold RX whose signal returns (10 R266, R285). -/
def State.signalDetect (s : State) (n : Nat) : State :=
  if s.rxState n = Rx.training then
    (if s.calwiza n ∧ s.trainStep n = 1 ∧ (s.lane n).backoff = false then s.setStep n 2 else s)
  else if s.rxState n = Rx.hold then s.mapLane n (fun l => { l with rxReturn := true })
  else s

def execSignalDetect (lane : Nat) (s : State) : Host.Outcome State Fault Refusal :=
  s.onUnit (laneOk lane) (s.signalDetect lane)

/-- The equaliser's result: CTLE peaking unless CTLE_MAN, and DFE taps, by the count of results taken (10 R264; log 14). -/
def State.converge (s : State) (n j : Nat) : State :=
  let s := if bit (s.rd (Reg.rxEq n)) 30 then s else s.wrF (Reg.rxEq n) 25 5 ((Config.laneAnalog n (4 * j)).toNat % 21)
  (List.range 3).foldl (fun t i => t.wr (Reg.dfeTaps n i) (Config.laneAnalog n (4 * j + 1 + i))) s

/-- ADAPT_CONVERGED: the receiver's equaliser has settled, which ends step ADAPT; after training the adaptation that runs continuously has
moved the taps, unless ADAPT_FREEZE or Hold holds them (10 R264). -/
def State.adaptConverged (s : State) (n : Nat) : State :=
  if !s.calwiza n then s
  else if s.rxState n = Rx.training then
    (if s.trainStep n = 2 ∧ (s.lane n).backoff = false then (s.converge n 0).setStep n 3 else s)
  else if (s.rxState n = Rx.locked ∨ s.rxState n = Rx.aligned) ∧ bit (s.rd (Reg.rxEq n)) 31 = false then
    { (s.converge n (1 + s.free)) with free := s.free + 1 }
  else s

def execAdaptConverged (lane : Nat) (s : State) : Host.Outcome State Fault Refusal :=
  s.onUnit (laneOk lane) (s.adaptConverged lane)

/-- The taps of TX_FFE: PRE2, PRE1, MAIN, POST1, POST2. -/
def ffeTaps (w : W32) : List Int :=
  [toSigned 5 (fld w 24 5), toSigned 6 (fld w 18 6), (fld w 12 6 : Int), toSigned 6 (fld w 6 6), toSigned 5 (fld w 1 5)]

/-- The ranges and the sum of R263. -/
def ffeOk (w : W32) : Bool :=
  match ffeTaps w with
  | [a, b, c, d, e] =>
    decide (-8 ≤ a ∧ a ≤ 8 ∧ -24 ≤ b ∧ b ≤ 0 ∧ 24 ≤ c ∧ c ≤ 63 ∧ -24 ≤ d ∧ d ≤ 0 ∧ -8 ≤ e ∧ e ≤ 8 ∧
      a.natAbs + b.natAbs + c.natAbs + d.natAbs + e.natAbs ≤ 63)
  | _ => false

/-- TX_FFE with one tap moved by a step. -/
def ffeMove (w : W32) (tap : Nat) (up : Bool) : W32 :=
  let d : Int := if up then 1 else -1
  match tap with
  | 1 => setFld w 24 5 (ofSigned 5 (toSigned 5 (fld w 24 5) + d))
  | 2 => setFld w 18 6 (ofSigned 6 (toSigned 6 (fld w 18 6) + d))
  | 3 => setFld w 12 6 (ofSigned 6 ((fld w 12 6 : Int) + d))
  | 4 => setFld w 6 6 (ofSigned 6 (toSigned 6 (fld w 6 6) + d))
  | _ => setFld w 1 5 (ofSigned 5 (toSigned 5 (fld w 1 5) + d))

/-- The partner's request in a training block (10 Table 10.3, R263) and the ACK it earns. -/
def State.ffeRequest (s : State) (n tap : Nat) (up : Bool) : State :=
  let w := s.rd (Reg.txFfe n)
  if tap = 0 ∨ tap = 7 then s.mapLane n (fun l => { l with ackOut := 0 })
  else if bit w 31 then s.mapLane n (fun l => { l with ackOut := 3 })
  else if tap = 6 then
    (s.wr (Reg.txFfe n) (BitVec.ofNat 32 (48 * 2 ^ 12))).mapLane n (fun l => { l with ackOut := 1 })
  else
    let v := ffeMove w tap up
    let edge := match tap, up with
      | 3, true => decide (fld w 12 6 = 63)
      | _, _ => false
    if ffeOk v && !edge then (s.wr (Reg.txFfe n) v).mapLane n (fun l => { l with ackOut := 1 })
    else s.mapLane n (fun l => { l with ackOut := 2 })

/-- A lane loses block lock (10 Table 10.4, R280): it leaves its group and hunts. -/
def State.loseLock (s : State) (n : Nat) : State :=
  let s := (s.setLock n 0).mapLane n (fun l => { l with good := 0, bad := 0, win := 0, hunting := true })
  ((s.leaveGroup n).bump (Reg.lockLosses n)).raiseLane Code.laneLockLoss n 0

/-- One block's header at the lock machine of Table 10.4: the state after it, and whether the block is passed on; one with an invalid header
is, in any state (10 R271). -/
def State.lockStep (s : State) (n : Nat) (valid : Bool) : State × Bool :=
  let l := s.lane n
  match s.lockState n with
  | 2 =>
    let win := l.win + 1
    let bad := if valid then l.bad else l.bad + 1
    if 24 ≤ bad then (s.loseLock n, true)
    else if win = 256 then (s.mapLane n (fun l => { l with win := 0, bad := 0 }), true)
    else (s.mapLane n (fun l => { l with win := win, bad := bad }), true)
  | 1 => (s.setLock n 0, !valid)
  | _ =>
    if valid then
      if l.good + 1 = 64 then
        ((s.setLock n 2).mapLane n (fun l => { l with good := 0, bad := 0, win := 1, hunting := false }), false)
      else (s.mapLane n (fun l => { l with good := l.good + 1 }), false)
    else ((s.setLock n 1).mapLane n (fun l => { l with good := 0 }), true)

/-- Step IDENT (10 R268): what the partner says of itself is kept; an unexpected lane fails the attempt. -/
def State.ident (s : State) (n : Nat) (w : W64) : State :=
  let x := w.toNat
  let lane := bits64 x 18 8
  let s := s.wr (Reg.laneState n) (setFld (setFld (s.rd (Reg.laneState n)) 8 8 lane) 0 6 (bits64 x 26 6))
  let s := s.wr (Reg.partnerTag n) (BitVec.ofNat 32 (bits64 x 40 24))
  let cfg := s.rd (Reg.laneCfg n)
  if bit cfg 24 && fld cfg 16 8 != lane then (s.raiseLane Code.laneMiswired n lane).attemptFails n
  else (s.mapLane n (fun l => { l with identGroup := bits64 x 32 6, identOk := true })).setStep n 5
where bits64 (x lo k : Nat) : Nat := (x / 2 ^ lo) % 2 ^ k

/-- Whether a lane's receiver gives a block: on a PAM4 lane locked to codewords the block that comes next from the last codeword, or one of a
codeword that could not be corrected (10 R257; 11 R303). -/
def State.decodes (s : State) (n sync : Nat) (w : W64) : Bool :=
  decide (s.laneRate n < 4) ||
  ((s.lane n).fecLock && match (s.lane n).fecBlocks with
    | some b :: _ => b.1 == sync && b.2 == w
    | none :: _ => true
    | [] => false)

/-- One block uses up a block of its codeword: whether that was uncorrectable (10 R257). -/
def State.fecBlock (s : State) (n : Nat) : Bool × State :=
  ((s.lane n).fecBlocks.head?.any Option.isNone, s.mapLane n (fun l => { l with fecBlocks := l.fecBlocks.tail }))

/-- A block at a lane's lock machine; in training, lock ends step 3 (10 R266). -/
def State.lockBlock (s : State) (n : Nat) (valid : Bool) : State × Bool :=
  let r := s.lockStep n valid
  (if r.1.rxState n = Rx.training ∧ r.1.trainStep n = 3 ∧ r.1.lockState n = 2 then r.1.setStep n 4 else r.1, r.2)

/-- The training block that this end sends, while its TX is On (10 R266, R267): it answers the partner's last request, and in step 5 makes a request of its own;
READY says that step 5 is done. -/
def State.sendTraining (s : State) (n : Nat) (ask : Bool) : State :=
  let l := s.lane n
  let wish := Config.ffeWish n l.asked
  let tap := if ask then 1 + wish.toNat % 8 % 5 else 0
  let w := (identityFp.toNat % 2 ^ 24) * 2 ^ 40 + (if s.trainStep n = 6 then 2 ^ 38 else 0) + ((s.laneGrp n).getD 0) * 2 ^ 32 +
    s.dev.partId % 64 * 2 ^ 26 + n * 2 ^ 18 + l.ackOut % 4 * 2 ^ 16 + (if ask ∧ 8 ≤ wish.toNat then 2 ^ 15 else 0) + tap * 2 ^ 12 +
    s.trainStep n * 2 ^ 8 + 0xE1
  let s := s.mapLane n (fun l => { l with asked := if ask then l.asked + 1 else l.asked, txNext := max l.txNext (s.blockNow n) })
  if s.txState n = 2 then s.putBlock n 2 (BitVec.ofNat 64 w) true else s

/-- What a training block does at a step: it identifies the partner in step 4, ends step 5 where this receiver is `satisfied` or has made its
64 requests, and ends training in step 6 (10 R266). -/
def State.stepBlock (s : State) (n step : Nat) (w : W64) (satisfied : Bool) : State :=
  match step with
  | 4 => s.ident n w
  | 5 => if satisfied || decide (64 ≤ (s.lane n).asked) then s.setStep n 6 else s
  | 6 => if nbit w.toNat 38 then (s.setRx n Rx.locked).txReady n else s
  | _ => s

/-- A training block that this receiver reads: it counts toward lock, and carries a request, which this end's own block answers. -/
def State.goodTraining (s : State) (n : Nat) (w : W64) (satisfied : Bool) : State :=
  let step := s.trainStep n
  let s := (s.lockBlock n true).1.ffeRequest n (w.toNat / 2 ^ 12 % 8) (nbit w.toNat 15)
  let s := s.stepBlock n step w satisfied
  if (s.lane n).backoff || s.rxState n == Rx.down then s else s.sendTraining n (step == 5 && s.trainStep n == 5)

/-- TRAINING_BLOCK (10 R267): from step 3 on; one of an uncorrectable codeword counts as a block with an invalid header (10 R257).
`satisfied` says that this receiver wants no more of the partner's FFE. -/
def State.trainingBlock (s : State) (n : Nat) (w : W64) (satisfied : Bool) : State :=
  if !s.calwiza n || !s.decodes n 2 w || s.rxState n != Rx.training || (s.lane n).backoff || decide (s.trainStep n < 3) then s
  else if (s.fecBlock n).1 then ((s.fecBlock n).2.lockBlock n false).1
  else (s.fecBlock n).2.goodTraining n w satisfied

def execTrainingBlock (lane : Nat) (w : W64) (satisfied : Bool) (s : State) : Host.Outcome State Fault Refusal :=
  s.onUnit (laneOk lane) (s.trainingBlock lane w satisfied)

/-- TRAIN_STEP_TIMEOUT (10 R266, R269). -/
def execTrainStepTimeout (lane : Nat) (s : State) : Host.Outcome State Fault Refusal :=
  s.onUnit (laneOk lane)
    (if s.calwiza lane ∧ s.rxState lane = Rx.training ∧ (s.lane lane).backoff = false then s.attemptFails lane else s)

/-- TRAIN_BACKOFF_END (10 R269): the next attempt starts. -/
def execTrainBackoffEnd (lane : Nat) (s : State) : Host.Outcome State Fault Refusal :=
  s.onUnit (laneOk lane)
    (if s.rxState lane = Rx.training ∧ (s.lane lane).backoff then s.train lane (s.rdF (Reg.laneState lane) 16 4 + 1) else s)

/-- AUTO_RETRY (10 R270). -/
def execAutoRetry (lane : Nat) (s : State) : Host.Outcome State Fault Refusal :=
  s.onUnit (laneOk lane)
    (if s.rxState lane = Rx.down ∧ bit (s.rd (Reg.laneCfg lane)) 25 then s.train lane 1 else s)

/-- LOCK_HUNT_TIMEOUT (10 R272). -/
def execLockHuntTimeout (lane : Nat) (s : State) : Host.Outcome State Fault Refusal :=
  s.onUnit (laneOk lane) (if s.calwiza lane && (s.lane lane).hunting then s.train lane 1 else s)

/-! Blocks (10 R259, R271 to R279). -/

/-- The control block types of Table 11.1. -/
def knownBtype (b : Nat) : Bool := [0x1E, 0xE0, 0xE1, 0xE2, 0xE3, 0xE4, 0xE5, 0xE6, 0xE8].elem b

def isHeader (b : Nat) : Bool := [0xE2, 0xE4, 0xE5, 0xE6].elem b

/-- Whether a block is the trailer of a data lane's frame. -/
def isTrailer (b : Blk) : Bool := b.ctl && !b.bad && b.w.toNat % 256 == 0xE3

def isFrameHdr (b : Blk) : Bool := b.ctl && !b.bad && isHeader (b.w.toNat % 256)

/-- The index of the header of the frame that a lane is receiving, if its trailer has not come. -/
def openFrame (l : List Blk) : Option Nat :=
  ((l.reverse.takeWhile (fun b => !isTrailer b)).reverse.find? isFrameHdr).map (·.ix)

/-- Whether an index lies in a frame that its group discards. -/
def inDrop (ds : List (Nat × Option Nat)) (ix : Nat) : Bool :=
  ds.any (fun d => ix / 2 ^ 15 == d.1 / 2 ^ 15 && decide (d.1 ≤ ix) && d.2.all (fun e => decide (ix ≤ e)))

/-- An elastic lane overruns in the frame with a header index: the whole frame is discarded on every lane of its group, counted and reported,
once; an event frame accepted from it is gone (10 R277). -/
def State.laneOverrun (s : State) (n g i0 : Nat) : State :=
  if (s.grpSt g).drops.any (·.1 == i0) then s
  else
    let s := s.setGrp g { s.grpSt g with drops := ((s.grpSt g).drops ++ [(i0, none)]).reverse.take 4 |>.reverse }
    let s := { s with link.frames := s.link.frames.filter (fun f => !(f.group == g && f.ix == i0 && !f.closed)) }
    (s.bump (Reg.overruns n)).raiseLane Code.laneOverrun n 0

/-- The trailer of a discarded frame came: its blocks leave every lane. -/
def State.endDrop (s : State) (g ix : Nat) : State :=
  let ds := (s.grpSt g).drops.map (fun d => if d.2.isNone && d.1 / 2 ^ 15 == ix / 2 ^ 15 && decide (d.1 < ix) then (d.1, some ix) else d)
  let gone := ds.filter (·.2.isSome)
  let s := s.setGrp g { s.grpSt g with drops := ds }
  (s.grpLanes g).foldl (fun t m => t.mapLane m (fun l => { l with rx := l.rx.filter (fun b => !inDrop gone b.ix) })) s

/-- Whether the receive buffer of an elastic lane is full of frames that no destination took: 64 blocks, a whole frame among them (10 R277). -/
def State.bufferFull (s : State) (n g : Nat) : Bool :=
  let held := (s.lane n).rx.filter (fun b => !inDrop (s.grpSt g).drops b.ix)
  s.laneMode n == 1 && decide (64 ≤ held.length) && held.any isTrailer

/-- Keeps a block of a contributing lane: idle blocks are dropped, and so are those of a frame that the group discards, which ends with its
trailer (10 R277). -/
def State.keepBlock (s : State) (n g : Nat) (b : Blk) : State :=
  if b.ctl && !b.bad && b.w.toNat % 256 == 0x1E then s
  else
    let first := (if isFrameHdr b then some b.ix else openFrame (s.lane n).rx)
    let s := match first with
      | some i0 =>
        if s.bufferFull n g || ((s.lane n).dropping && isFrameHdr b) then
          (s.laneOverrun n g i0).mapLane n (fun l => { l with dropping := false })
        else s
      | none => s
    if inDrop (s.grpSt g).drops b.ix then
      if isTrailer b then s.endDrop g b.ix
      else if inDrop ((s.grpSt g).drops.filter (·.2.isSome)) b.ix then s
      else s.mapLane n (fun l => { l with rx := l.rx ++ [b] })
    else s.mapLane n (fun l => { l with rx := l.rx ++ [b] })

/-- The fill of the elastic buffer: LANE_DRIFT of a fixed-latency lane (10 R279); on an elastic one, an overrun where compensation leaves the
range of the 32 words (10 R261, R277), of the frame that arrives or else of the next one. -/
def State.drift (s : State) (n : Nat) (fill : Int) : State :=
  let s := s.wrF (Reg.ebStat n) 0 9 (ofSigned 9 fill)
  if s.inGroup n && s.laneMode n == 1 && decide (256 < fill.natAbs) then
    match s.laneGrp n, openFrame (s.lane n).rx with
    | some g, some i0 => s.laneOverrun n g i0
    | _, _ => s.mapLane n (fun l => { l with dropping := true })
  else
  if s.inGroup n && s.laneMode n == 2 && decide (16 * s.rdF (Reg.ebCfg n) 0 4 < fill.natAbs) then
    (s.leaveGroup n).raiseLane Code.laneDrift n (ofSigned 16 fill)
  else s

/-- A relay primary relays the blocks of the inbound groups that carry class-T fields (16 R416). -/
def State.relayBlock (s : State) (n : Nat) (b : Blk) : State :=
  match s.laneGrp n with
  | some g =>
    if s.relayPrimary && s.link.classT.any (fun e => e.2 == g) then { s with twin.relayed := s.twin.relayed ++ [.block n b] } else s
  | none => s

/-- A block at the receive direction of a time-port lane (10 R258): the PCS of Clause 49 keeps block lock as Table 10.4 does, and the direction
shows Locked while it holds (log 21). -/
def State.portBlock (s : State) (n : Nat) (valid : Bool) : State :=
  let s := (s.lockStep n valid).1
  s.setRx n (if s.lockState n = 2 then Rx.locked else Rx.training)

/-- The RX goes to Hold, keeping the state it leaves (10 Table 10.6). -/
def State.rxHold (s : State) (n : Nat) : State :=
  let r := s.rxState n
  if r = Rx.locked ∨ r = Rx.aligned then (s.setRx n Rx.hold).mapLane n (fun l => { l with heldState := r }) else s

/-- Whether a lane is the parity lane of its group, whose control blocks need show no block type (11 R295). -/
def State.isParityLane (s : State) (n : Nat) : Bool :=
  (s.laneGrp n).any (fun g => s.grpParity g && (s.grpLanes g).getLast? == some n)

/-- Hold counts down to the block that TX_IDLE announced (11 R300). -/
def State.holdCount (s : State) (n : Nat) : State :=
  match (s.lane n).holdIn with
  | none => s
  | some k => if k ≤ 1 then (s.rxHold n).mapLane n (fun l => { l with holdIn := none }) else s.mapLane n (fun l => { l with holdIn := some (k - 1) })

/-- A good block of a lane that contributes to its group, as the link layer gets it; the first bit of a TIME_HDR is stamped (11 R301). -/
def State.passBlock (s : State) (n g : Nat) (ctl bad : Bool) (p : Nat) : State :=
  let l := s.lane n
  let blk : Blk := { ix := (l.seqSeen.getD 0) * 2 ^ 15 + l.sinceMarker, ctl := ctl, bad := bad, w := BitVec.ofNat 64 p,
                     stamp := if ctl && !bad && p % 256 == 0xE5 then s.todIn 0 else 0 }
  (s.relayBlock n blk).keepBlock n g blk

/-- BLOCK_RECEIVE (10 R271): a block that is no marker and no training block, as it stands on the line. A control block with a reserved
BTYPE is one with an invalid header (11 R292), but for the parity lane. -/
def State.blockReceive (s : State) (n sync : Nat) (w : W64) (fill : Int) : State :=
  let head := sync == 1 || sync == 2
  if s.laneMode n = 3 ∧ s.rxState n ≠ Rx.off then s.portBlock n head
  else if !s.calwiza n || !s.decodes n sync w then s
  else
    let (p, sr) := descrambleBits w.toNat 64 0 (s.lane n).descram 0
    let (fecBad, t) := s.fecBlock n
    let valid := head && !fecBad && !(sync == 2 && !s.isParityLane n && !knownBtype (p % 256))
    let t := t.mapLane n (fun l => { l with descram := sr })
    if s.rxState n = Rx.training then
      (if (s.lane n).backoff ∨ s.trainStep n < 3 then t else (t.lockBlock n valid).1)
    else if !(s.rxState n == Rx.locked || s.rxState n == Rx.aligned) then t
    else
      let t := t.mapLane n (fun l => { l with bip := Nat.xor l.bip (xorBytes w.toNat), sinceMarker := l.sinceMarker + 1 })
      let (t, pass) := t.lockStep n valid
      let t := t.drift n fill
      let t := match t.laneGrp n with
        | some g => if pass && t.inGroup n then t.passBlock n g (sync == 2) (!valid) p else t
        | none => t
      t.holdCount n

def execBlockReceive (lane sync : Nat) (w : W64) (fill : Int) (s : State) : Host.Outcome State Fault Refusal :=
  s.onUnit (laneOk lane && decide (sync < 4)) (s.blockReceive lane sync w fill)

/-- Whether a marker contradicts what IDENT taught, its sequence or its spacing (10 R274). -/
def State.markerError (s : State) (n : Nat) (w : W64) : Bool :=
  let l := s.lane n
  let x := w.toNat
  let st := s.rd (Reg.laneState n)
  decide (x / 2 ^ 8 % 2 ^ 8 ≠ fld st 8 8) || decide (x / 2 ^ 16 % 2 ^ 6 ≠ l.identGroup) || decide (x / 2 ^ 22 % 2 ^ 6 ≠ fld st 0 6) ||
  (match l.seqSeen with
   | some q => decide (x / 2 ^ 32 % 2 ^ 8 ≠ (q + 1) % 256) || !decide (16384 ≤ l.sinceMarker + 1 ∧ l.sinceMarker + 1 ≤ 17407)
   | none => false)

/-- The lateness a group takes, in 1/8 blocks (10 R275). -/
def State.skewLimit (s : State) (n g : Nat) : Nat :=
  if s.laneMode n = 1 ∧ s.declSkew g = 0 then 256 else 8 * s.declSkew g

/-- A lane joins or re-enters its group (10 R282). -/
def State.joinGroup (s : State) (n g : Nat) (setPoint : Option Nat) : State :=
  let again := (s.lane n).lost
  let s := match setPoint with
    | some v => if s.laneMode n = 2 then s.wrF (Reg.ebStat n) 14 9 v else s
    | none => s
  let s := (s.wr (Reg.laneState n) (setBit (setFld (s.rd (Reg.laneState n)) 29 3 Rx.aligned) 7 true)).mapLane n
    (fun l => { l with lost := false, downTold := false, rx := [] })
  let s := s.grpUpdate g
  if again then (s.wrapBy (Reg.grpReentries g) 1).raiseLane Code.laneReentered n (s.rdF (Reg.ebStat n) 23 9) else s

/-- ALIGNMENT_MARKER (10 R274, R275, R278, R282). A marker is a block of the lock machine's window, and one in an uncorrectable codeword is
no marker but a block with an invalid header (10 R257, R271). A lane joins its group at its first good marker after training, and
re-enters it at the second. -/
def State.marker (s : State) (n : Nat) (w : W64) (late : Nat) (setPoint : Option Nat) : State :=
  if !s.calwiza n || !s.decodes n 2 w || !(s.rxState n == Rx.locked || s.rxState n == Rx.aligned) then s
  else
  let (bad, s) := s.fecBlock n
  let locked := s.lockState n == 2
  let s := (s.lockStep n (!bad)).1
  if bad then
    let s := s.mapLane n (fun l => { l with sinceMarker := l.sinceMarker + 1 })
    match s.laneGrp n with
    | some g => if s.inGroup n then s.passBlock n g true true w.toNat else s
    | none => s
  else if !locked then s
  else
    let err := s.markerError n w
    let bipBad := (s.lane n).seqSeen.isSome && decide (w.toNat / 2 ^ 40 % 256 ≠ (s.lane n).bip)
    let s := if bipBad then s.bump (Reg.bipErrs n) else s
    let s := s.mapLane n (fun l => { l with seqSeen := some (w.toNat / 2 ^ 32 % 256), sinceMarker := 0, bip := 0,
                                            goodMarkers := if err then 0 else l.goodMarkers + 1 })
    if err then
      let s := s.bump (Reg.markerErrs n)
      if s.inGroup n then (s.leaveGroup n).raiseLane Code.laneMarker n (w.toNat / 2 ^ 32 % 256) else s
    else
      let s := s.wrF (Reg.ebStat n) 23 9 late
      match s.laneGrp n with
      | none => s
      | some g =>
        let l := s.lane n
        if s.inGroup n || (l.lost && decide (l.goodMarkers < 2)) || !l.identOk then s
        else if decide (s.skewLimit n g < late) || (s.laneMode n == 2 && setPoint.isNone) then
          s.raiseLane Code.laneSkew n late
        else s.joinGroup n g setPoint

def execAlignmentMarker (lane : Nat) (w : W64) (late : Nat) (setPoint : Option Nat) (s : State) :
    Host.Outcome State Fault Refusal :=
  s.onUnit (laneOk lane) (s.marker lane w late setPoint)

/-- MARKER_SEND (10 R273): the marker of Table 10.5 takes the next idle block of every lane of the group, once the 16,384th block since the
last marker has come on each. -/
def State.markerSend (s : State) (n : Nat) : State :=
  if !s.sends n then s
  else
    let s := s.settleLane n
    match s.laneGrp n with
    | none => if s.markerDue n then s.putMarker n else s
    | some g =>
      let ls := (s.grpLanes g).filter s.sends
      if !ls.all s.markerDue then s
      else if ((s.grpSt g).take ((s.txPos ls).getD 0) false).1.isNone then ls.foldl State.putMarker s
      else s.setGrp g { s.grpSt g with markDue := true }

def execMarkerSend (lane : Nat) (s : State) : Host.Outcome State Fault Refusal :=
  s.onUnit (laneOk lane) (s.markerSend lane)

/-- FEC_CODEWORD (10 R257, 11 R303): the 700 levels of a codeword, of its message symbols and then of its check symbols. The receiver locks to codewords at the third of 3 zero syndromes in a row;
from then on corrected symbols are counted and the codeword's 20 blocks come out, invalid where it cannot be corrected, and 8 such in a row
lose that lock and force HUNT. -/
def State.fecCodeword (s : State) (n : Nat) (levels : List Nat) : State :=
  if s.laneRate n < 4 ∨ s.calwiza n = false then s
  else match (s.lane n).fecLock, fecDecode levels with
    | false, r =>
      let good := if r.any (·.2 == 0) then (s.lane n).fecGood + 1 else 0
      s.mapLane n (fun l => { l with fecLock := decide (3 ≤ good), fecGood := if good < 3 then good else 0, fecFails := 0, fecBlocks := [] })
    | true, some (bl, k) =>
      let s := s.mapLane n (fun l => { l with fecFails := 0, fecBlocks := bl.map some })
      if k = 0 then s else s.bump (Reg.fecCorr n)
    | true, none =>
      let fails := (s.lane n).fecFails + 1
      let s := s.mapLane n (fun l => { l with fecFails := fails, fecBlocks := List.replicate 20 none })
      let s := (s.bump (Reg.fecUncorr n)).raiseLane Code.fecUncorr n 0
      if fails < 8 then s
      else
        let s := s.mapLane n (fun l => { l with fecLock := false, fecFails := 0, fecBlocks := [] })
        if s.lockState n = 2 then s.loseLock n else s

def execFecCodeword (lane : Nat) (message check : List Nat) (s : State) : Host.Outcome State Fault Refusal :=
  s.onUnit (laneOk lane && message.length == 650 && check.length == 50 && (message ++ check).all (fun l => decide (l < 4)))
    (s.fecCodeword lane (message ++ check))

/-! The TX PLL and power (10 R283 to R285). -/

def edgeLanes (e : Nat) : List Nat := (List.range 36).map (fun i => 36 * e + i)

/-- TX_PLL_UNLOCK: every lane of the die puts its TX into electrical idle and leaves its group. -/
def State.txPllUnlock (s : State) (e : Nat) : State :=
  let s := { s with link.pll := s.link.pll.set e false }
  let s := s.raiseNow Code.txPllUnlock { die := Die.edge e } 0
  (edgeLanes e).foldl (fun t n => let t := (t.settleLane n).leaveGroup n
                                  if t.txState n = 2 then t.txOn n else t) s

def execTxPllUnlock (edge : Nat) (s : State) : Host.Outcome State Fault Refusal :=
  s.onUnit (decide (edge < 4)) (if s.link.pll.getD edge false then s.txPllUnlock edge else s)

/-- TX_PLL_RELOCK: each lane that is not Off in both directions retrains. -/
def State.txPllRelock (s : State) (e : Nat) : State :=
  (edgeLanes e).foldl (fun t n => if t.calwiza n && (t.rxState n != Rx.off || t.txState n != 0) then t.train n 1 else
                                  if (t.lane n).pllIdle then t.txOn n else t)
    { s with link.pll := s.link.pll.set e true }

def execTxPllRelock (edge : Nat) (s : State) : Host.Outcome State Fault Refusal :=
  s.onUnit (decide (edge < 4)) (if s.link.pll.getD edge true then s else s.txPllRelock edge)

/-- LANE_POWER_RETURN (10 R283 to R285): a TX is On again, where the TX PLL has lock, or an RX returns from Hold to the state it left; its place in the
group stands while it holds lock and FILL lies within DRIFT_LIM. -/
def State.powerReturn (s : State) (n : Nat) (tx : Bool) : State :=
  let l := s.lane n
  if tx then
    if l.txReturn then ((s.txOn n).mapLane n (fun l => { l with txReturn := false })).txJoin n else s
  else if l.rxReturn && s.rxState n == Rx.hold then
    (s.setRx n l.heldState).mapLane n (fun l => { l with rxReturn := false })
  else s

def execLanePowerReturn (lane : Nat) (tx : Bool) (s : State) : Host.Outcome State Fault Refusal :=
  s.onUnit (laneOk lane) (s.powerReturn lane tx)

/-- LANE_EYE_DONE (10 R265). -/
def execLaneEyeDone (lane height width : Nat) (s : State) : Host.Outcome State Fault Refusal :=
  s.onUnit (laneOk lane && decide (height < 65536 ∧ width < 65536))
    (if s.link.scans.elem lane then
      let s := { s with link.scans := s.link.scans.filter (· != lane) }
      (s.wr (Reg.eye lane) (BitVec.ofNat 32 (height * 65536 + width))).complete
        (fun a => a.opcode == Op.laneEye && a.mask == lane) Status.ok []
    else s)

/-- PRBS_CHECKER_LOCK (10 R287): the bits that the checker has received since the last event, first bit first; its CHK_LOCK follows from
them (log 9). -/
def execPrbsCheckerLock (lane : Nat) (s : State) (bits : List Bool) : Host.Outcome State Fault Refusal :=
  s.onUnit (laneOk lane) (if s.laneMode lane = 4 ∧ s.rxState lane ≠ Rx.off ∧ bit (s.rd (Reg.prbsCfg lane)) 30 then
    bits.foldl (fun t b => t.checkBit lane b) s else s)

/-! Commands (10 R256, R258, R266, R270, R284 to R288). -/

/-- R286: a lane that carries class-T fields of a context Armed, Running or Draining, or a twin lane in twin mode, is in use. -/
def State.laneInUse (s : State) (n : Nat) : Bool :=
  (match s.laneGrp n with
   | some g => s.link.classT.any (fun e => e.2 == g &&
       (s.ctxState e.1 == Ctx.armed || s.ctxState e.1 == Ctx.running || s.ctxState e.1 == Ctx.draining))
   | none => false) ||
  (decide (136 ≤ n) && bit (s.rd Reg.twinCfg) 31)

def State.lanesFree (s : State) (ls : List Nat) : Option Rej :=
  (ls.find? (fun n => s.laneInUse n)).map (fun n => rej Status.laneInUse n)

/-- Modes a rate allows (10 Table 10.1, R258). -/
def modeOk (rate mode : Nat) : Bool :=
  decide (mode ≤ 4) && (mode != 2 || decide (rate ≤ 3)) && (mode != 3 || decide (rate ≤ 1))

/-- The receive direction of a PRBS or time-port lane comes on: a time-port lane shows Locked once its PCS has block lock (log 21). -/
def State.rxOn (s : State) (n : Nat) : State := s.setRx n (if s.laneMode n = 3 then Rx.training else Rx.locked)

/-- The mask of a group's lanes. -/
def State.grpMask (s : State) (g : Nat) : Nat := (s.rd (Reg.grpLanesLo g)).toNat + s.rdF (Reg.grpLanesHi g) 0 4 * 2 ^ 32

/-- A lane leaves the configuration of its group, which loses its place; a parity lane takes PARITY with it, and the last lane the group
(10 R258, R287; log 21). -/
def State.ungroup (s : State) (n : Nat) : State :=
  match s.laneGrp n with
  | none => s
  | some g =>
    let par := s.isParityLane n
    let s := (s.settleTx g).leaveGroup n
    let s := s.wr (Reg.laneCfg n) (setFld (s.rd (Reg.laneCfg n)) 5 11 0)
    let keep := natOf 36 (fun i => nbit (s.grpMask g) i && !(36 * s.rdF (Reg.grpCfg g) 16 2 + i == n))
    let s := (s.wr (Reg.grpLanesLo g) (BitVec.ofNat 32 keep)).wr (Reg.grpLanesHi g) (BitVec.ofNat 32 (keep / 2 ^ 32))
    if keep = 0 then (s.wr (Reg.grpCfg g) 0).wr (Reg.grpStat g) 0
    else
      let c := setFld (s.rd (Reg.grpCfg g)) 24 4 (s.rdF (Reg.grpCfg g) 24 4 - 1)
      (s.wr (Reg.grpCfg g) (if par then setBit c 30 false else c)).grpUpdate g

/-- Sets a lane's mode and rate: a lane that leaves Off, or whose rate changes, trains; Off turns both directions Off; PRBS and
time-port lanes start without training blocks and belong to no group (10 R258, R266, R287; log 21). -/
def State.setMode (s : State) (n rate mode : Nat) : State :=
  let old := s.rd (Reg.laneCfg n)
  let same := decide (fld old 29 3 = rate ∧ fld old 26 3 = mode)
  if same then s
  else
    let s := (((s.settleLane n).leaveGroup n).stopInj n).chkReset n
    let s := s.mapLane n (fun l => { l with fecLock := false, fecGood := 0, fecFails := 0, fecBlocks := [], flips := [], txUp := false })
    let s := s.wr (Reg.laneCfg n) (setFld (setFld (s.rd (Reg.laneCfg n)) 29 3 rate) 26 3 mode)
    match mode with
    | 0 => (s.rxOff n).setTx n 0
    | 1 => s.train n 1
    | 2 => s.train n 1
    | _ => (((s.ungroup n).rxOff n).rxOn n).txOn n

/-- LANE_CONFIG (10 R256): one rate for a quad and a mode for each of its lanes. -/
def execLaneConfig (h : Hdr) (quad rate : Nat) (modes : List Nat) (s : State) : Host.Outcome State Fault Refusal :=
  s.done (s.serve h Op.laneConfig
    (fun s =>
      let ls := (List.range 4).map (fun i => 4 * quad + i)
      match firstRej [(decide (quad < 36 ∧ rate ≤ 5 ∧ modes.length = 4) && modes.all (modeOk rate), rej Status.valueRange)] with
      | some r => some r
      | none => s.lanesFree ls)
    (fun s => { st := (List.range 4).foldl (fun t i => t.setMode (4 * quad + i) rate (modes.getD i 0)) s }))

/-- LANE_TRAIN (10 R266, R270): training restarts at attempt 1, except for a lane whose MODE is Off, PRBS or time-port. -/
def execLaneTrain (h : Hdr) (lane : Nat) (s : State) : Host.Outcome State Fault Refusal :=
  s.done (s.serve h Op.laneTrain
    (fun _ => firstRej [(laneOk lane && s.calwiza lane, rej Status.valueRange)])
    (fun s => { st := s.train lane 1 }))

/-- LANE_POWER (10 R284): the two directions' states; Off in training ends it without Down, Idle and Hold return to On after their times.
TX 0 Off, 1 Idle, 2 On; RX 0 Off, 1 Hold, 2 On. A direction that leaves Off starts training, with both directions On (10 R266); one that the
same command turns Off ends that training at once, and a TX that leaves Off without it stays Off (log 21). -/
def State.lanePower (s : State) (n tx rx : Nat) : State :=
  let s := s.settleLane n
  let txLeaves := s.txState n == 0 && tx != 0
  let rxLeaves := s.rxState n == Rx.off && rx != 0
  let turned := (s.txState n != 0 && tx == 0) || (s.rxState n != Rx.off && rx == 0)
  let training := s.rxState n == Rx.training
  let s := match tx with
    | 0 => (s.leaveGroup n).setTx n 0
    | 1 =>
      if s.txState n = 2 ∧ !(s.calwiza n && training) then
        let s := match s.laneGrp n with
          | some g => s.sendS (s.ctrlFrame g (s.rdF (Reg.laneState n) 0 6) 2 (bytesLE 8 0))
          | none => s
        s.setTx n 1
      else s
    | _ => if s.txState n = 1 then s.mapLane n (fun l => { l with txReturn := true }) else s
  let s := match rx with
    | 0 => s.rxOff n
    | 1 => s.rxHold n
    | _ => if s.rxState n = Rx.hold then s.mapLane n (fun l => { l with rxReturn := true }) else s
  if s.calwiza n then
    (if (txLeaves || rxLeaves) && !turned then s.train n 1
     else if tx = 0 ∧ s.rxState n = Rx.training then s.rxOff n
     else s)
  else if s.laneMode n = 0 then s
  else
    let s := if txLeaves then (if tx = 1 then s.setTx n 1 else s.txOn n) else s
    if rxLeaves then s.rxOn n else s

def execLanePower (h : Hdr) (lane tx st : Nat) (s : State) : Host.Outcome State Fault Refusal :=
  s.done (s.serve h Op.lanePower
    (fun s => match firstRej [(laneOk lane && decide (tx < 3 ∧ st < 3), rej Status.valueRange)] with
      | some r => some r
      | none => s.lanesFree [lane])
    (fun s => { st := s.lanePower lane tx st }))

/-- Whether a stream entry is in use (11 Table 11.12). -/
def State.streamOn (s : State) (st : Nat) : Bool := bit (s.rd (Reg.outStream st + 4)) 31

/-- An item of an outbound stream as one number (11 Table 11.8). -/
def State.outItemW (s : State) (st i : Nat) : Nat := (s.rd (Reg.outItem st i)).toNat + (s.rd (Reg.outItem st i + 4)).toNat * 2 ^ 32

/-- Whether items take inbound bytes from a group. -/
def itemsFrom (ws : List Nat) (g : Nat) : Bool := ws.any (fun w => w / 2 ^ 61 == 4 && w / 2 ^ 55 % 64 == g)

/-- Whether a group is an inbound front-end group (01 R30; 11 R304, R305): fast control goes back upstream on it, a field entry takes
bytes of its streams, or an outbound stream sends them on. -/
def State.inboundGrp (s : State) (g : Nat) : Bool :=
  fld (s.rd (Reg.fastCtl g)) 30 2 != 0 ||
  (List.range 1024).any (fun f => bit (s.rd (Reg.fieldEnt f)) 31 && s.rdF (Reg.fieldEnt f) 23 6 == g) ||
  (List.range 64).any (fun st => s.streamOn st && itemsFrom ((List.range 64).map (s.outItemW st)) g)

/-- The inbound front-end lanes beside those of a group. -/
def State.inboundLanes (s : State) (but : Nat) : Nat :=
  ((List.range 64).filter (fun g => g != but && s.inboundGrp g)).foldl (fun n g => n + (s.grpLanes g).length) 0

/-- Whether a group is an aggregated outbound group (11 Table 11.12). -/
def State.outboundGrp (s : State) (g : Nat) : Bool :=
  (List.range 64).any (fun st => s.streamOn st && s.rdF (Reg.outStream st + 4) 25 6 == g)

/-- The lanes of a group configuration: 1 to 16 different Calwiza lanes of one Edge die, of no other group (10 R275). -/
def State.groupLanesOk (s : State) (g : Nat) (c : GroupCfg) : Bool :=
  decide (1 ≤ c.lanes.length ∧ c.lanes.length ≤ 16 ∧ c.declSkew ≤ 32 ∧ c.tickDiv < 16) && decide c.lanes.Nodup &&
  c.lanes.all (fun n => laneOk n && n / 36 == (c.lanes.headD 0) / 36 && s.laneMode n != 4 && s.laneMode n != 3 &&
    (match s.laneGrp n with
     | some g' => g' == g
     | none => true)) &&
  (!c.parity || decide (2 ≤ c.lanes.length))

def clearGrpBits (w : W32) : W32 := setFld w 5 11 0

/-- LANE_GROUP (10 R275, 11 R305): the lanes leave their old assignment, take positions in the order named, and the group
starts Down. -/
def State.laneGroup (s : State) (g : Nat) (c : GroupCfg) : State :=
  let s := (s.grpLanes g).foldl (fun t n =>
    let t := t.leaveGroup n
    t.wr (Reg.laneCfg n) (clearGrpBits (t.rd (Reg.laneCfg n)))) (c.lanes.foldl State.settleLane (s.settleTx g))
  let s := s.setGrp g { s.grpSt g with txSeq := 0, rxSeq := 0, kept := [], waits := [], down := false, accepts := [], txq := [], txT := [], shorts := [],
                                       tickBlk := none, markDue := false, drops := [] }
  let s := s.wr (Reg.fastCtl g) (BitVec.ofNat 32 ((if c.fcEn then 2 ^ 31 else 0) + (if c.acceptEn then 2 ^ 30 else 0) + c.tickDiv * 2 ^ 16))
  if !c.en then (s.wr (Reg.grpCfg g) 0).wr (Reg.grpStat g) 0
  else
    let e := (c.lanes.headD 0) / 36
    let mask := c.lanes.foldl (fun m n => m + 2 ^ (n % 36)) 0
    let s := s.wr (Reg.grpCfg g) (BitVec.ofNat 32 (2 ^ 31 + (if c.parity then 2 ^ 30 else 0) + (c.lanes.length - 1) * 2 ^ 24 +
      c.declSkew * 2 ^ 18 + e * 2 ^ 16))
    let s := (s.wr (Reg.grpLanesLo g) (BitVec.ofNat 32 mask)).wr (Reg.grpLanesHi g) (BitVec.ofNat 32 (mask / 2 ^ 32))
    let s := s.wr (Reg.grpStat g) 0
    (List.range c.lanes.length).foldl (fun t i =>
      let n := c.lanes.getD i 0
      let t := t.wr (Reg.laneCfg n) (setFld (setFld (setBit (t.rd (Reg.laneCfg n)) 15 true) 9 6 g) 5 4 i)
      t.mapLane n (fun l => { l with lost := false, goodMarkers := 0 })) s

def execLaneGroup (h : Hdr) (g : Nat) (cfg : GroupCfg) (s : State) : Host.Outcome State Fault Refusal :=
  s.done (s.serve h Op.laneGroup
    (fun s => match firstRej
        [ (decide (g < 64) && (!cfg.en || s.groupLanesOk g cfg), rej Status.valueRange)
        , (!(cfg.fcEn || cfg.acceptEn) || (cfg.en && s.dev.concentrator && !s.outboundGrp g &&
            !(bit (s.rd Reg.twinCfg) 31 && g == 63)), rej Status.valueRange)
        , (!(cfg.en && s.dev.concentrator && (cfg.fcEn || cfg.acceptEn || s.inboundGrp g)) || decide (s.inboundLanes g + cfg.lanes.length ≤ 128), rej Status.valueRange) ] with
      | some r => some r
      | none => s.lanesFree (cfg.lanes ++ s.grpLanes g))
    (fun s => { st := s.laneGroup g cfg }))

def execLanePrbs (h : Hdr) (lane : Nat) (w : W32) (s : State) : Host.Outcome State Fault Refusal :=
  s.done (s.serve h Op.lanePrbs
    (fun s => match firstRej
        [ (laneOk lane && s.laneMode lane == 4 && decide (fld w 26 3 ≤ 4), rej Status.valueRange)
        , (s.shedStage == 0, rej Status.shedActive s.shedStage) ] with
      | some r => some r
      | none => s.lanesFree [lane])
    (fun s => { st := s.setPrbs lane w }))

/-- A write of INJ_CFG (10 R288): INJ_MODE 0 ends rate injection. -/
def State.setInj (s : State) (n : Nat) (w : W32) : State :=
  let s := (s.settleInj n).wr (Reg.injCfg n) (setFld w 0 18 0)
  if fld w 30 2 = 0 then s.mapLane n (fun l => { l with injecting := false }) else s

/-- The first bit of a lane's line that has not left. -/
def State.nextBit (s : State) (n : Nat) : Nat :=
  if s.sends n then max (s.bitAt n) (blockBits (s.laneRate n) * ((s.lane n).txNext - (s.lane n).txFec.length)) else s.bitAt n

/-- INJ_GO (10 R288): the next bits of the line, of a single error or a burst, are flipped and counted; in mode rate injection runs until
INJ_MODE is written 0. -/
def State.injGo (s : State) (n : Nat) : State :=
  let s := s.settleLane n
  let w := s.rd (Reg.injCfg n)
  let flip := fun (k : Nat) => (s.wrapBy (Reg.injCount n) k).mapLane n (fun l =>
    { l with flips := l.flips.filter (fun r => decide (s.bitAt n ≤ r.1 + r.2 + 2800)) ++ [(s.nextBit n, k)] })
  if s.laneMode n = 0 ∨ s.laneMode n = 3 then s
  else match fld w 30 2 with
    | 1 => flip 1
    | 2 => flip (fld w 24 6 + 1)
    | 3 => (s.settleInj n).mapLane n (fun l => { l with injecting := true, injFrom := if l.injecting then l.injFrom else s.nextBit n })
    | _ => s

def execLaneInject (h : Hdr) (lane : Nat) (w : W32) (s : State) : Host.Outcome State Fault Refusal :=
  s.done (s.serve h Op.laneInject
    (fun s => match firstRej
        [ (laneOk lane && decide (4 ≤ fld w 18 6 ∧ fld w 18 6 ≤ 40), rej Status.valueRange)
        , (s.shedStage == 0, rej Status.shedActive s.shedStage) ] with
      | some r => some r
      | none => s.lanesFree [lane])
    (fun s => { st := let s := s.setInj lane w
                      if bit w 0 then s.injGo lane else s }))

/-- INJ_GO written by the host (10 R288): accepted only while R286 permits the command, and not while stage S1 or a higher one
stops injection. -/
def execInjGo (lane : Nat) (s : State) : Host.Outcome State Fault Refusal :=
  s.onUnit (laneOk lane)
    (if s.hubOn && !s.laneInUse lane && s.shedStage == 0 then s.injGo lane else s)

/-- LANE_EYE (10 R265): a scan starts; a lane under scan is busy (15 R388), and no scan starts while a shedding stage holds (17
Table 17.1). -/
def execLaneEye (h : Hdr) (lane : Nat) (s : State) : Host.Outcome State Fault Refusal :=
  s.done (s.serve h Op.laneEye
    (fun s => firstRej [ (laneOk lane && s.rxState lane != Rx.off, rej Status.valueRange 0 0)
                       , (!s.link.scans.elem lane, rej Status.resourceBusy)
                       , (s.shedStage == 0, rej Status.shedActive s.shedStage) ])
    (fun s => { st := { s with link.scans := s.link.scans ++ [lane] }, mask := lane }))

end Sys2Proof.Machine
end

