-- ==== Sys2Proof/Machine/Packets.lean ====
section
/-! DEFINITION. Command packets as they arrive (15 R377 to R383, R391, R397, R398): steps 1 to 6 of Table 15.3, forwarding to
another part, and the SPI port. A packet that passes waits for the command processor, whose command is a row of its own. -/

namespace Sys2Proof.Machine

/-- The payload forms whose words the spec gives, without the signature block: least and greatest LENGTH for the payload words
(15 Tables 15.9, 15.9a; 18 Table 18.7). Other commands are not bounded. -/
def payloadForm (op : Nat) (ps : List W32) : Option (Nat × Nat) :=
  let p := fun i => (ps.getD i 0)
  let one := fun n => some (n, n)
  match op with
  | 0x0000 => one 0 | 0x0001 => one 0 | 0x0002 => one 0 | 0x0003 => one 1 | 0x0004 => one 3
  | 0x0005 => some (3, 1026) | 0x0006 => one 0 | 0x0100 => one 1 | 0x0101 => one 1
  | 0x0200 => one 1 | 0x0201 => some (10, 4090) | 0x0202 => one (1 + 3 * fld (p 0) 0 11) | 0x0203 => one 5 | 0x0204 => one 1
  | 0x0205 => one 2 | 0x0206 => one 2 | 0x0300 => one 1 | 0x0301 => one 2 | 0x0302 => one 2 | 0x0303 => one 1 | 0x0304 => one 1
  | 0x0500 => one (2 + 3 * fld (p 1) 0 11) | 0x0501 => one (1 + 4 * fld (p 0) 0 7) | 0x0502 => one (2 + 3 * fld (p 1) 0 7)
  | 0x0503 => one (1 + 3 * fld (p 0) 0 7) | 0x0504 => one 2 | 0x0505 => one (1 + 2 * fld (p 0) 0 12)
  | 0x0506 => one (2 + 2 * fld (p 1) 0 7) | 0x0507 => one 3
  | 0x0700 => one 3 | 0x0701 => one 2 | 0x0702 => one 2 | 0x0703 => one 1
  | 0x0801 => one 12 | 0x0802 => one 1 | 0x0900 => one 0 | 0x0901 => one 3 | 0x0902 => one 2
  | 0x0A00 => one 13 | 0x0A01 => one 25 | 0x0A02 => one 1 | 0x0A03 => one 2 | 0x0A04 => some (9, 4089) | 0x0A05 => one 1
  | 0x0A06 => one 2 | 0x0A07 => one 1 | 0x0B00 => one 1 | 0x0B01 => one 1 | 0x0B02 => one 1 | 0x0B03 => one 3
  | 0x0B04 => some (3, 1026)
  | _ => none

/-- The registers COMB_CONFIG sets and the bits of them in use (12 Table 12.7, 15 Table 15.9a). -/
def combMask (o : Nat) : Option Nat :=
  if 0x800 ≤ o ∧ o < 0x880 then
    (match (o - 0x800) % 0x10 with | 0 => some 0xE000FFFF | 4 => some 0xFFFFFFFF | 8 => some 0xFFFFFFFF | _ => none)
  else if 0x1000 ≤ o ∧ o < 0x2000 then
    (let r := (o - 0x1000) % 0x40
     if r = 0 then some 0xFF800FFF else if r = 4 then some 0xFFFF
     else if 8 ≤ r ∧ r < 0x28 ∧ r % 4 = 0 then some 0xCFFFCFFF else none)
  else if (0x2000 ≤ o ∧ o < 0x2400 ∨ 0x2400 ≤ o ∧ o < 0x2440) ∧ o % 4 = 0 then some 0xFFFF
  else none

/-- The reserved bits of the entries of a payload: of word `j` of an entry of a configuration command (15 Table 15.9a; 12 Tables 12.1, 12.3
and 12.4). -/
def entryMask (op j : Nat) : Nat :=
  match op, j with
  | 0x0500, 0 => 0xFFFFFC00 | 0x0500, 1 => 0x1FFF | 0x0500, 2 => 0xFFFF8000
  | 0x0501, 0 => 0xFFFFF800 | 0x0501, 1 => 0x0C000000 | 0x0501, 3 => 0x0FFE0000
  | 0x0502, 0 => 0xEFFFF800 | 0x0502, 2 => 0x0FFE0000
  | 0x0506, 0 => 0xF87FF000 | 0x0506, 1 => 0xFFFF0000
  | 0x0503, 0 => 0xFFFFFFC0 | 0x0503, 1 => 0x0FFF0000 | 0x0503, 2 => 0xFFFF0000
  | _, _ => 0

/-- The reserved bits of payload word `i` (15 Tables 15.9, 15.9a; 18 Table 18.7). -/
def payloadMask (op : Nat) (ps : List W32) (i : Nat) : Nat :=
  let w := fun (j : Nat) => ps.getD j 0
  match op with
  | 0x0003 => if i = 0 then 0xFFFFFFF0 else 0
  | 0x0004 => if i = 1 then 0xFFFF0000 else if i = 2 then 0xFFFFF800 else 0
  | 0x0005 => if i = 1 then 0xFFFF0000 else 0
  | 0x0B03 => if i = 1 then 0xFFFF0000 else if i = 2 then 0xFFFFF800 else 0
  | 0x0B04 => if i = 1 then 0xFFFF0000 else 0
  | 0x0100 => 0x7FFF0000
  | 0x0202 =>
    if i = 0 then 0 else if i = 1 then 0xFFFFF800
    else
      let part := bit (w (i - (i - 2) % 3)) 31
      match (i - 2) % 3 with
      | 0 => 0x7FFF0000
      | 1 => if part then 0xFFFFFFC0 else 0
      | _ => if part then 0xFFFFFFFF else 0xFFFF0000
  | 0x0203 =>
    let slot := bit (w 0) 31
    (match i with
     | 0 => if slot then 0x7FFFFFFC else 0x7FFFFFFF
     | 1 => if slot then 0xFFFFFFFF else 0
     | 2 => 0xFFFF0000
     | _ => 0)
  | 0x0205 =>
    let staged := bit (w 0) 31
    (match i with
     | 0 => if staged then 0x7FFFFFFF else 0x7FFFFFF0
     | 1 => if staged then 0 else 0xFFFFFFFF
     | _ => 0)
  | 0x0206 => if i = 0 then 0xFFFFFCFC else 0
  | 0x0300 => 0xFFFFFFF0
  | 0x0301 => if i = 0 then 0xFFFFFFF0 else 0
  | 0x0302 => if i = 0 then 0xFFFFFFF0 else 0
  | 0x0303 => 0xFFFFFFF0
  | 0x0304 => 0xFFFFFFFE
  | 0x0500 => if i = 0 then 0xF0FF8000 else if i = 1 then 0xFFFFF800 else entryMask op ((i - 2) % 3)
  | 0x0501 => if i = 0 then 0xFFFFFF80 else entryMask op ((i - 1) % 4)
  | 0x0502 => if i = 0 then 0 else if i = 1 then 0xFFFFFF80 else entryMask op ((i - 2) % 3)
  | 0x0503 => if i = 0 then 0xFFFFFF80 else entryMask op ((i - 1) % 3)
  | 0x0505 => if i = 0 then 0xFFFFF000 else if i % 2 = 1 then 0 else ((combMask (w (i - 1)).toNat).map (2 ^ 32 - 1 - ·)).getD 0
  | 0x0506 => if i = 0 then 0 else if i = 1 then 0xFFFFFF80 else entryMask op (i % 2)
  | 0x0507 => if i = 1 then 0xFFFFFFFC else 0
  | 0x0700 => if i = 1 then 0xFFFF0000 else 0
  | 0x0702 => if i = 1 then 0xFFFFFF00 else 0
  | 0x0703 => 0xFFFFFFFE
  | 0x0802 => 0xFFFFFFFE
  | 0x0902 => if i = 0 then 0xFFFF0000 else 0x00FFFFFF
  | 0x0A00 => if i = 0 then 0xFFFFFFFE else 0
  | 0x0A01 => if i = 0 then 0xFFFFFEFC else 0
  | 0x0A02 => if i = 0 then 0xFFFFFF00 else 0
  | 0x0A03 => if i = 0 then 0xFFFF0000 else 0
  | 0x0A05 => if i = 0 then 0x0000FFFE else 0
  | 0x0A06 => if i = 1 then 0xFFFFFF80 else 0
  | 0x0A07 => 0xFFFFFF00
  | 0x0B00 => 0x3FFFF
  | 0x0B01 => 0x3FFFF
  | 0x0B02 => 0xFFFF0000
  | _ => 0

/-- Whether the reserved fields of a payload are zero, and those of the signature block that ends a signed command's (00 R13; 15 Table
15.4). -/
def payloadClean (op : Nat) (signed : Bool) (ps : List W32) : Bool :=
  let n := ps.length - (if signed then 32 else 0)
  ((ps.take n).mapIdx (fun i (x : W32) => Nat.land x.toNat (payloadMask op ps i) == 0)).all id &&
  (!signed || ((ps.drop n).drop 30).all (· == 0))

/-- The expected SEQUENCE of a transport (15 R383). -/
def State.seqOf (s : State) : Transport → Nat
  | .pcie => s.rdF Reg.cmdSeq 0 24
  | .spi => s.host.seqSpi
  | .inband g p => SMap.get 0 s.host.seqInband (64 * g + p)

def State.setSeq (s : State) (tr : Transport) (v : Nat) : State :=
  match tr with
  | .pcie => s.wrF Reg.cmdSeq 0 24 v
  | .spi => { s with host.seqSpi := v % 2 ^ 24 }
  | .inband g p => { s with host.seqInband := SMap.set 0 s.host.seqInband (64 * g + p) (v % 2 ^ 24) }

/-- The CRC of a packet whose CRC word is at index `i` (15 R378). -/
def packetCrc (ws : List W32) (i : Nat) : W32 :=
  crc32 ((ws.set i 0).flatMap (fun (w : W32) => bytesLE 4 w.toNat))

/-- Whether a part is reachable: Processor personality, another part, a valid route (15 R380, 11 R310). -/
def State.routeTo (s : State) (p : Nat) : Option Nat :=
  if s.dev.concentrator ∨ p = s.dev.partId ∨ 64 ≤ p then none
  else
    let w := s.rd (Reg.meshRoute p)
    if bit w 31 then some (fld w 0 6) else none

/-- Steps 1 to 4 of Table 15.3 and the in-band rule of R398, in order: the first failure. -/
def State.packetRej (s : State) (tr : Transport) (ws : List W32) : Option Rej :=
  let w := fun i => ws.getD i 0
  let op := fld (w 0) 0 16
  let len := fld (w 1) 0 16
  let target := fld (w 1) 16 16
  let sigLen := if bit (w 2) 31 ∧ opSigned op then 32 else 0
  let form := payloadForm op (ws.drop 4)
  let lenOk := match form with
    | some (lo, hi) => decide (lo + sigLen ≤ len ∧ len ≤ hi + sigLen)
    | none => true
  let expect := match form with
    | some (lo, hi) => if lo = hi then lo + sigLen else 0xFFFF
    | none => 0xFFFF
  let here := decide (target = 0 ∨ (target = 0x8000 + s.dev.partId ∧ tr ≠ .pcie ∧ tr ≠ .spi))
  let exempt := bit (w 2) 29 || decide (target ≠ 0 ∧ tr ≠ .pcie ∧ tr ≠ .spi)
  firstRej
    [ (decide (4 ≤ ws.length) && w 3 == packetCrc ws 3, rej Status.pktCrc)
    , (decide (ws.length = 4 + len ∧ len ≤ 4092), rej Status.pktLength (ws.length - 4))
    , (!opDefined op || lenOk, rej Status.pktLength expect)
    , (decide (fld (w 0) 16 16 ≠ 0xFFFF), rej Status.pktReserved 0)
    , (decide (fld (w 2) 24 5 = 0) && (!opDefined op || !bit (w 2) 31 || opSigned op), rej Status.pktReserved 2)
    , (!opDefined op || payloadClean op (sigLen == 32) (ws.drop 4), rej Status.pktReserved)
    , (opDefined op, rej Status.opcodeUnknown)
    , (here || (decide (0x8000 ≤ target) && (s.routeTo (target - 0x8000)).isSome), rej Status.targetUnknown)
    , (exempt || decide (fld (w 2) 0 24 = s.seqOf tr), rej Status.sequenceError (s.seqOf tr)) ]

/-- A packet arrives on a transport (15 R382): rejected with a reply, forwarded, or taken for execution. -/
def State.packet (s : State) (tr : Transport) (ws : List W32) : State :=
  let w := fun i => ws.getD i 0
  let op := fld (w 0) 0 16
  let tag := fld (w 0) 16 16
  let target := fld (w 1) 16 16
  let drop := fun (t : State) => match tr with
    | .spi => { t with host.spiFull := false }
    | _ => t
  match s.packetRej tr ws with
  | some r => (drop s).reply tr tag op false r.status [r.detail]
  | none =>
    let s := if target ≠ 0 ∧ tr ≠ .pcie ∧ tr ≠ .spi then s else s.setSeq tr (fld (w 2) 0 24 + 1)
    if !s.transportOk tr op then (drop s).reply tr tag op false Status.transportDenied [(rej Status.transportDenied).detail]
    else if target = 0 ∨ target = 0x8000 + s.dev.partId then
      { s with host.fetched := s.host.fetched ++ [⟨tr, ws⟩] }
    else
      let p := target - 0x8000
      let g := (s.routeTo p).getD 0
      let bytes := ws.flatMap (fun (x : W32) => bytesLE 4 x.toNat)
      let s := (drop s).sendS (s.ctrlFrame g p 0 bytes)
      { s with host.forwarded := s.host.forwarded ++ [⟨p, tag, tr⟩] }

/-- The words of bytes. -/
def wordsOf (l : List W8) : List W32 := wordsLE (l.length / 4) (ofBytesLE l)

/-- A reply as it came in a REPLY frame (15 Table 15.2), to be delivered on a transport with FORWARDED set. -/
def replyOf (tr : Transport) (ws : List W32) : Reply :=
  let w := fun i => ws.getD i 0
  { transport := tr, tag := fld (w 0) 16 16, opcode := fld (w 0) 0 16, completion := bit (w 1) 31, forwarded := true,
    state := fld (w 1) 16 8, status := fld (w 1) 0 16, payload := (ws.drop 5).take (fld (w 2) 16 16),
    timeNs := (w 3).toNat }

/-- The command ring in units of 16 bytes. -/
def State.cmdSize (s : State) : Nat := 2 ^ (s.rdF Reg.cmdCfg 0 5) / 16

/-- Fetching from the command ring (15 R391, R392): while the reply ring has room (nothing held) and HEAD has not reached
TAIL, the next packet is fetched; one that would cross the end of the ring is found at offset 0. -/
def State.fetchRing (s : State) : List (List W32) → State
  | [] => s
  | p :: r =>
    let size := s.cmdSize
    let head := s.rdF Reg.cmdHead 4 20
    let n := ceilDiv (4 * p.length) 16
    if s.host.held.isEmpty = false ∨ head = s.rdF Reg.cmdTail 4 20 then s
    else
      let at' := if size < head + n then 0 else head
      ((s.wrF Reg.cmdHead 4 20 ((at' + n) % size)).packet .pcie p).fetchRing r

/-- CMD_TAIL (15 R391): the doorbell. `pkts` are the packets that the ring holds from HEAD to the new TAIL. -/
def State.doorbell (s : State) (tail : Nat) (pkts : List (List W32)) : State :=
  let s := s.wrF Reg.cmdTail 4 20 tail
  if bit (s.rd Reg.cmdCfg) 31 then s.fetchRing pkts else s

def execCmdTail (tail : Nat) (pkts : List (List W32)) (s : State) : Host.Outcome State Fault Refusal :=
  s.done (if s.hubOn then s.doorbell tail pkts else s)

/-- The nearer bound of a size (15 Table 15.7). -/
def clampSize (lo v : Nat) : Nat := if v < lo then lo else if 24 < v then 24 else v

/-- A write of a ring's CFG register: SIZE takes effect only while EN was clear; setting EN sets HEAD and TAIL to 0 (15 R391). -/
def State.ringCfg (s : State) (cfg tail head lo : Nat) (en : Bool) (size : Nat) : State :=
  let was := bit (s.rd cfg) 31
  let s := if was then s else s.wrF cfg 0 5 (clampSize lo (size % 32))
  let s := s.wr cfg (setBit (s.rd cfg) 31 en)
  if en && !was then (s.wr tail 0).wr head 0 else s

/-- A write of CMD_CFG: enabling also restarts SEQUENCE (15 R383). -/
def State.setCmdCfg (s : State) (en : Bool) (size : Nat) : State :=
  let was := bit (s.rd Reg.cmdCfg) 31
  let s := s.ringCfg Reg.cmdCfg Reg.cmdTail Reg.cmdHead 15 en size
  if en && !was then s.wr Reg.cmdSeq 0 else s

/-- A write of RPL_CFG: enabling releases held replies and ends the hold of a host-interface reset (19 R467). -/
def State.setRplCfg (s : State) (en : Bool) (size : Nat) : State :=
  let s := { s.ringCfg Reg.rplCfg Reg.rplTail Reg.rplHead 15 en size with host.inReset := s.host.inReset && !en }
  s.releaseHeld s.host.held.length

/-- A write of FLT_CFG. -/
def State.setFltCfg (s : State) (en : Bool) (size : Nat) : State :=
  let was := bit (s.rd Reg.fltCfg) 31
  let s := s.ringCfg Reg.fltCfg Reg.fltTail Reg.fltHead 12 en size
  if en && !was then { s with host.gapCount := 0 } else s

/-- A write of RPL_HEAD: room for held replies (15 R392). -/
def State.setRplHead (s : State) (v : Nat) : State :=
  let s := s.wrF Reg.rplHead 4 20 v
  s.releaseHeld s.host.held.length

/-- A write of IRQ_STATUS (15 R394): single bits clear where written 1. -/
def State.clearIrq (s : State) (v : W32) : State :=
  s.wr Reg.irqStatus (wordOf 4 (fun i => bit (s.rd Reg.irqStatus) i && !bit v i))

def execCmdCfg (en : Bool) (size : Nat) (s : State) : Host.Outcome State Fault Refusal :=
  s.done (if s.hubOn then s.setCmdCfg en size else s)

def execRplCfg (en : Bool) (size : Nat) (s : State) : Host.Outcome State Fault Refusal :=
  s.done (if s.hubOn then s.setRplCfg en size else s)

def execFltCfg (en : Bool) (size : Nat) (s : State) : Host.Outcome State Fault Refusal :=
  s.done (if s.hubOn then s.setFltCfg en size else s)

def execRplHead (v : Nat) (s : State) : Host.Outcome State Fault Refusal := s.done (if s.hubOn then s.setRplHead v else s)

/-- FLT_HEAD: room for records; the ring-gap record comes with the next accepted one (15 R393). -/
def execFltHead (v : Nat) (s : State) : Host.Outcome State Fault Refusal :=
  s.done (if s.hubOn then s.wrF Reg.fltHead 5 19 v else s)

def execIrqStatus (v : W32) (s : State) : Host.Outcome State Fault Refusal := s.done (if s.hubOn then s.clearIrq v else s)

/-! The SPI port (15 R397). -/

/-- PKT_WRITE: a packet written while BUF_FULL is set is discarded and sets OVERRUN. -/
def execPktWrite (ws : List W32) (s : State) : Host.Outcome State Fault Refusal :=
  s.done
    (if s.dev.state = .off then s
     else if s.host.spiFull then { s with host.overrun := true }
     else { s with host.spiFull := true }.packet .spi ws)

/-- RPL_READ: the oldest pending reply, removed when it has been read completely. -/
def execRplRead (complete : Bool) (s : State) : Host.Outcome State Fault Refusal :=
  s.done
    (if s.dev.state = .off then s
     else match s.host.spiReplies with
       | r :: rest =>
         if complete then
           { s with host.spiReplies := rest,
                    host.portOut := s.host.portOut ++ [r.words.flatMap (fun (w : W32) => bytesLE 4 w.toNat)] }
         else s
       | [] => s)

/-- The status byte of STAT_READ. -/
def State.statByte (s : State) : Nat :=
  (if s.host.spiReplies.isEmpty then 0 else 1) + (if s.host.spiFull then 2 else 0) + (if s.host.overrun then 4 else 0) +
  (if s.hubOn then 8 else 0) + (s.dev.state.code % 16) * 16

/-- STAT_READ. -/
def execStatRead (s : State) : Host.Outcome State Fault Refusal :=
  s.done
    (if s.dev.state = .off then s
     else { s with host.overrun := false, host.portOut := s.host.portOut ++ [[BitVec.ofNat 8 s.statByte]] })

end Sys2Proof.Machine
end

