-- ==== Sys2Proof/Machine/Link.lean ====
section
/-! DEFINITION. The Calwiza link layer (11): frames from the blocks that lanes hold, event frames and field extraction, control,
time, memory and fast blocks, replay, remote access, and the outbound streams of the Concentrator. -/

namespace Sys2Proof.Machine

/-! Blocks of a group. -/

/-- The block of a contributing lane at an index. -/
def State.blkAt (s : State) (n ix : Nat) : Option Blk :=
  if s.inGroup n then (s.lane n).rx.find? (fun b => b.ix == ix) else none

/-- A good block, control or data. -/
def State.goodAt (s : State) (n ix : Nat) (ctl : Bool) : Option Blk := (s.blkAt n ix).filter (fun b => !b.bad && b.ctl == ctl)

/-- Whether a lane has received past an index: its marker count has moved on, or its block count has reached it. -/
def State.passed (s : State) (n ix : Nat) : Bool :=
  let l := s.lane n
  let q := l.seqSeen.getD 0
  q != ix / 2 ^ 15 || decide (ix % 2 ^ 15 ≤ l.sinceMarker)

/-- Whether every contributing lane of a group has received an index. -/
def State.arrived (s : State) (g ix : Nat) : Bool :=
  (s.grpLanes g).all (fun n => !s.inGroup n || s.passed n ix) && (s.grpLanes g).any (fun n => s.inGroup n)

/-- Whether an index is the header of an event frame already accepted, which waits for its trailer. -/
def State.openAt (s : State) (g ix : Nat) : Bool :=
  s.link.frames.any (fun f => f.group == g && !f.closed && f.ix == ix)

/-- The control block with one of the types at the front of a group, past the headers accepted and the frames discarded: the earliest among the first of
each data lane. -/
def State.frontCtl (s : State) (g : Nat) (p : Nat → Bool) : Option Blk :=
  (s.dataLanes g).foldl (fun best n =>
    let b := if s.inGroup n then
        (s.lane n).rx.find? (fun b => b.ctl && !b.bad && p (b.w.toNat % 256) && !s.openAt g b.ix && !inDrop (s.grpSt g).drops b.ix)
      else none
    match best, b with
    | none, b => b
    | some x, some y => if y.ix < x.ix then some y else some x
    | x, none => x) none

/-- Drops the blocks of a group's lanes up to an index, and those of older markers. -/
def State.dropTo (s : State) (g ix : Nat) : State :=
  (s.grpLanes g).foldl (fun t n => t.mapLane n (fun l =>
    { l with rx := l.rx.filter (fun b => decide (ix < b.ix ∧ b.ix / 2 ^ 15 = ix / 2 ^ 15) ||
                                         b.ix / 2 ^ 15 == (ix / 2 ^ 15 + 1) % 256) })) s

/-- The payload word of data lane `n` at a row: its own, or rebuilt as the XOR of the others where one lane alone is missing
and the group has parity (11 R295); and whether it was rebuilt. -/
def State.rowWord (s : State) (g n ix : Nat) : Option (W64 × Bool) :=
  match s.goodAt n ix false with
  | some b => some (b.w, false)
  | none =>
    let others := (s.grpLanes g).filter (fun m => m != n)
    if s.grpParity g && others.all (fun m => (s.goodAt m ix false).isSome) then
      some (others.foldl (fun x m => x ^^^ ((s.goodAt m ix false).map (·.w)).getD 0) 0, true)
    else none

/-- A frame assembled from its lanes: payload bytes (none: erased), those bytes as received whatever their CRC, whether a lane was rebuilt,
whether a lane is erased beyond parity, and whether a CRC failed unrepaired. -/
structure Assembled where
  bytes : List (Option W8)
  raw : List (Option W8)
  rebuilt : Bool
  erased : Bool
  crcFail : Bool

/-- The words of a lane over header, rows and trailer, where all are good and of their kinds. -/
def State.laneWords (s : State) (n i0 : Nat) (ixs : List Nat) (it : Nat) : Option (List W64) :=
  let ws := [s.goodAt n i0 true] ++ ixs.map (fun ix => s.goodAt n ix false) ++ [s.goodAt n it true]
  if ws.all Option.isSome then some (ws.map (fun b => (b.map (·.w)).getD 0)) else none

/-- Whether words of header, rows and trailer agree with the trailer's CRC. -/
def crcGood (ws : List W64) : Bool :=
  let body := ws.dropLast
  let t := ws.getLastD 0
  (t.extractLsb' 32 32) == laneCrc body

/-- Assembles a frame with header index `i0`, rows `ixs` and trailer `it` (11 R294, R295, R299): a lane whose CRC fails is erased, and so is
one that is rebuilt and fails it again. -/
def State.assemble (s : State) (g i0 : Nat) (ixs : List Nat) (it : Nat) : Assembled :=
  let data := s.dataLanes g
  let own := data.map (fun n => s.laneWords n i0 ixs it)
  let ok := own.map (fun w => match w with | some x => crcGood x | none => false)
  let failed := (List.range data.length).filter (fun i => !(ok.getD i false))
  let crcSeen := failed.any (fun i => (own.getD i none).isSome)
  let parWords := if s.grpParity g then (s.grpLanes g).getLast?.bind (fun p => s.laneWords p i0 ixs it) else none
  let tried : Option (Nat × List W64) := match failed, parWords with
    | [i], some pw => some (i, (List.range (ixs.length + 2)).map (fun r =>
        (List.range data.length).foldl (fun w j => if j = i then w else w ^^^ (((own.getD j none).getD []).getD r 0)) (pw.getD r 0)))
    | _, _ => none
  let rebuilt := tried.filter (fun e => crcGood e.2)
  let wordAt := fun (strict : Bool) (i r : Nat) => match rebuilt with
    | some (j, x) => if i = j then some (x.getD r 0) else ((own.getD i none).map (fun (l : List W64) => l.getD r 0))
    | none => if ok.getD i false || !strict then (own.getD i none).map (fun (l : List W64) => l.getD r 0) else none
  let bytes := fun (strict : Bool) => (List.range ixs.length).flatMap (fun r => (List.range data.length).flatMap (fun i =>
    match wordAt strict i (r + 1) with
    | some w => (bytesLE 8 w.toNat).map some
    | none => List.replicate 8 none))
  { bytes := bytes true, raw := bytes false, rebuilt := rebuilt.isSome, erased := !failed.isEmpty && rebuilt.isNone,
    crcFail := (crcSeen || tried.isSome) && rebuilt.isNone }

/-- The rows and the end of a frame after its header on one lane (11 R293): its trailer, or the header that cuts it off, before which it ends
broken. FAST blocks between the rows of a control frame are passed over; any other block that is no data block stands in a row's place. -/
def scanRows (ctrl : Bool) : List Blk → List Nat × Option (Nat × Bool)
  | [] => ([], none)
  | b :: r =>
    if isTrailer b then ([], some (b.ix, true))
    else if isFrameHdr b then ([], some (b.ix - 1, false))
    else
      let (rows, e) := scanRows ctrl r
      if ctrl && b.ctl && !b.bad && b.w.toNat % 256 == 0xE8 then (rows, e) else (b.ix :: rows, e)

/-- The rows and the end of the frame whose header stands at `i0`. -/
def State.frameRows (s : State) (g i0 : Nat) (ctrl : Bool) : Option (List Nat × Nat × Bool) :=
  ((s.dataLanes g).filterMap (fun n =>
    if s.inGroup n then
      match scanRows ctrl (((s.lane n).rx.dropWhile (fun b => b.ix != i0)).drop 1) with
      | (rows, some e) => some (rows, e)
      | _ => none
    else none)).head?

/-- A frame other than an event frame at the front of a group, once its trailer has come (11 R300, R301, R311): header, payload
bytes, whether it is intact, the time its header was stamped, the index of its last block, and the state without its blocks. -/
structure Popped where
  hdr : Nat
  bytes : List W8
  ok : Bool
  stamp : Nat
  last : Nat
  st : State

def State.popFrame (s : State) (g btype : Nat) : Option Popped :=
  match s.frontCtl g isHeader with
  | some b =>
    if b.w.toNat % 256 ≠ btype then none
    else match s.frameRows g b.ix (btype == 0xE4) with
      | some (rows, e, whole) =>
        if s.arrived g e then
          let a := s.assemble g b.ix rows e
          some ⟨b.w.toNat, a.bytes.map (fun x => x.getD 0), whole && !a.erased && a.bytes.all Option.isSome, b.stamp, e, s.dropTo g e⟩
        else none
      | none => none
  | none => none

def wbits (w lo n : Nat) : Nat := (w / 2 ^ lo) % 2 ^ n
def bytesAt (l : List W8) (o n : Nat) : Nat := ofBytesLE ((l.drop o).take n)

def grpOk (g : Nat) : Bool := decide (g < 64)

/-! Expected frames (11 R298, 12 R317). -/

/-- The release cycle of a field in FAB cycles after its event's strobe. -/
def State.fieldRelease (s : State) (f : Nat) : Nat :=
  s.rdF (Reg.fieldEnt f + 8) 24 8 * s.cTick + s.rdF (Reg.fieldEnt f + 8) 0 16

def State.fieldOf (s : State) (g st f : Nat) : Bool :=
  let w := s.rd (Reg.fieldEnt f)
  bit w 31 && fld w 23 6 == g && fld w 15 8 == st

/-- The field entries of a stream. -/
def State.fieldsOf (s : State) (g st : Nat) : List Nat := (List.range 1024).filter (s.fieldOf g st)

/-- FE_DELAY in SAMPLE cycles (12 R317). -/
def State.feDelay (s : State) : Nat := s.rdF Reg.feCfg 24 4 * (s.cTick / 2) + s.rdF Reg.feCfg 0 15

def State.channelsOf (s : State) (g st : Nat) : List Nat :=
  (List.range 1024).filter (fun c =>
    let w := s.rd (Reg.sch c)
    bit w 31 && fld w 21 6 == g && fld w 13 8 == st)

/-- Lane ingest and field extraction (02 Table 2.6). -/
def extraction : Nat := 17

/-- The field entry of a stream with the lowest OFFSET (11 R298). -/
def State.firstField (s : State) (g st : Nat) : Option Nat :=
  (s.fieldsOf g st).foldl (fun m f => match m with
    | some x => if s.rdF (Reg.fieldEnt f) 0 15 < s.rdF (Reg.fieldEnt x) 0 15 then some f else m
    | none => some f) none

/-- The FAB cycle, after its event's strobe, at which a stream's header is expected: by its field entry with the lowest OFFSET, and by the
entry of the samples where it carries samples alone (log 22); none where nothing is extracted. It may lie before the strobe of R317's
refusal only for field entries of a part's own making, hence an integer. -/
def State.expected (s : State) (g st : Nat) : Option Int :=
  match s.firstField g st with
  | some f => some ((s.fieldRelease f : Int) - (extraction : Int))
  | none => if (s.channelsOf g st).isEmpty then none else some ((2 * s.feDelay : Nat) - (extraction : Int))

/-- The block time of a rate in FAB cycles, as a fraction (10 Table 10.1). -/
def blockTime : Nat → Nat × Nat
  | 0 => (256, 25)
  | 1 => (512, 125)
  | 2 => (1408, 375)
  | _ => (704, 375)

def State.grpRate (s : State) (g : Nat) : Nat := s.laneRate ((s.grpLanes g).headD 0)

/-- EARLY_BLK of a stream: of the same entry (DEDUCED, log 22); 0 for a stream of samples alone. -/
def State.earlyBlk (s : State) (g st : Nat) : Nat :=
  ((s.firstField g st).map (fun f => min 64 (s.rdF (Reg.fieldEnt f + 8) 16 8))).getD 0

/-- The FAB cycles from now (cycle `cyc` of this tick) to the expected block of event `n`. -/
def State.untilExpected (s : State) (n : W32) (e : Int) (cyc : Nat) : Int :=
  tickDiff n s.tickId * (s.cTick : Int) + e - (cyc : Int)

/-- Whether a header of event `n` that arrives in FAB cycle `cyc` is the one expected (11 R298): at most EARLY_BLK blocks early,
and not after the expected block. -/
def State.headerFits (s : State) (g st : Nat) (n : W32) (cyc : Nat) : Bool :=
  match s.expected g st with
  | none => true
  | some e =>
    let d := s.untilExpected n e cyc
    let (a, b) := blockTime (s.grpRate g)
    decide (-(ceilDiv a b : Int) < d ∧ d * (b : Int) ≤ (s.earlyBlk g st * a : Nat))

/-- The event whose header a stream expects next in FAB cycle `cyc` of this tick: the first whose expected block has not passed. -/
def State.nextExpected (s : State) (g st cyc : Nat) : W32 :=
  match s.expected g st with
  | none => s.tickId
  | some e =>
    let (a, b) := blockTime (s.grpRate g)
    s.tickId + BitVec.ofInt 32 (((cyc : Int) - e - (ceilDiv a b : Int)) / (max 1 s.cTick : Nat) + 1)

def State.findFrame (s : State) (g st : Nat) (n : W32) : Option RxFrame :=
  s.link.frames.find? (fun f => f.group == g && f.stream == st && f.tick == n)

def StreamEv.new (g st : Nat) (n : W32) : StreamEv := ⟨g, st, n, false, false, false, false⟩

/-- What is noted of a stream's event. -/
def State.streamEv (s : State) (g st : Nat) (n : W32) : StreamEv :=
  (s.link.events.find? (fun e => e.group == g && e.stream == st && e.tick == n)).getD (StreamEv.new g st n)

def State.noteStream (s : State) (g st : Nat) (n : W32) (f : StreamEv → StreamEv) : State :=
  let e := f (s.streamEv g st n)
  { s with link.events := s.link.events.filter (fun x => !(x.group == g && x.stream == st && x.tick == n)) ++ [e] }

/-- Whether a stream carries class-T fields, whose frame faults count for a Timed context (16 R420). -/
def State.streamClassT (s : State) (g st : Nat) : Bool := (s.fieldsOf g st).any (fun f => bit (s.rd (Reg.fieldEnt f)) 30)

/-- A frame code (21 layout F). -/
def State.raiseFrame (s : State) (code g st : Nat) (n hdr : W32) : State :=
  s.raise code { die := Die.edge (s.rdF (Reg.grpCfg g) 16 2), unit := g, sub := st } n (detailF g st hdr 0)

/-- EVENT_HDR (11 R298): the event header at the front of a group is accepted, or discarded with FRAME_TICK, which the event that was expected
carries. -/
def State.eventHdr (s : State) (g cyc : Nat) : State :=
  match s.frontCtl g isHeader with
  | some b =>
    let w := b.w.toNat
    let st := wbits w 24 8
    let n : W32 := BitVec.ofNat 32 (wbits w 32 32)
    if w % 256 ≠ 0xE2 ∨ (g = 63 ∧ st = 255 ∧ bit (s.rd Reg.twinCfg) 31) then s
    else
      let s := (s.atCycle cyc).dropTo g (b.ix - 1)
      if s.headerFits g st n cyc && (s.findFrame g st n).isNone then
        let f : RxFrame :=
          { group := g, stream := st, tick := n, rows := wbits w 16 8 + 1, missing := nbit w 15, gap := nbit w 14,
            dec := nbit w 13, ix := b.ix, closed := false, bytes := [], raw := [], rebuilt := false, crcFail := false }
        { s with link.frames := s.link.frames ++ [f] }
      else
        let x := s.nextExpected g st cyc
        let s := (s.dropTo g b.ix).noteStream g st x (fun e => { e with wrong := true })
        s.raiseFrame Code.frameTick g st x n
  | none => s

def execEventHdr (g cyc : Nat) (s : State) : Host.Outcome State Fault Refusal := s.onUnit (grpOk g) (s.eventHdr g cyc)

/-- The monitor of the core that a field is bound for (11 R299): tile, 16 × context + GROUP. -/
structure FieldDest where
  tile : Nat
  lcores : List Nat
  dq : Nat

/-- Where a field goes (11 Table 11.3): the tile of its NoP stop, and a core or the cores of a tree. -/
def State.fieldDest (s : State) (f : Nat) : FieldDest :=
  let w := s.rd (Reg.fieldEnt f + 4)
  let t := fld w 20 7 / 4
  if bit w 10 then
    match s.ant.trees.find? (fun e => e.2.tile == t && e.2.id == fld w 11 8) with
    | some e => ⟨t, bitsOf e.2.mask 512, e.2.dq⟩
    | none => ⟨t, [], fld w 7 3⟩
  else ⟨t, [fld w 11 9], fld w 7 3⟩

/-- The context a field of a core's queue belongs to: the lowest VALID context of the core whose queue is enabled (log 22). -/
def State.fieldCtx (s : State) (t lc dq : Nat) : Option Nat :=
  let c := s.phys t lc
  (List.range 4).find? (fun k => s.ctxValid t c k && s.qEn t c k dq)

/-- Marks the stage groups of the cores that a stream's fields reach as failed for an event, from 16 FAB cycles on (11 R299). -/
def State.failStream (s : State) (g st : Nat) (n : W32) : State :=
  let marks := (s.fieldsOf g st).flatMap (fun f =>
    let d := s.fieldDest f
    d.lcores.filterMap (fun lc => (s.fieldCtx d.tile lc d.dq).map (fun k =>
      (d.tile, 16 * k + s.rdF (Reg.ctxCfg d.tile (s.phys d.tile lc) k) 16 4, n, s.tod.fab + 16))))
  { s with clk.failed := s.clk.failed ++ marks }

/-- TRAILER (11 R299): the frame of a stream closes, its lanes' CRCs are checked, one lane is rebuilt from parity, and an
unrepaired failure selects the fallback of the outputs that depend on the receiving groups. GRP_STAT shows what the frame needed: Protected,
or Degraded (10 R280). -/
def State.trailer (s : State) (g st : Nat) : State :=
  match s.link.frames.find? (fun f => f.group == g && f.stream == st && !f.closed) with
  | some f =>
    let ixs := (List.range f.rows).map (fun r => f.ix + 1 + r)
    let e := f.ix + 1 + f.rows
    if !s.arrived g e then s
    else
      let a := s.assemble g f.ix ixs e
      let f' := { f with closed := true, bytes := a.bytes, raw := a.raw, rebuilt := a.rebuilt, crcFail := a.crcFail }
      let s := { s with link.frames := s.link.frames.map (fun x => if x = f then f' else x) }
      let s := s.dropTo g e
      let s := if s.grpState g = 0 then s
        else s.wrF (Reg.grpStat g) 30 2 (if a.erased then 3 else if a.rebuilt then max 2 (s.grpByLanes g) else s.grpByLanes g)
      let s := if a.rebuilt then s.bump (Reg.grpParityUsed g) else s
      let s := if a.erased then (s.bump (Reg.grpMissing g)).raiseGrp Code.groupDegraded g 0 else s
      if a.crcFail then (s.failStream g st f.tick).raiseFrame Code.frameCrc g st f.tick f.tick else s
  | none => s

def execTrailer (g st : Nat) (s : State) : Host.Outcome State Fault Refusal :=
  s.onUnit (grpOk g && decide (st < 256)) (s.trailer g st)

end Sys2Proof.Machine
end

