-- ==== Sys2Proof/Machine/LinkServices.lean ====
section
/-! DEFINITION. Field delivery, control and memory frames, replay, remote access, outbound streams, and the link commands (11 R297
to R314; 15 R380, R398). -/

namespace Sys2Proof.Machine

/-! Fields (11 R297, R298). -/

/-- A payload byte of an event's frame: not arrived, erased, or its value. -/
inductive PByte where
  | notYet
  | erased
  | val (b : W8)

def State.payloadByte (s : State) (f : RxFrame) (b : Nat) : PByte :=
  if f.closed then
    match f.bytes[b]? with
    | some (some x) => .val x
    | _ => .erased
  else
    let data := s.dataLanes f.group
    let n := max 1 data.length
    let ix := f.ix + 1 + b / (8 * n)
    if !s.arrived f.group ix then .notYet
    else match s.rowWord f.group (data.getD (b % (8 * n) / 8) 0) ix with
      | some (w, _) => .val (w.extractLsb' (8 * (b % 8)) 8)
      | none => .erased

/-- Bytes of an event: all of them, or why not. -/
def State.payloadBytes (s : State) (g st : Nat) (n : W32) (off len : Nat) : Except Bool (List W8) :=
  match s.findFrame g st n with
  | none => .error false
  | some f =>
    let bs := (List.range len).map (fun i => s.payloadByte f (off + i))
    if bs.any (fun b => match b with | .notYet => true | _ => false) then .error true
    else if bs.any (fun b => match b with | .erased => true | _ => false) then .error false
    else .ok (bs.map (fun b => match b with | .val x => x | _ => 0))

/-- The fill pattern over `len` bytes (11 Table 11.3). -/
def fillBytes (fill : W32) (len : Nat) : List W8 :=
  let p := bytesLE 4 fill.toNat
  (List.range len).map (fun i => p.getD (i % 4) 0)

/-- Whether a row of an event's frame that has come was rebuilt from parity on a data lane. -/
def State.rebuiltSoFar (s : State) (f : RxFrame) : Bool :=
  !f.closed && (List.range f.rows).any (fun r =>
    s.arrived f.group (f.ix + 1 + r) && (s.dataLanes f.group).any (fun n => (s.rowWord f.group n (f.ix + 1 + r)).any (·.2)))

/-- The status byte of a stream's event (11 Table 11.4). -/
def State.statusByte (s : State) (g st : Nat) (n : W32) : W8 :=
  let e := s.streamEv g st n
  let f := s.findFrame g st n
  let b := fun (p : Bool) (i : Nat) => if p then 2 ^ i else 0
  BitVec.ofNat 8 (b ((f.map (·.missing)).getD false) 5 + b ((f.map (fun x => x.rebuilt || s.rebuiltSoFar x)).getD false) 4 + b e.filled 3 + b e.late 2 +
    b e.wrong 1 + b f.isNone 0)

/-- Sends a field's bytes to its queues: a chunk of up to 28 bytes at CHUNK_OFF, or a full flit. Each destination takes it for
its context if the event entered that context: one that drains still takes the events before its stop tick (06 R161). -/
def State.deliverField (s : State) (f : Nat) (n : W32) (bs : List W8) : State :=
  let d := s.fieldDest f
  let w := s.rd (Reg.fieldEnt f + 4)
  let chunk := decide (bs.length ≤ 28)
  let items := d.lcores.filterMap (fun lc => match s.fieldCtx d.tile lc d.dq with
    | some k =>
      if (s.cx k).entered.elem n && (s.ctxState k == Ctx.running || s.ctxState k == Ctx.draining) then
        some { flit := { data := BitVec.ofNat 256 (ofBytesLE bs), tag := n.extractLsb' 0 8, ctx := k, dq := d.dq,
                         off := if chunk then fld w 4 3 else 0, len := if chunk then ceilDiv bs.length 4 else 0, last := true,
                         poison := false, src := none },
               dest := Dest.core d.tile lc, result := false : MeshItem }
      else none
    | none => none)
  { s with ant.mesh := s.ant.mesh ++ items }

/-- FIELD_RELEASE (11 R298): at its cycle a field of the event whose release falls in this tick is delivered, or its fill value. -/
def State.releaseField (s : State) (f : Nat) : State :=
  let cfg := s.rd (Reg.fieldEnt f)
  if !bit cfg 31 then s
  else
    let g := fld cfg 23 6
    let st := fld cfg 15 8
    let len := s.rdF (Reg.fieldEnt f + 4) 27 5 + 1
    let n := s.tickId - BitVec.ofNat 32 (s.rdF (Reg.fieldEnt f + 8) 24 8)
    let s := s.atCycle (s.rdF (Reg.fieldEnt f + 8) 0 16)
    if bit cfg 29 then s.deliverField f n (s.statusByte g st n :: List.replicate (len - 1) 0)
    else match s.payloadBytes g st n (fld cfg 0 15) len with
      | .ok bs => s.deliverField f n bs
      | .error late =>
        let s := (s.bump (Reg.fieldEnt f + 0x10)).noteStream g st n (fun e => { e with filled := true, late := e.late || late })
        let s := if late then s.raiseFrame Code.frameLate g st n n else s
        s.deliverField f n (fillBytes (s.rd (Reg.fieldEnt f + 0xC)) len)

def execFieldRelease (f : Nat) (s : State) : Host.Outcome State Fault Refusal := s.onUnit (decide (f < 1024)) (s.releaseField f)

/-- FRAME_ABSENT (11 R298, 10 R281): at the expected block of the event whose block lies in this tick, no header was accepted. -/
def State.frameAbsent (s : State) (g st : Nat) : State :=
  match s.expected g st with
  | none => s
  | some e =>
    let c : Int := max 1 s.cTick
    let n := s.tickId - BitVec.ofInt 32 (e / c)
    if (s.findFrame g st n).isSome || (s.streamEv g st n).absent then s
    else
      let s := (s.atCycle (e % c).toNat).noteStream g st n (fun x => { x with absent := true })
      let s := if s.grpState g = 0 then s.bump (Reg.grpMissing g) else s
      s.raiseFrame Code.frameAbsent g st n 0

def execFrameAbsent (g st : Nat) (s : State) : Host.Outcome State Fault Refusal :=
  s.onUnit (grpOk g && decide (st < 256)) (s.frameAbsent g st)

/-! Control frames (11 R300, R310). -/

def State.ctrlDrop (s : State) : State := s.bump Reg.ctrlDrops

/-- The header with TTL one lower. -/
def ttlDown (h : Nat) : W64 := BitVec.ofNat 64 (h - 2 ^ 44)

/-- The bytes that an access that reaches no memory returns beside its poison (07 R186). -/
def openBytes (a n : Nat) : List W8 := (List.range n).map (fun i => Config.poisonByte (a + i))

/-- A response of STATUS 2 for a request of another part that could not go on, back on that part's route (11 R312). -/
def State.bounce (s : State) (h : Nat) : State :=
  let op := h / 2 ^ 48 % 16
  let src := h / 2 ^ 52 % 64
  match s.routeTo src with
  | some r =>
    if h % 256 = 0xE6 ∧ (op = 0 ∨ op = 2 ∨ op = 4) then
      let n := s.rowBytes r
      let fl := if op = 2 then 1 else h / 2 ^ 38 % 64 + 1
      let hdr := src * 2 ^ 58 + h / 2 ^ 58 % 64 * 2 ^ 52 + (op + 1) * 2 ^ 48 + 15 * 2 ^ 44 + (fl - 1) * 2 ^ 38 + h / 2 ^ 30 % 256 * 2 ^ 30 + 0xE6
      let f : TxFrame := ⟨r, BitVec.ofNat 64 hdr, bytesLE 8 2 ++ List.replicate (n - 8) 0 ++ bytesLE 8 (2 ^ fl - 1) ++
        List.replicate (n - 8) 0 ++ (if op = 2 then [] else openBytes 0 (32 * fl))⟩
      if op = 4 then s.sendFrame f else s.sendS f
    else s
  | none => s

/-- Whether class S reaches a group's partner. -/
def State.classSUp (s : State) (g : Nat) : Bool := !(s.grpSt g).down && s.grpState g != 0

/-- A frame for another part goes on that part's route (11 R310); with TTL 0 it is dropped, and a request whose route is Down is answered
UNREACHABLE (11 R312). -/
def State.forwardFrame (s : State) (g : Nat) (p : Popped) (send : State → TxFrame → State) : State :=
  let dst := wbits p.hdr 58 6
  if wbits p.hdr 44 4 = 0 then
    s.ctrlDrop.raiseNow Code.meshTtl { die := Die.edge (s.rdF (Reg.grpCfg g) 16 2), unit := g } (detailF g 0 0 0)
  else match s.routeTo dst with
    | some r =>
      if s.classSUp r then send s ⟨r, ttlDown p.hdr, p.bytes⟩
      else if p.hdr % 256 = 0xE6 then (s.raiseGrp Code.remoteUnreachable r (wbits p.hdr 30 8)).bounce p.hdr
      else s.ctrlDrop
    | none => s.ctrlDrop

/-- A class-S frame of a group is acknowledged, or answered NAK: a MEM frame by its SEQ, a control frame, whose header holds none, by the SEQ
that is next (DESIGN CHOICE, log 22). Whether it is the one expected. -/
def State.ackFrame (s : State) (g q : Nat) (ok : Bool) : State × Bool :=
  let x := s.grpSt g
  if !ok then ((s.ctrlDrop).sendFast g (fastWord s.tickId 4 q), false)
  else if q ≠ x.rxSeq then (s.sendFast g (fastWord s.tickId 3 q), false)
  else ((s.setGrp g { x with rxSeq := (q + 1) % 256 }).sendFast g (fastWord s.tickId 3 q), true)

/-- The control frame of a KIND at the front of a group, taken: it is acknowledged; one that failed its CRC is answered NAK, discarded and
counted, and one whose KIND is reserved discarded and counted; a frame for another part goes on (11 R300, R310, R312). -/
def State.onCtrl (s : State) (g kind : Nat) (own : Popped → State → State) : State :=
  match s.popFrame g 0xE4 with
  | none => s
  | some p =>
    if p.ok ∧ wbits p.hdr 48 4 ≠ kind ∧ wbits p.hdr 48 4 < 5 then s
    else
      let t := (p.st.ackFrame g (p.st.grpSt g).rxSeq p.ok).1
      if !p.ok then t
      else if 5 ≤ wbits p.hdr 48 4 then t.ctrlDrop
      else if wbits p.hdr 58 6 ≠ s.dev.partId then t.forwardFrame g p (fun t f => t.sendS f)
      else own p t

/-- CTRL_COMMAND (15 R398): the packet runs as an in-band command of its group and SRC_PART. -/
def execCtrlCommand (g : Nat) (s : State) : Host.Outcome State Fault Refusal :=
  s.onUnit (grpOk g) (if !s.hubOn then s else s.onCtrl g 0 (fun p t =>
    let ws := wordsOf p.bytes
    t.packet (.inband g (wbits p.hdr 52 6)) (ws.take (4 + fld (ws.getD 1 0) 0 16))))

/-- CTRL_REPLY (15 R380): the reply of a forwarded command on its own transport, with FORWARDED set; an ACCEPTED one leaves the
command outstanding. -/
def execCtrlReply (g : Nat) (s : State) : Host.Outcome State Fault Refusal :=
  s.onUnit (grpOk g) (if !s.hubOn then s else s.onCtrl g 1 (fun p t =>
    let ws := wordsOf p.bytes
    let src := wbits p.hdr 52 6
    let tag := fld (ws.getD 0 0) 16 16
    match t.host.forwarded.find? (fun f => f.part == src && f.tag == tag) with
    | some f =>
      let r := replyOf f.transport ws
      let t := if r.status = Status.accepted then t
               else { t with host.forwarded := t.host.forwarded.filter (fun x => !(x.part == src && x.tag == tag)) }
      t.send r
    | none => t))

/-- TX_IDLE (10 R285; 11 R300): the RX of the group's lanes enters Hold at the announced block after the frame's trailer. -/
def execTxIdle (g : Nat) (s : State) : Host.Outcome State Fault Refusal :=
  s.onUnit (grpOk g) (s.onCtrl g 2 (fun p t =>
    let k := bytesAt p.bytes 0 2
    (t.grpLanes g).foldl (fun u n =>
      let l := u.lane n
      let since := l.sinceMarker + (if l.seqSeen.getD 0 = p.last / 2 ^ 15 then 0 else 16384) - p.last % 2 ^ 15
      if k ≤ since then u.rxHold n else u.mapLane n (fun l => { l with holdIn := some (k - since) })) t))

/-- PING (11 R300): answered with a PONG that returns the sender's cycle and the turnaround of 64 FAB cycles. -/
def execPing (g : Nat) (s : State) : Host.Outcome State Fault Refusal :=
  s.onUnit (grpOk g) (s.onCtrl g 3 (fun p t =>
    t.sendS (t.ctrlFrame g (wbits p.hdr 52 6) 4 (bytesLE 8 (bytesAt p.bytes 0 8) ++ bytesLE 8 64))))

/-- PONG (11 R314): the round trip, without the turnaround, is held in RT_MEAS; more than the image declares raises REMOTE_RT. -/
def execPong (g cyc : Nat) (s : State) : Host.Outcome State Fault Refusal :=
  s.onUnit (grpOk g) (s.onCtrl g 4 (fun p t =>
    let t := t.atCycle cyc
    let rt := t.tod.fab - bytesAt p.bytes 0 8 - 64
    let t := t.wr (Reg.rtMeas g) (BitVec.ofNat 32 (min rt 65535))
    match (t.grpSt g).declRt with
    | some d => if d < rt then t.raiseGrp Code.remoteRt g rt else t
    | none => t))

def stampWords (x : Nat) : List W32 :=
  let ns := x / 2 ^ 32
  [BitVec.ofNat 32 (ns / 1000000000), BitVec.ofNat 32 (ns / 1000000000 / 2 ^ 32), BitVec.ofNat 32 (ns % 1000000000),
   BitVec.ofNat 32 (x % 2 ^ 32 / 256 * 256)]

/-- TIME_HDR (11 R301, 14 R373): a received time frame with the stamp of its header's first bit; one that fails its CRC is discarded. -/
def execTimeHdr (g : Nat) (s : State) : Host.Outcome State Fault Refusal :=
  s.onUnit (grpOk g) (match s.popFrame g 0xE5 with
    | none => s
    | some p =>
      let t := p.st
      if !p.ok then t
      else
        let row := bytesAt p.bytes 0 8
        let ws : List W32 := [BitVec.ofNat 32 (wbits p.hdr 16 32), BitVec.ofNat 32 (wbits p.hdr 48 16), BitVec.ofNat 32 (wbits row 32 32),
          BitVec.ofNat 32 (wbits row 8 24 * 256), BitVec.ofNat 32 (wbits row 2 6)] ++ stampWords p.stamp
        let x := t.grpSt g
        t.setGrp g { x with timeCount := x.timeCount + 1, timeLast := ws })

/-! Fast blocks and replay (11 R302, R312). -/

/-- The earliest FAST block of a group if it is of a kind, and the state without it. -/
def State.takeFast (s : State) (g kind : Nat) : Option (Nat × State) :=
  match s.frontCtl g (· == 0xE8) with
  | some b =>
    if wbits b.w.toNat 28 4 = kind then
      some (b.w.toNat, (s.grpLanes g).foldl (fun t n => t.mapLane n (fun l => { l with rx := l.rx.filter (fun x => x.ix != b.ix) })) s)
    else none
  | none => none

/-- A flit to a queue of a core that asked for data. -/
def coreFlit (tile lcore ctx dq : Nat) (ev : W8) (data : BitVec 256) (last poison : Bool) : MeshItem :=
  { flit := { data := data, tag := ev, ctx := ctx, dq := dq, off := 0, len := 0, last := last, poison := poison, src := none },
    dest := .core tile lcore, result := false }

/-- What a class-S access answers to who asked (15 R396, R407; 07 R200): Window B takes the bytes with their poison mark, a core one
flit for each 32 bytes, and a debug command its reply: an access that failed is ADDR_INVALID. A write answers a debug command only.
`bad` marks the flits that are poisoned, `ok` says whether the access reached memory. -/
def State.answerReq (s : State) (who : ReqFrom) (write : Bool) (n : Nat) (data : List W8) (bad : Nat → Bool) (ok : Bool) : State :=
  let fl := max 1 (ceilDiv n 32)
  match who with
  | .window =>
    if write then s
    else { s with host.windowOut := s.host.windowOut ++ [(data.take n, !ok || (List.range fl).any bad)] }
  | .part _ _ _ => s
  | .loader => s
  | .command tr tag op =>
    if ok then s.reply tr tag op false Status.ok
      (if write then [] else (List.range (n / 4)).map (fun i => BitVec.ofNat 32 (ofBytesLE ((data.drop (4 * i)).take 4))))
    else s.reply tr tag op false Status.addrInvalid [(rej Status.addrInvalid 0 0).detail]
  | .core tile lcore ctx dq ev =>
    if write then s
    else { s with ant.mesh := s.ant.mesh ++ (List.range fl).map (fun i =>
      coreFlit tile lcore ctx dq ev (BitVec.ofNat 256 (ofBytesLE ((data.drop (32 * i)).take 32))) (i + 1 == fl) (!ok || bad i)) }

/-- The requester id of a class-S access (07 Table 7.9): the host, another part, or a Survey context. -/
def ReqFrom.id : ReqFrom → Nat
  | .window => Req.host
  | .command _ _ _ => Req.host
  | .part _ src _ => 0x140 + src % 64
  | .core _ _ ctx _ _ => 0x100 + ctx % 4
  | .loader => Req.loader

/-- ADDR_FAULT of whoever asks (07 R186): a core by its place. -/
def State.whoFault (s : State) (who : ReqFrom) (a : Nat) : State :=
  match who with
  | .core tile lcore ctx _ _ => s.raiseNow Code.addrFault { die := tile, unit := s.phys tile lcore, ctx := ctx }
      (detailA a (tensorOf s.ant.tensors a) who.id)
  | _ => s.addrFault a who.id

/-- The response to a remote request ends it (11 R312); one of an access in parts hands what it returned to the next, and the last answers. -/
def State.remoteDone (s : State) (r : Remote) (data : List W8) (bad : Nat → Bool) (ok : Bool) : State :=
  let s := { s with link.remotes := s.link.remotes.filter (fun x => x != r) }
  let fl := max 1 (ceilDiv r.len 32)
  let bytes := r.pre ++ data.take r.len
  let marks := r.preBad ++ (List.range fl).map bad
  match r.next with
  | some t =>
    { s with link.remotes := s.link.remotes.map (fun x =>
        if x.part == r.part && x.tag == t && x.write == r.write && !x.classT then { x with pre := bytes, preBad := marks, preOk := r.preOk && ok } else x) }
  | none => s.answerReq r.who r.write (r.pre.length + r.len) bytes (fun i => marks.getD i false) (r.preOk && ok)

/-- Class S of a group goes Down: every request outstanding on it completes UNREACHABLE, and so do those of other parts that wait to go on
it (11 R312). -/
def State.classSDown (s : State) (g : Nat) : State :=
  let x := s.grpSt g
  let through := ((x.kept.map (·.frame)) ++ x.waits).filter (fun f => f.hdr.toNat / 2 ^ 52 % 64 != s.dev.partId)
  let s := s.setGrp g { x with down := true, kept := [], waits := [] }
  let s := s.raiseGrp Code.linkReplay g 0
  let s := (s.link.remotes.filter (fun r => r.group == g && !r.classT)).foldl (fun t r =>
    match t.link.remotes.find? (fun y => y.part == r.part && y.tag == r.tag && y.write == r.write && !y.classT) with
    | some y => (t.remoteDone y (openBytes 0 y.len) (fun _ => true) false).raiseGrp Code.remoteUnreachable g y.tag
    | none => t) s
  through.foldl (fun t f => t.bounce f.hdr.toNat) s

/-- Resends the frames kept from one on; a frame already resent 8 times takes class S Down. -/
def State.resendFrom (s : State) (g : Nat) (ks : List Kept) : State :=
  if ks.isEmpty then s
  else if ks.any (fun k => decide (8 ≤ k.resends)) then s.classSDown g
  else
    let x := s.grpSt g
    let upd := x.kept.map (fun k => if ks.elem k then { k with resends := k.resends + 1, sentAt := s.tod.fab } else k)
    ks.foldl (fun t k => t.sendFrame k.frame) (s.setGrp g { x with kept := upd })

/-- ACK: the frames up to its SEQ are released, and frames that waited take their room. -/
def execAck (g : Nat) (s : State) : Host.Outcome State Fault Refusal :=
  s.onUnit (grpOk g) (match s.takeFast g 3 with
    | some (w, t) =>
      let x := t.grpSt g
      let q := wbits w 8 8
      if x.kept.any (fun k => k.seq == q) then
        (t.setGrp g { x with kept := (x.kept.dropWhile (fun k => k.seq != q)).drop 1 }).settleTx g
      else t
    | none => s)

/-- NAK: the sender resends from the frame it names. -/
def execNak (g : Nat) (s : State) : Host.Outcome State Fault Refusal :=
  s.onUnit (grpOk g) (match s.takeFast g 4 with
    | some (w, t) => t.resendFrom g ((t.grpSt g).kept.dropWhile (fun k => k.seq != wbits w 8 8))
    | none => s)

/-- REPLAY_TIMEOUT: 4,096 FAB cycles after it was sent, the oldest frame and those after it are resent. -/
def execReplayTimeout (g : Nat) (s : State) : Host.Outcome State Fault Refusal :=
  s.onUnit (grpOk g) (match (s.grpSt g).kept with
    | k :: _ => if k.sentAt + 4096 ≤ s.tod.fab then s.resendFrom g (s.grpSt g).kept else s
    | [] => s)

/-! Remote access (11 R309 to R314). -/

def padTo (n : Nat) (l : List W8) : List W8 := l ++ List.replicate (n - l.length) 0

/-- The header of a MEM frame of this part. -/
def State.memHdr (s : State) (dst op len tag : Nat) : W64 :=
  BitVec.ofNat 64 (dst * 2 ^ 58 + s.dev.partId * 2 ^ 52 + op * 2 ^ 48 + 15 * 2 ^ 44 + (len - 1) % 64 * 2 ^ 38 + (tag % 256) * 2 ^ 30 + 0xE6)

/-- The rows of a MEM frame: row 0, row 1 and the data from row 2 on (11 R311). -/
def State.memRows (s : State) (g row0 row1 : Nat) (data : List W8) : List W8 :=
  let n := 8 * max 1 (s.dataLanes g).length
  padTo n (bytesLE 8 row0) ++ padTo n (bytesLE 8 row1) ++ data

/-- One request of a class-S access to another part: `fl` flits at a local address, with the data and the poison mask of a write. -/
def State.remoteOne (s : State) (g p a n : Nat) (data : Option (List W8)) (bad : Nat) (who : ReqFrom) (next : Bool) : State :=
  let fl := max 1 (ceilDiv n 32)
  let tag := s.link.nextTag % 256
  let r : Remote := { group := g, part := p, tag := tag, write := data.isSome, len := n, classT := false, releaseAt := 0, who := who,
                      answered := false, status := 0, data := [], poison := 0, next := if next then some ((tag + 1) % 256) else none }
  let s := { s with link.remotes := s.link.remotes ++ [r], link.nextTag := (tag + 1) % 256 }
  let rows := match data with
    | some d => s.memRows g a bad (padTo (32 * fl) d)
    | none => padTo (s.rowBytes g) (bytesLE 8 a)
  s.sendS ⟨g, s.memHdr p (if data.isSome then 2 else 0) fl tag, rows⟩

/-- A class-S access to another part (07 Table 7.1; 11 R309, R310, R312): it is sent on the part's route, in requests of at most 64 flits; an
unroutable one, as one that names the own part (01 R31), raises ADDR_FAULT, and one whose group is Down, or its class S, completes
UNREACHABLE. `data` is none for a read; `bad` marks the flits of a write that are poisoned (07 R200). -/
def State.remoteReq (s : State) (addr n : Nat) (data : Option (List W8)) (who : ReqFrom) (bad : Nat := 0) : State :=
  let p := addr / 2 ^ 41 % 64
  let fail := fun (t : State) => t.answerReq who data.isSome n (openBytes addr n) (fun _ => true) false
  match s.routeTo p with
  | none => fail (s.whoFault who addr)
  | some g =>
    if !s.classSUp g then fail (s.raiseGrp Code.remoteUnreachable g (s.link.nextTag % 256))
    else
      let k := max 1 (ceilDiv n 2048)
      (List.range k).foldl (fun t i =>
        t.remoteOne g p (addr % 2 ^ 41 + 2048 * i) (min 2048 (n - 2048 * i)) (data.map (fun d => (d.drop (2048 * i)).take 2048))
          (bad / 2 ^ (64 * i) % 2 ^ 64) who (decide (i + 1 < k))) s

/-- A MEM frame of an operation at the front of a group: in the Concentrator it is discarded and counted; a class-S frame is acknowledged, or
answered NAK where it fails its CRC, and only the expected SEQ is taken; a frame for another part goes on. One with a reserved OP is
discarded and counted. -/
def State.onMem (s : State) (g op : Nat) (classT : Bool) (own : Popped → State → State) : State :=
  match s.popFrame g 0xE6 with
  | none => s
  | some p =>
    if 6 ≤ wbits p.hdr 48 4 then p.st.ctrlDrop
    else if wbits p.hdr 48 4 ≠ op then s
    else if s.dev.concentrator then p.st.ctrlDrop
    else
      let mine := wbits p.hdr 58 6 == s.dev.partId
      if classT then
        (if !p.ok then p.st.ctrlDrop
         else if !mine then p.st.forwardFrame g p (fun u f => u.sendFrame f)
         else own p p.st)
      else
        let (t, new) := p.st.ackFrame g (wbits p.hdr 22 8) p.ok
        if !new then t
        else if !mine then t.forwardFrame g p (fun u f => u.sendS f)
        else own p t

/-- The flits a request reads with a requester id, of the addresses that it may read; their poison mask, and whether one of them has
none. -/
def State.serveRead (s : State) (addr fl id : Nat) (may : Nat → Bool) : State × List W8 × Nat × Nat :=
  (List.range fl).foldl (fun (a : State × List W8 × Nat × Nat) i =>
    let x := addr + 32 * i
    if (List.range 32).all (fun j => may (x + j)) then
      let g := a.1.memRead x 32 id
      (g.st, a.2.1 ++ g.bytes, a.2.2.1 + (if g.poison then 2 ^ i else 0), a.2.2.2)
    else (a.1.addrFault x id, a.2.1 ++ openBytes x 32, a.2.2.1 + 2 ^ i, 1)) (s, [], 0, 0)

/-- Whether an address has memory. -/
def isMemAt (a : Nat) : Bool := (regionOf a).isMem

/-- Where another part's write may go: Store, and HBM outside the loader region (15 R396 as for the host; log 22). -/
def writable (a : Nat) : Bool :=
  match regionOf a with
  | .store => true
  | .hbm => !inLoader a
  | _ => false

/-- Bytes of a staged image have come into the loader region (09 R241). -/
def State.noteGot (s : State) (a n : Nat) : State :=
  { s with loader.staged := s.loader.staged.map (fun g =>
      if imgAddr g.base 0 ≤ a ∧ a < imgAddr g.base g.len then { g with got := g.got ++ [(a - imgAddr g.base 0, a - imgAddr g.base 0 + n)] }
      else g) }

/-- A class-S access to memory is carried out and answered (07 R186; 11 R311; 15 R396, R407). The flits of a write from another part
carry their poison in `bad`. -/
def State.carryOut (s : State) (q : HostReq) (bad : Nat) : State :=
  let fl := max 1 (ceilDiv q.n 32)
  match q.who, q.data with
  | .part g src tag, none =>
    let (t, data, mask, st) := s.serveRead q.addr fl q.who.id isMemAt
    t.sendS ⟨g, t.memHdr src 1 fl tag, t.memRows g st mask data⟩
  | .part g src tag, some d =>
    let ok := (List.range (32 * fl)).all (fun i => writable (q.addr + i))
    let t := if ok then (List.range fl).foldl (fun u i =>
        u.memWrite (q.addr + 32 * i) (padTo 32 ((d.drop (32 * i)).take 32)) (nbit bad i)) (s.beforeWrite true)
      else s.addrFault q.addr q.who.id
    t.sendS ⟨g, t.memHdr src 3 1 tag, t.memRows g (if ok then 0 else 1) 0 []⟩
  | who, none =>
    let g := s.memRead q.addr q.n who.id
    g.st.answerReq who false q.n g.bytes (fun i => ((g.marks.drop (32 * i)).take 32).any id) true
  | .command _ _ op, some bs =>
    let t := (s.beforeWrite true).memWrite q.addr bs false
    (if op = Op.loadChunk then t.noteGot q.addr q.n else t).answerReq q.who true q.n [] (fun _ => false) true
  | who, some bs => ((s.beforeWrite true).memWrite q.addr bs false).answerReq who true q.n [] (fun _ => false) true

/-- A class-S access to memory; one that meets a stack in self-refresh waits (07 R190). `ecc` says what the codes find where it reads. -/
def State.access (s : State) (q : HostReq) (bad : Nat) (ecc : Findings := []) : State :=
  if s.asleepIn q.addr q.n then { s with host.waits := s.host.waits ++ [(q, bad)] }
  else (if q.data.isNone then s.readCodes q.addr q.n q.who.id ecc else s).carryOut q bad

/-- The accesses that waited for stacks that are awake again, in order. -/
def State.serveWaits (s : State) (ecc : Findings) : State :=
  s.host.waits.foldl (fun t e => t.access e.1 e.2 ecc) { s with host.waits := [] }

/-- READ_REQ (11 R311). -/
def execReadReq (g : Nat) (s : State) (ecc : Findings := []) : Host.Outcome State Fault Refusal :=
  s.onUnit (grpOk g) (s.onMem g 0 false (fun p t =>
    let q : HostReq := { addr := bytesAt p.bytes 0 8 % 2 ^ 41, n := 32 * (wbits p.hdr 38 6 + 1), data := none,
                         who := .part g (wbits p.hdr 52 6) (wbits p.hdr 30 8) }
    t.access q 0 ecc))

/-- READ_RSP: the data of a host's remote read come back, with status and poison mask. -/
def execReadRsp (g : Nat) (s : State) : Host.Outcome State Fault Refusal :=
  s.onUnit (grpOk g) (s.onMem g 1 false (fun p t =>
    match t.link.remotes.find? (fun r => r.part == wbits p.hdr 52 6 && r.tag == wbits p.hdr 30 8 && !r.write && !r.classT) with
    | some r => t.remoteDone r ((p.bytes.drop (2 * t.rowBytes g)).take r.len)
        (nbit (bytesAt p.bytes (t.rowBytes g) 8)) (bytesAt p.bytes 0 8 % 4 == 0)
    | none => t))

/-- MEM_WRITE: the data are written with their poison and acknowledged. -/
def execMemWrite (g : Nat) (s : State) : Host.Outcome State Fault Refusal :=
  s.onUnit (grpOk g) (s.onMem g 2 false (fun p t =>
    let rb := t.rowBytes g
    let n := 32 * (wbits p.hdr 38 6 + 1)
    t.access { addr := bytesAt p.bytes 0 8 % 2 ^ 41, n := n, data := some ((p.bytes.drop (2 * rb)).take n),
               who := .part g (wbits p.hdr 52 6) (wbits p.hdr 30 8) } (bytesAt p.bytes rb 8)))

/-- WRITE_ACK. -/
def execWriteAck (g : Nat) (s : State) : Host.Outcome State Fault Refusal :=
  s.onUnit (grpOk g) (s.onMem g 3 false (fun p t =>
    match t.link.remotes.find? (fun r => r.part == wbits p.hdr 52 6 && r.tag == wbits p.hdr 30 8 && r.write) with
    | some r => t.remoteDone r [] (fun _ => false) (bytesAt p.bytes 0 8 % 4 == 0)
    | none => t))

/-- A class-T read of another part is served from Store, and from no other memory (01 R26), and answered. -/
def State.serveLink (s : State) (q : LinkRead) (ecc : Findings) : State :=
  let id := 0x140 + q.part
  let (t, data, mask, st) := (s.readCodes q.addr (32 * q.flits) id ecc).serveRead q.addr q.flits id (fun x => regionOf x == .store)
  t.sendT ⟨q.group, t.memHdr q.part 5 q.flits q.tag, t.memRows q.group st mask data⟩

/-- A class-T read that is not served in its slot is answered with poison (07 Table 7.5). -/
def State.unservedLink (s : State) (q : LinkRead) : State :=
  s.sendT ⟨q.group, s.memHdr q.part 5 q.flits q.tag, s.memRows q.group 0 (2 ^ q.flits - 1) (openBytes q.addr (32 * q.flits))⟩

/-- TREAD_RSP (11 R314): the response waits in its return buffer. -/
def execTreadRsp (g : Nat) (s : State) : Host.Outcome State Fault Refusal :=
  s.onUnit (grpOk g) (s.onMem g 5 true (fun p t =>
    let rb := t.rowBytes g
    { t with link.remotes := t.link.remotes.map (fun r =>
        if r.classT && r.part == wbits p.hdr 52 6 && r.tag == wbits p.hdr 30 8 then
          { r with answered := true, status := bytesAt p.bytes 0 1 % 4, poison := bytesAt p.bytes rb 8,
                   data := (List.range (wbits p.hdr 38 6 + 1)).map (fun i => BitVec.ofNat 256 (bytesAt p.bytes (2 * rb + 32 * i) 32)) }
        else r) }))

/-- TREAD_RELEASE (11 R314): exactly RT cycles after its request slot a response is released, or a poisoned flit with
REMOTE_RT where none came or the round trip last measured exceeds RT. -/
def State.treadRelease (s : State) (g : Nat) : State :=
  match s.link.remotes.find? (fun r => r.group == g && r.classT) with
  | some r =>
    let s := s.elapse (r.releaseAt - s.tod.fab)
    let s := { s with link.remotes := s.link.remotes.filter (fun x => x != r) }
    let longer := (s.grpSt g).declRt.any (fun d => decide (d < s.rdF (Reg.rtMeas g) 0 16))
    let ok := r.answered && r.status == 0 && !longer
    let data := if ok then r.data.flatMap (fun (d : BitVec 256) => bytesLE 32 d.toNat) else openBytes 0 r.len
    let s := s.answerReq r.who false r.len data (nbit r.poison) ok
    if ok then s else s.raiseGrp Code.remoteRt g r.tag
  | none => s

def execTreadRelease (g : Nat) (s : State) : Host.Outcome State Fault Refusal := s.onUnit (grpOk g) (s.treadRelease g)

/-- Issues a class-T remote read (11 R313, R314) for a flit that a core sends to an Edge stop with a remote address. -/
def State.treadIssue (s : State) (f : Flit) (tile lcore addr n : Nat) : State :=
  let p := addr / 2 ^ 41 % 64
  let who : ReqFrom := .core tile lcore f.ctx f.dq f.tag
  match s.routeTo p with
  | none => (s.coreFault tile lcore f.ctx f.pc addr).answerReq who false n (openBytes addr n) (fun _ => true) false
  | some g =>
    let rt := ((s.grpSt g).declRt).getD (s.rdF (Reg.rtMeas g) 0 16)
    let tag := s.link.nextTag % 256
    let r : Remote := { group := g, part := p, tag := tag, write := false, len := n, classT := true, releaseAt := s.tod.fab + rt, who := who,
                        answered := false, status := 0, data := [], poison := 0 }
    let s := { s with link.remotes := s.link.remotes ++ [r], link.nextTag := (tag + 1) % 256 }
    s.sendT ⟨g, s.memHdr p 4 (max 1 (ceilDiv n 32)) tag, padTo (s.rowBytes g) (bytesLE 8 (addr % 2 ^ 41))⟩

/-! Fast control (11 R304, R305). -/

/-- Queues an ACCEPT on every group with ACCEPT_EN; one that finds its 16-entry queue full is dropped. -/
def State.queueAccepts (s : State) (tick : W32) (num : W32) : State :=
  (List.range 64).foldl (fun t g =>
    let w := t.rd (Reg.fastCtl g)
    if bit w 31 && bit w 30 then
      let t := t.settleTx g
      let x := t.grpSt g
      if x.accepts.length < 16 then
        { t.setGrp g { x with accepts := x.accepts ++ [(tick, num.toNat)] } with
            link.blocks := t.link.blocks ++ [(256 + g, fastWord tick 1 num.toNat)] }.txAdvance g
      else t.raise Code.fcDrop { die := Die.edge (t.rdF (Reg.grpCfg g) 16 2), unit := g } tick (detailF g 0 tick num.toNat)
    else t) s

/-- The position of a group's TICK block: 10 FAB cycles after the strobe (11 R304). -/
def State.tickPos (s : State) (g : Nat) : Nat :=
  let n := (s.grpLanes g).headD 0
  (s.tod.tickFab + 10) * (bitsPerFab (s.laneRate n)).1 / (bitsPerFab (s.laneRate n)).2 / blockBits (s.laneRate n)

/-- What a strobe sends on the groups with FC_EN: a TICK block on every 2^TICK_DIV-th strobe, at its fixed position. -/
def State.fastControl (s : State) : State :=
  (List.range 64).foldl (fun t g =>
    let w := t.rd (Reg.fastCtl g)
    if bit w 31 && t.tickId.toNat % 2 ^ fld w 16 4 == 0 then
      let t := t.settleTx g
      let b := fastWord t.tickId 0 0
      { t.setGrp g { t.grpSt g with tickBlk := some (t.tickPos g, b) } with link.blocks := t.link.blocks ++ [(256 + g, b)] }
    else t) s

/-! Outbound streams (11 R306 to R308). -/

def State.outEntry (s : State) (st : Nat) : Nat := (s.rd (Reg.outStream st)).toNat + (s.rd (Reg.outStream st + 4)).toNat * 2 ^ 32

/-- The release tick offset of an inbound stream: the whole ticks of its latest release. -/
def State.inTicks (s : State) (g st : Nat) : Nat :=
  (s.fieldsOf g st).foldl (fun m f => max m (s.rdF (Reg.fieldEnt f + 8) 24 8)) 0

/-- The ticks by which an outbound stream's frame of an event follows the event: the largest of its inbound streams. -/
def State.itemsLag (s : State) (ws : List Nat) : Nat :=
  ws.foldl (fun m w => if wbits w 61 2 = 0 then max m (s.inTicks (wbits w 55 6) (wbits w 47 8)) else m) 0

/-- The fill byte at an offset of a stream: of the field entry that covers it, else 0. -/
def State.fillAt (s : State) (g st off : Nat) : W8 :=
  match (s.fieldsOf g st).find? (fun f => let o := s.rdF (Reg.fieldEnt f) 0 15
                                          decide (o ≤ off ∧ off ≤ o + s.rdF (Reg.fieldEnt f + 4) 27 5)) with
  | some f => (fillBytes (s.rd (Reg.fieldEnt f + 0xC)) 32).getD (off - s.rdF (Reg.fieldEnt f) 0 15) 0
  | none => 0

/-- The inbound bytes of an item: as received where only a CRC failed, none where they are absent, late or erased (11 R306). -/
def State.itemBytes (s : State) (g st : Nat) (n : W32) (off len : Nat) : Option (List W8) :=
  match s.findFrame g st n, s.payloadBytes g st n off len with
  | _, .ok bs => some bs
  | some f, .error _ =>
    let raw := (f.raw.drop off).take len
    if f.closed && f.crcFail && raw.length == len && raw.all Option.isSome then some (raw.map (fun b => b.getD 0)) else none
  | none, .error _ => none

/-- The decision record of a tick (11 R307): tick, trigger number, condition mask. -/
def State.decisionRecord (s : State) (n : W32) : List W8 :=
  let e : Option (W32 × W32 × Nat) := s.fe.summaries.find? (fun (x : W32 × W32 × Nat) => x.1 == n)
  bytesLE 4 n.toNat ++ bytesLE 4 ((e.map (fun (x : W32 × W32 × Nat) => x.2.1)).getD 0).toNat ++
    bytesLE 8 ((e.map (fun (x : W32 × W32 × Nat) => x.2.2)).getD 0)

/-- Places bytes in a payload. -/
def placeAt (p : List W8) (off : Nat) (bs : List W8) : List W8 := p.take off ++ bs ++ p.drop (off + bs.length)

/-- OUTBOUND_FRAME_SEND (11 R306, R307): the frame of the event whose inbound items are delivered in this tick, at SEND_CYCLE; an
item whose bytes are absent, late or unrecoverable carries its fill bytes and sets LANE_MISSING, as a CRC failure does. -/
def State.outboundSend (s : State) (st : Nat) : State :=
  let e := s.outEntry st
  if !nbit e 63 then s
  else if decide (3 ≤ s.shedStage) && (s.grpLanes (wbits e 57 6)).any (fun n => s.pwr.offLanes.elem n) then
    (s.atCycle (wbits e 25 16)).bump Reg.shedFrames
  else
    let s := s.atCycle (wbits e 25 16)
    let g := wbits e 57 6
    let items := ((List.range 64).map (fun i => s.outItemW st i)).filter (fun w => nbit w 63)
    let n := s.tickId - BitVec.ofNat 32 (s.itemsLag items)
    let size := (wbits e 41 8 + 1) * s.rowBytes g
    let (pay, miss) := items.foldl (fun (a : List W8 × Bool) w =>
      let len := wbits w 20 12 + 1
      let dst := wbits w 5 15
      match wbits w 61 2 with
      | 0 =>
        let ig := wbits w 55 6
        let is := wbits w 47 8
        let off := wbits w 32 15
        let crc := ((s.findFrame ig is n).map (fun f => f.crcFail || f.missing)).getD false
        match s.itemBytes ig is n off len with
        | some bs => (placeAt a.1 dst bs, a.2 || crc)
        | none => (placeAt a.1 dst ((List.range len).map (fun i => s.fillAt ig is (off + i))), true)
      | 1 => (placeAt a.1 dst ((s.decisionRecord (n - BitVec.ofNat 32 (wbits e 17 8))).take len), a.2)
      | _ => (placeAt a.1 dst (List.replicate len 0), a.2)) (List.replicate size 0, false)
    let dec := items.any (fun w => wbits w 61 2 == 1)
    let gap := anyCtx (fun k => s.ctxTimed k && (s.cx k).gaps.elem n)
    let hdr := n.toNat * 2 ^ 32 + wbits e 49 8 * 2 ^ 24 + wbits e 41 8 * 2 ^ 16 + (if miss then 2 ^ 15 else 0) +
      (if gap then 2 ^ 14 else 0) + (if dec then 2 ^ 13 else 0) + 0xE2
    s.sendFrame ⟨g, BitVec.ofNat 64 hdr, pay⟩

def execOutboundFrameSend (st : Nat) (s : State) : Host.Outcome State Fault Refusal :=
  s.onUnit (decide (st < 64)) (s.outboundSend st)

/-! Commands (11 R297, R307, R310). -/

/-- LINK_PERSONALITY (01 R29, 11 R310). -/
def execLinkPersonality (h : Hdr) (processor : Bool) (id : Nat) (s : State) : Host.Outcome State Fault Refusal :=
  s.done (s.serve h Op.linkPersonality
    (fun _ => firstRej [(decide (id < 64), rej Status.valueRange)])
    (fun s => { st := { s with dev.concentrator := !processor, dev.partId := id } }))

/-- MESH_ROUTE (11 R310); in twin mode the twin group takes no route (01 R32). -/
def execMeshRoute (h : Hdr) (part : Nat) (valid : Bool) (group : Nat) (s : State) : Host.Outcome State Fault Refusal :=
  s.done (s.serve h Op.meshRoute
    (fun s => firstRej [ (decide (part < 64 ∧ group < 64), rej Status.valueRange)
                       , (!(valid && group == 63 && bit (s.rd Reg.twinCfg) 31), rej Status.valueRange) ])
    (fun s => { st := s.wr (Reg.meshRoute part) (BitVec.ofNat 32 ((if valid then 2 ^ 31 else 0) + group)) }))

/-- Whether a field entry keeps the forms of R297: a chunk within its flit, a tile's stop, EARLY_BLK at most 64. -/
def fieldOk (cfg dest exp : W32) : Bool :=
  let len := fld dest 27 5 + 1
  (decide (28 < len) || decide (fld dest 4 3 + ceilDiv len 4 ≤ 8)) && decide (fld dest 20 7 < 64 ∧ fld exp 16 8 ≤ 64) &&
  decide (fld cfg 0 15 + len ≤ 32768)

/-- Whether a group may be taken as an inbound front-end group: it is no outbound group, and the inbound lanes stay at most 128 (01 R30). -/
def State.mayTakeIn (s : State) (g : Nat) : Bool :=
  !s.dev.concentrator || (!s.outboundGrp g && decide (s.inboundLanes g + (s.grpLanes g).length ≤ 128))

/-- LINK_FIELD (11 R297): the host writes entries without CLASS_T, and none that the loader wrote with it. -/
def execLinkField (h : Hdr) (f : Nat) (cfg dest exp fill : W32) (s : State) : Host.Outcome State Fault Refusal :=
  s.done (s.serve h Op.linkField
    (fun s => firstRej
      [ (fld dest 0 4 == 0, rej Status.pktReserved)
      , (decide (f < 1024) && fieldOk cfg dest exp, rej Status.valueRange)
      , (!(bit (s.rd (Reg.fieldEnt f)) 31 && bit (s.rd (Reg.fieldEnt f)) 30), rej Status.valueRange)
      , (!bit cfg 31 || s.mayTakeIn (fld cfg 23 6), rej Status.valueRange) ])
    (fun s => { st := s.wrs [ (Reg.fieldEnt f, setBit cfg 30 false), (Reg.fieldEnt f + 4, dest)
                            , (Reg.fieldEnt f + 8, exp), (Reg.fieldEnt f + 0xC, fill) ] }))

/-- Whether two outbound ranges overlap. -/
def rangesMeet (a b : Nat × Nat) : Bool := decide (a.1 < b.1 + b.2 ∧ b.1 < a.1 + a.2)

def disjoint : List (Nat × Nat) → Bool
  | [] => true
  | r :: rest => !(rest.any (rangesMeet r)) && disjoint rest

/-- The FAB cycle, within the tick in which the stream's frame is sent, at which an inbound item's last byte is delivered (11 R307). -/
def State.itemDelivery (s : State) (lag w : Nat) : Int :=
  let g := wbits w 55 6
  let st := wbits w 47 8
  let (a, b) := blockTime (s.grpRate g)
  let rows := (wbits w 32 15 + wbits w 20 12) / s.rowBytes g + 1
  match s.expected g st with
  | some e => e - (lag * s.cTick : Nat) + (ceilDiv (rows * a) b : Nat)
  | none => 0

/-- The checks of LINK_AGGREGATE (11 R307): an outbound group takes no other role, neither that of an inbound front-end group nor that of
the twin link (01 R30, R32). -/
def State.aggregateRej (s : State) (st : Nat) (entry : W64) (items : List W64) : Option Rej :=
  let e := entry.toNat
  let g := wbits e 57 6
  let its := (items.map (·.toNat)).filter (fun w => nbit w 63)
  let relay := fun (w : Nat) => 23 + (if s.rdF (Reg.grpCfg (wbits w 55 6)) 16 2 = s.rdF (Reg.grpCfg g) 16 2 then 0 else 12)
  firstRej
    [ (e % 2 ^ 17 == 0 && items.all (fun w => w.toNat % 32 == 0), rej Status.pktReserved)
    , (decide (st < 64 ∧ items.length ≤ 64), rej Status.valueRange)
    , (!nbit e 63 || (s.dev.concentrator && decide (wbits e 25 16 < s.cTick) && bit (s.rd (Reg.grpCfg g)) 31), rej Status.valueRange)
    , (!nbit e 63 || (!s.inboundGrp g && !itemsFrom its g && !(bit (s.rd Reg.twinCfg) 31 && g == 63)), rej Status.valueRange)
    , (!nbit e 63 || its.all (fun w => wbits w 61 2 != 0 || s.mayTakeIn (wbits w 55 6)), rej Status.valueRange)
    , (its.all (fun w => wbits w 61 2 != 3 && decide (wbits w 5 15 + wbits w 20 12 + 1 ≤ (wbits e 41 8 + 1) * s.rowBytes g) &&
        (wbits w 61 2 != 1 || decide (wbits w 20 12 = 15))), rej Status.valueRange)
    , (disjoint (its.map (fun w => (wbits w 5 15, wbits w 20 12 + 1))), rej Status.valueRange)
    , (its.all (fun w => wbits w 61 2 != 0 || decide (s.itemDelivery (s.itemsLag its) w + (relay w : Int) ≤ (wbits e 25 16 : Int))), rej Status.valueRange)
    , (its.all (fun w => wbits w 61 2 != 1 || decide (0 < wbits e 17 8)), rej Status.valueRange) ]

/-- Writes a 64-bit entry as two registers, low word first. -/
def State.wr64 (s : State) (a : Nat) (w : W64) : State :=
  (s.wr a (w.extractLsb' 0 32)).wr (a + 4) (w.extractLsb' 32 32)

/-- LINK_AGGREGATE (11 R307): a stream's entry and its items together; items not named are cleared. -/
def execLinkAggregate (h : Hdr) (st : Nat) (entry : W64) (items : List W64) (s : State) : Host.Outcome State Fault Refusal :=
  s.done (s.serve h Op.linkAggregate
    (fun s => s.aggregateRej st entry items)
    (fun s =>
      let s := s.wr64 (Reg.outStream st) (entry)
      { st := (List.range 64).foldl (fun t i => t.wr64 (Reg.outItem st i) (items.getD i 0)) s }))

end Sys2Proof.Machine
end

