-- ==== Sys2Proof/Machine/Acq.lean ====
section
/-! DEFINITION. The acquisition engine (13) and edge records (14 R370): capture into group buffers, triggers and re-arm, Dead,
change, edge and gap records, and the readout streams. -/

namespace Sys2Proof.Machine

def State.acqGrp (s : State) (g : Nat) : AcqGrp := SMap.get AcqGrp.init s.acq.groups g
def State.setAcq (s : State) (g : Nat) (x : AcqGrp) : State := { s with acq.groups := SMap.set AcqGrp.init s.acq.groups g x }
def State.strSt (s : State) (t : Nat) : StrSt := SMap.get StrSt.init s.acq.streams t
def State.setStr (s : State) (t : Nat) (x : StrSt) : State := { s with acq.streams := SMap.set StrSt.init s.acq.streams t x }
def State.chgSt (s : State) (u : Nat) : ChgSt := SMap.get ChgSt.init s.acq.units u
def State.setChg (s : State) (u : Nat) (x : ChgSt) : State := { s with acq.units := SMap.set ChgSt.init s.acq.units u x }
def State.gapOf (s : State) (src : Nat) : Gap := SMap.get Gap.init s.acq.gaps src
def State.setGap (s : State) (src : Nat) (x : Gap) : State := { s with acq.gaps := SMap.set Gap.init s.acq.gaps src x }

/-! Configuration as registers hold it (13 Table 13.7). -/

namespace Acq
def off := 0
def armed := 1
def post := 2
def waiting := 3
def rearm := 4
end Acq

def State.acqEn (s : State) (g : Nat) : Bool := bit (s.rd (Reg.acq g)) 31
def State.acqStream (s : State) (g : Nat) : Nat := s.rdF (Reg.acq g) 27 4
def State.acqNbuf (s : State) (g : Nat) : Nat := s.rdF (Reg.acq g) 19 8 + 1
def State.acqNch (s : State) (g : Nat) : Nat := s.rdF (Reg.acq g) 15 4 + 1
def State.acqFirst (s : State) (g : Nat) : Nat := s.rdF (Reg.acq g) 0 10
def State.acqPre (s : State) (g : Nat) : Nat := s.rdF (Reg.acq g + 0x4) 0 17
def State.acqPost (s : State) (g : Nat) : Nat := s.rdF (Reg.acq g + 0x8) 0 17
def State.acqHoldoff (s : State) (g : Nat) : Nat := s.rdF (Reg.acq g + 0xC) 16 16
def State.acqLook (s : State) (g : Nat) : Nat := s.rdF (Reg.acq g + 0xC) 0 16
def State.acqMask (s : State) (g : Nat) : Nat := (s.rd (Reg.acq g + 0x10)).toNat + (s.rd (Reg.acq g + 0x14)).toNat * 2 ^ 32
def State.acqState (s : State) (g : Nat) : Nat := s.rdF (Reg.acq g + 0x1C) 29 3
def State.setAcqState (s : State) (g v : Nat) : State := s.wrF (Reg.acq g + 0x1C) 29 3 v

/-- DECIM of a channel (12 Table 12.1). -/
def State.decim (s : State) (ch : Nat) : Nat := s.rdF (Reg.sch ch) 27 3

/-- The SAMPLE cycles between samples of a group's channels. -/
def State.acqStep (s : State) (g : Nat) : Nat := 2 ^ s.decim (s.acqFirst g)

/-- Samples of a channel per event (12 R316). -/
def State.perEvent (s : State) (ch : Nat) : Nat := s.cTick / 2 / 2 ^ s.decim ch

/-- B of a group: samples of a buffer per channel (13 R335). -/
def bufLen (pre post : Nat) : Nat := 16 * ((pre + post + 15 + 15) / 16)

/-- The address of sample `x` of channel `i` in buffer `k` (13 R335). -/
def State.sampleAddr (s : State) (g k i x : Nat) : Nat :=
  let b := bufLen (s.acqPre g) (s.acqPost g)
  0x100000000 + (s.rd (Reg.acq g + 0x18)).toNat + 2 * ((k * s.acqNch g + i) * b + x % b)

/-- FREE and PRE_HAVE follow the group. -/
def State.acqShow (s : State) (g : Nat) : State :=
  let x := s.acqGrp g
  let have' := if s.acqState g = Acq.off ∨ s.acqState g = Acq.waiting then 0 else x.latest - x.first
  (s.wrF (Reg.acq g + 0x1C) 20 9 x.freeBufs.length).wrF (Reg.acq g + 0x1C) 0 17 (min (s.acqPre g) have')

/-! Items (13 R342 to R345; 14 R370). -/

def State.pushItem (s : State) (st : Nat) (i : Item) : State :=
  let x := s.strSt st
  s.setStr st { x with items := x.items ++ [i] }

/-- The items of all streams. -/
def State.allItems (s : State) : List Item := s.acq.streams.flatMap (fun (e : Nat × StrSt) => e.2.items)

/-- The records of a source that wait in its staging buffer: Dead records by group, change records by Edge die (64 + e), edge
records (68 + e, 72 for 1PPS_IN). -/
def State.stagedOf (s : State) (src : Nat) : Nat :=
  (s.allItems.filter (fun i => match i with
    | .flit x _ _ => x == src && decide (src < 64)
    | .change e _ _ => src == 64 + e
    | .edge x _ _ => x == src
    | .segment _ => false)).length

/-- The room of a source's staging buffer: 64 Dead records, 512 change records, 128 edge records, 4 of 1PPS_IN. -/
def stageRoom (src : Nat) : Nat := if src < 64 then 64 else if src < 68 then 512 else if src < 72 then 128 else 4

def pack (l : List (Nat × Nat)) : BitVec 256 := BitVec.ofNat 256 (l.foldl (fun w e => w + e.2 * 2 ^ e.1) 0)

/-- A gap item (13 Table 13.3; 14 Table 14.4). -/
def Gap.item (src : Nat) (x : Gap) : BitVec 256 :=
  if src < 68 then
    pack [ (248, 3), (242, if src < 64 then src else 0x3F), (240, if src < 64 then 0 else 1), (208, min x.dropped (2 ^ 32 - 1))
         , (176, if src < 64 then x.first.num.toNat else 0), (144, if src < 64 then x.last.num.toNat else 0)
         , (112, x.first.tick.toNat), (80, x.last.tick.toNat), (65, x.first.cyc % 2 ^ 15), (50, x.last.cyc % 2 ^ 15)
         , (10, min (x.last.at' - x.first.at') (2 ^ 40 - 1)), (6, if src < 64 then 0 else src - 64) ]
  else
    pack [ (248, 6), (245, src - 68), (213, min x.dropped (2 ^ 32 - 1)), (181, x.first.tick.toNat), (149, x.last.tick.toNat) ]

/-- The die of a source. -/
def State.srcDie (s : State) (src : Nat) : Nat :=
  if src < 64 then Die.edge (s.acqFirst src / 256) else if src < 72 then Die.edge ((src - 64) % 4) else Die.hub

/-- Drops `n` records of a source, whose gap takes their place; the first drop of a gap is reported. -/
def State.dropRecs (s : State) (src n : Nat) (a : GapAt) : State :=
  let x := s.gapOf src
  if x.dropped = 0 then
    (s.setGap src { dropped := n, first := a, last := a }).raiseNow (if src < 68 then Code.acqGap else Code.tsGap)
      { die := s.srcDie src, unit := src } 0
  else s.setGap src { x with dropped := x.dropped + n, last := a }

/-- A source's records go to its stream, ahead of them the gap item of those dropped before (13 R343, 07 R204). Answers whether
they were accepted; a source whose buffer lacks room for all of them drops them. -/
def State.offer (s : State) (src st : Nat) (a : GapAt) (items : List Item) : State × Bool :=
  if s.stagedOf src + items.length ≤ stageRoom src then
    let x := s.gapOf src
    let s := if x.dropped = 0 then s
             else (s.setGap src Gap.init).pushItem st (.flit (src + 128) x.first.tick (x.item src))
    (items.foldl (fun t i => t.pushItem st i) s, true)
  else (s.dropRecs src items.length a, false)

/-! Triggers (13 R337 to R341). -/

/-- A trigger record as bits (12 Table 12.8). -/
def TrigRec.bits (r : TrigRec) : BitVec 256 :=
  pack [ (224, (r.num.getD 0).toNat), (192, r.tick.toNat), (128, r.mask), (96, r.stamp.sec % 2 ^ 32), (64, r.stamp.ns)
       , (40, r.stamp.frac), (34, r.primary), (22, r.srcId), (14, r.srcDt), (13, if r.gap then 1 else 0)
       , (12, if r.fallback then 1 else 0), (11, if r.holdover then 1 else 0) ]

/-- A Dead record (13 Table 13.4). -/
def deadRec (g cause : Nat) (r : TrigRec) : BitVec 256 :=
  pack [ (248, 2), (242, g), (240, cause), (208, (r.num.getD 0).toNat), (176, r.tick.toNat), (128, r.stamp.sec % 2 ^ 32)
       , (96, r.stamp.ns), (72, r.stamp.frac), (8, r.mask) ]

/-- Starts capture in a buffer with first sample `first`, which enters in SAMPLE cycle `entry` (13 R338, R339). -/
def State.startBuf (s : State) (g b : Nat) (rest : List Nat) (first entry : Nat) : State :=
  let x := s.acqGrp g
  let x := { x with buf := b, freeBufs := rest, first := first, lost := SMap.set 0 x.lost b 0,
                    rearm := max (entry + s.acqLook g) (x.cPrev + s.acqHoldoff g) }
  ((s.setAcq g x).setAcqState g Acq.rearm).acqShow g

/-- Whether sample T0 + POST of an open segment has entered. -/
def State.closeDue (s : State) (g : Nat) : Bool :=
  let x := s.acqGrp g
  s.acqState g == Acq.post &&
  (match x.seg with
   | some sg => decide (sg.t0 + s.acqPost g < x.latest)
   | none => false)

/-- The lines in the staging buffer of an Edge die, which has room for 256. -/
def State.stagedLines (s : State) (e : Nat) : Nat := (s.acq.staging.filter (fun l => s.acqFirst l.group / 256 == e)).length

/-- A line of a group is complete: it enters the staging buffer of its Edge die, or is lost where the buffer is full (13 R336). -/
def State.stageLine (s : State) (g i b k : Nat) : State :=
  let x := s.acqGrp g
  let mine := fun (l : Nat × Nat × Nat × W16) => l.1 == i && l.2.2.1 == b && l.2.1 / 16 == k
  let cells := x.lines.filter mine
  let s := s.setAcq g { x with lines := x.lines.filter (fun l => !mine l) }
  if cells.isEmpty then s
  else if s.stagedLines (s.acqFirst g / 256) < 256 ∧ s.shedStage < 5 then { s with acq.staging := s.acq.staging ++ [⟨g, cells⟩] }
  else
    let y := s.acqGrp g
    let s := s.setAcq g { y with lost := SMap.set 0 y.lost b (SMap.get 0 y.lost b + 1), gone := y.gone ++ [(i, k)] }
    (s.bump (Reg.acq g + 0x2C)).raiseNow Code.acqHole { die := s.srcDie g, unit := g } 0

/-- The lines of a group's buffer that a close leaves incomplete are complete as they stand. -/
def State.flushLines (s : State) (g b : Nat) : State :=
  let ks := (((s.acqGrp g).lines.filter (fun l => l.2.2.1 == b)).map (fun l => (l.1, l.2.1 / 16))).eraseDups
  ks.foldl (fun t e => t.stageLine g e.1 b e.2) s

/-- Sample `x` of channel `i` of a group enters its current buffer. -/
def State.addSample (s : State) (g i x : Nat) (v : W16) (filled : Bool) : State :=
  let y := s.acqGrp g
  let s := s.setAcq g { y with lines := y.lines ++ [(i, x, y.buf, v)],
                               filledAt := if filled ∧ !y.filledAt.elem x then y.filledAt ++ [x] else y.filledAt }
  if x % 16 = 15 then s.stageLine g i y.buf (x / 16) else s

/-- Gives the samples of a group from `f` on, in buffer `old`, to buffer `new`, or to none: those that wait to be written, and those
already written, which are found in `new` too (log 23). -/
def State.moveSamples (s : State) (g f old : Nat) (new : Option Nat) : State :=
  let x := s.acqGrp g
  let late := fun (l : Nat × Nat × Nat × W16) => decide (f ≤ l.2.1) && l.2.2.1 == old
  let move := fun (ls : List (Nat × Nat × Nat × W16)) => ls.filterMap (fun l =>
    if late l then new.map (fun b => (l.1, l.2.1, b, l.2.2.2)) else some l)
  let s := { s.setAcq g { x with lines := move x.lines,
                                 lost := SMap.set 0 x.lost old (SMap.get 0 x.lost old - (x.gone.filter (fun e => decide (f ≤ 16 * e.2))).length) } with
             acq.staging := s.acq.staging.map (fun l => if l.group = g then { l with cells := move l.cells } else l) }
  match new with
  | none => s
  | some b =>
    let waits := fun (i n : Nat) => x.gone.elem (i, n / 16) ||
      (x.lines ++ s.acq.staging.flatMap (fun l => if l.group = g then l.cells else [])).any (fun l => l.1 == i && l.2.1 == n)
    let moved := (List.range (16 * (x.latest / 16) - f)).flatMap (fun n => (List.range (s.acqNch g)).flatMap (fun i =>
      if waits i (f + n) then [] else (List.range 2).map (fun o => (s.sampleAddr g old i (f + n) + o, s.sampleAddr g b i (f + n) + o))))
    (moved.filter (fun e => s.isPoisonAt e.1)).foldl (fun t e => t.setPoison e.2 1 true)
      (s.putCells (moved.map (fun e => (e.2, s.rdB e.1))))

/-- Closes the buffer of the open segment and queues it; capture goes on in a free buffer, or the group waits (13 R338). Samples
from T0 + POST on belong to the new buffer, or to none. -/
def State.closeSeg (s : State) (g : Nat) : State :=
  let x := s.acqGrp g
  match x.seg with
  | none => s
  | some sg =>
    let f := sg.t0 + s.acqPost g
    let entry := x.latestCyc - (x.latest - 1 - f) * s.acqStep g
    let sg := { sg with filled := x.filledAt.any (fun i => decide (sg.t0 - sg.preEff ≤ i ∧ i < f)) }
    let s := (s.pushItem (s.acqStream g) (.segment sg)).wrapBy (Reg.acq g + 0x20) 1
    let gone := x.gone.filter (fun e => decide (f < 16 * (e.2 + 1)))
    match x.freeBufs with
    | b :: rest =>
      let s := (s.moveSamples g f sg.buf (some b)).flushLines g sg.buf
      let y := s.acqGrp g
      let s := (s.setAcq g { y with seg := none, cPrev := sg.trig.cyc, filledAt := y.filledAt.filter (fun i => decide (f ≤ i)) }).startBuf
        g b rest f entry
      let y := s.acqGrp g
      s.setAcq g { y with gone := gone, lost := SMap.set 0 y.lost b gone.length }
    | [] =>
      let now := (x.lines ++ s.acq.staging.flatMap (fun l => if l.group = g then l.cells else [])).filter (fun l =>
        l.2.1 + 1 == x.latest && l.2.2.1 == sg.buf && decide (x.latestCyc = s.sampleNow))
      let s := (s.moveSamples g f sg.buf none).flushLines g sg.buf
      let y := s.acqGrp g
      let y := { y with seg := none, cPrev := sg.trig.cyc, waitFrom := some entry, waitTo := none, filledAt := [], gone := [],
                        held := now.map (fun l => (l.1, l.2.2.2, y.filledAt.elem l.2.1)) }
      ((s.setAcq g y).setAcqState g Acq.waiting).acqShow g

/-- Trigger records of events before S still on their way to a group that turns off at S. -/
def State.trigPending (s : State) (g : Nat) (d : W32) : Bool :=
  (s.acqGrp g).trigs.any (fun r => !tickReached r.tick d) || s.fe.forming.any (fun r => !tickReached r.tick d)

/-- A group whose ACQ_DISARM is in force turns Off once no segment is open and no earlier trigger is on its way (13 R341). -/
def State.tryOff (s : State) (g : Nat) : State :=
  let x := s.acqGrp g
  match x.disarming with
  | some d =>
    if x.seg.isSome ∨ s.trigPending g d ∨ s.acqState g = Acq.off then s
    else
      let free := if s.acqState g = Acq.waiting then x.freeBufs else x.freeBufs ++ [x.buf]
      let keep := x.lines.filter (fun (l : Nat × Nat × Nat × W16) => s.acqState g == Acq.waiting || l.2.2.1 != x.buf)
      ((s.setAcq g { x with disarming := none, freeBufs := free, lines := keep, held := [], trigs := [], waitFrom := none, waitTo := none }).setAcqState
        g Acq.off).acqShow g
  | none => s

/-- What is due of a group before anything else of it: its close. -/
def State.settle (s : State) (g : Nat) : State := if s.closeDue g then (s.closeSeg g).tryOff g else s

def acqOk (g : Nat) : Bool := decide (g < 64)

/-- SEGMENT_CLOSE (13 R338). -/
def execSegmentClose (g : Nat) (s : State) : Host.Outcome State Fault Refusal := s.onUnit (acqOk g) (s.settle g)

/-- ACQ_REARM (13 R339). -/
def State.acqRearm (s : State) (g : Nat) : State :=
  let s := s.settle g
  let x := s.acqGrp g
  if s.acqState g = Acq.rearm ∧ s.reach (2 * x.rearm) then (s.atFab (2 * x.rearm)).setAcqState g Acq.armed else s

def execAcqRearm (g : Nat) (s : State) : Host.Outcome State Fault Refusal := s.onUnit (acqOk g) (s.acqRearm g)

/-- The SAMPLE cycle of a past cycle within a tick of length C_tick / 2, counted from the current strobe backwards. -/
def State.cycIn (s : State) (c : Nat) : Nat :=
  let h := max 1 (s.cTick / 2)
  let t0 := s.tod.tickFab / 2
  if t0 ≤ c then c - t0 else (h - (t0 - c) % h) % h

/-- A trigger that a group does not acquire (13 R339). -/
def State.deadTrig (s : State) (g cause : Nat) (r : TrigRec) : State :=
  let s := (s.bump (Reg.acq g + 0x24)).raise Code.acqDead { die := s.srcDie g, unit := g } r.tick 0
  (s.offer g (s.acqStream g) ⟨r.num.getD 0, r.tick, s.cycIn r.cyc, r.cyc⟩ [.flit g r.tick (deadRec g cause r)]).1

/-- Opens a segment (13 R337, R340): T0 is the latest sample that entered at or before c − LOOK. -/
def State.openSeg (s : State) (g : Nat) (r : TrigRec) : State :=
  let x := s.acqGrp g
  let step := s.acqStep g
  let back := ceilDiv (x.latestCyc - (r.cyc - s.acqLook g)) step
  let t0 := x.latest - 1 - back
  let per := max 1 (s.perEvent (s.acqFirst g))
  let have' := t0 - x.first
  let short := decide (have' < s.acqPre g)
  let sg : Segment :=
    { group := g, buf := x.buf, t0 := t0, t0Tick := x.startEvent + BitVec.ofInt 32 (((t0 : Int) - x.startAt) / per),
      t0J := (((t0 : Int) - x.startAt) % per).toNat,
      preEff := min have' (s.acqPre g), shortPre := short, filled := false, trig := r }
  let s := (s.setAcq g { x with seg := some sg }).setAcqState g Acq.post
  if short then s.bump (Reg.acq g + 0x28) else s

/-- ACQ_TRIGGER (13 R337 to R341): the oldest record on its way reaches the group at c + 10. -/
def State.acqTrigger (s : State) (g : Nat) : State :=
  let s := s.settle g
  let x := s.acqGrp g
  match x.trigs with
  | [] => s
  | r :: rest =>
    if !s.reach (2 * (r.cyc + 10)) then s
    else
      let s := (s.atFab (2 * (r.cyc + 10))).setAcq g { x with trigs := rest }
      let ignored : Bool := match x.disarming with
        | some d => tickReached r.tick d
        | none => false
      let st := s.acqState g
      let s :=
        if ignored ∨ st = Acq.off then s
        else if (st = Acq.armed ∨ st = Acq.rearm) ∧ x.rearm ≤ r.cyc ∧ s.shedStage < 5 then s.openSeg g r
        else
          let waited := match x.waitFrom, x.waitTo with
            | some a, some b => decide (a ≤ r.cyc ∧ r.cyc < b)
            | some a, none => decide (a ≤ r.cyc)
            | none, _ => false
          s.deadTrig g (if waited || decide (5 ≤ s.shedStage) then 1 else 0) r
      s.tryOff g

def execAcqTrigger (g : Nat) (s : State) : Host.Outcome State Fault Refusal := s.onUnit (acqOk g) (s.acqTrigger g)

/-- The acquisition groups that take a record: those not Off in its cycle whose TRIG_MASK shares a bit with it (13 R337, Table 13.1). -/
def State.deliverTrig (s : State) (r : TrigRec) : State :=
  (List.range 64).foldl (fun t g =>
    if t.acqEn g && t.acqState g != Acq.off && decide ((t.acqGrp g).armedCyc ≤ r.cyc) && Nat.land (t.acqMask g) r.mask != 0 then
      let x := t.acqGrp g
      t.setAcq g { x with trigs := x.trigs ++ [r] }
    else t) s

/-- ACQ_BUFFER_FREE (13 R338, R341): a buffer whose segment has been written is freed; a group that waits restarts with the first
sample that enters in this cycle or later. -/
def State.bufferFree (s : State) (g b : Nat) : State :=
  let s := s.settle g
  let x := s.acqGrp g
  if !x.written.elem b then s
  else
    let x := { x with written := x.written.filter (· != b) }
    if s.acqState g = Acq.waiting then
      let step := s.acqStep g
      let k := ceilDiv (s.sampleNow - x.latestCyc) step
      let f := x.latest - 1 + k
      let s := (s.setAcq g { x with waitTo := some s.sampleNow, filledAt := [], held := [] }).startBuf g b [] f (x.latestCyc + k * step)
      if k = 0 then x.held.foldl (fun t e => t.addSample g e.1 f e.2.1 e.2.2) s else s
    else (s.setAcq g { x with freeBufs := x.freeBufs ++ [b] }).acqShow g

def execAcqBufferFree (g b : Nat) (s : State) : Host.Outcome State Fault Refusal :=
  s.onUnit (acqOk g && decide (b < 256)) (s.bufferFree g b)

/-! Capture (13 R336). -/

/-- Whether a group captures a channel. -/
def State.covers (s : State) (g ch : Nat) : Bool :=
  s.acqEn g && decide (s.acqFirst g ≤ ch ∧ ch < s.acqFirst g + s.acqNch g)

/-- A sample of event `n` enters a group. -/
def State.groupSample (s : State) (g ch : Nat) (n : W32) (j : Nat) (v : W16) (filled : Bool) : State :=
  let x := s.acqGrp g
  let d := tickDiff n x.startEvent
  let at' : Int := (x.startAt : Int) + d * s.perEvent ch
  if s.acqState g = Acq.off ∨ at' < 0 then s
  else
    let i := at'.toNat + j
    let x := if 0 < d then { x with startEvent := n, startAt := at'.toNat } else x
    let x := if x.latest ≤ i then { x with latest := i + 1, latestCyc := s.sampleNow, held := [] } else x
    if s.acqState g = Acq.waiting then
      s.setAcq g (if i + 1 = x.latest then { x with held := x.held ++ [(ch - s.acqFirst g, v, filled)] } else x)
    else if i < x.first then s.setAcq g x
    else ((s.setAcq g x).addSample g (ch - s.acqFirst g) i v filled).acqShow g

/-- A sample enters the groups that capture its channel. -/
def State.captureSample (s : State) (ch : Nat) (n : W32) (j : Nat) (v : W16) (filled : Bool) : State :=
  ((List.range 64).filter (fun g => s.covers g ch)).foldl (fun t g => (t.settle g).groupSample g ch n j v filled) s

/-- ACQ_CAPTURE (13 R336): the oldest line of a group in its staging buffer is written to its places in Store. A line of Store that it covers
in part is read with it, so the codes may find errors there (07 R198, R199; log 9). -/
def State.acqCapture (s : State) (g : Nat) (ecc : Findings) : State :=
  let s := s.settle g
  match s.acq.staging.find? (fun l => l.group == g) with
  | none => s
  | some l =>
    if 5 ≤ s.shedStage then s
    else
      let cells := l.cells.flatMap (fun (c : Nat × Nat × Nat × W16) =>
        let a := s.sampleAddr g c.2.2.1 c.1 c.2.1
        [(a, BitVec.ofNat 8 c.2.2.2.toNat), (a + 1, BitVec.ofNat 8 (c.2.2.2.toNat / 256))])
      let read := fun (e : Nat × Nat) => cells.any (fun c => granule c.1 == granule e.1) && !coverWhole cells (granule e.1)
      (({ s with acq.staging := s.acq.staging.erase l }.beforeWrite false).found (ecc.filter read) g).putCells cells

def execAcqCapture (g : Nat) (ecc : Findings) (s : State) : Host.Outcome State Fault Refusal := s.onUnit (acqOk g) (s.acqCapture g ecc)

/-! Strobes of ACQ_ARM and ACQ_DISARM. -/

/-- ACQ_ARM takes effect in a group that is Off (13 R338, R339): sample 0 of event S enters FE_DELAY after strobe S. -/
def State.armGroup (s : State) (g : Nat) : State :=
  let x := s.acqGrp g
  match x.arms.find? (tickReached s.tickId) with
  | some t =>
    let s := s.setAcq g { x with arms := x.arms.filter (fun d => !tickReached s.tickId d) }
    let x := s.acqGrp g
    match s.acqState g == Acq.off, x.freeBufs with
    | true, b :: rest =>
      let c0 := s.tod.tickFab / 2
      let x := { x with startEvent := t, startAt := 0, armedCyc := c0, latest := 0, latestCyc := c0, cPrev := c0, seg := none,
                        filledAt := [], gone := [], held := [], trigs := [], waitFrom := none, waitTo := none, disarming := none }
      (s.setAcq g x).startBuf g b rest 0 (c0 + s.feDelay)
    | _, _ => s
  | none => s

def State.acqArmStrobe (s : State) : State := (List.range 64).foldl (fun t g => t.armGroup g) s

def execAcqArmStrobe (s : State) : Host.Outcome State Fault Refusal := s.done s.acqArmStrobe

/-- ACQ_DISARM takes effect. -/
def State.disarmGroup (s : State) (g : Nat) : State :=
  let x := s.acqGrp g
  match x.disarms.find? (tickReached s.tickId) with
  | some t =>
    let x := { x with disarms := x.disarms.filter (fun d => !tickReached s.tickId d) }
    if s.acqState g = Acq.off then s.setAcq g x else (s.setAcq g { x with disarming := some (x.disarming.getD t) }).tryOff g
  | none => s

def State.acqDisarmStrobe (s : State) : State := (List.range 64).foldl (fun t g => t.disarmGroup g) s

def execAcqDisarmStrobe (s : State) : Host.Outcome State Fault Refusal := s.done s.acqDisarmStrobe

/-! Change units (13 R344 to R346). -/

def State.chgEn (s : State) (u : Nat) : Bool := bit (s.rd (Reg.chg u)) 31

/-- A sample enters the change units that watch its channel: every 2^SUB_LOG2-th is taken, from the first after enable. -/
def State.changeIntake (s : State) (ch : Nat) (x : Sample) : State :=
  ((List.range 1024).filter (fun u => s.chgEn u && s.rdF (Reg.chg u) 0 10 == ch)).foldl (fun t u =>
    let y := t.chgSt u
    let y' := { y with count := y.count + 1 }
    t.setChg u (if y.count % 2 ^ t.rdF (Reg.chg u) 22 5 = 0 then { y' with due := y.due ++ [x] } else y')) s

/-- A change record (13 Table 13.5). -/
def chgRec (ch value delta code : Nat) : W64 :=
  BitVec.ofNat 64 (ch % 2 ^ 14 * 2 ^ 50 + value % 2 ^ 16 * 2 ^ 34 + delta % 2 ^ 30 * 2 ^ 4 + code)

/-- The value of a sample code: sign- or zero-extended (12 R318). -/
def State.sampleVal (s : State) (ch : Nat) (v : W16) : Int :=
  if bit (s.rd (Reg.sch ch)) 30 then toSigned 16 v.toNat else (v.toNat : Int)

/-- The tick that holds a SAMPLE cycle at or before the present. -/
def State.tickOf (s : State) (c : Nat) : W32 :=
  let h := max 1 (s.cTick / 2)
  let t0 := s.tod.tickFab / 2
  if t0 ≤ c then s.tickId else s.tickId - BitVec.ofNat 32 (ceilDiv (t0 - c) h)

/-- A taken sample: a record, or an anchor in its place, where it differs from the value last recorded by more than DEADBAND or
is the first. -/
def State.changeTake (s : State) (u : Nat) (x : Sample) : State :=
  let y := s.chgSt u
  let e := u / 256
  let band := s.rd (Reg.chg u + 4)
  if x.filled then s.setChg u { y with wasFilled := true }
  else
    let v := s.sampleVal (s.rdF (Reg.chg u) 0 10) x.v
    if y.started ∧ (v - y.value).natAbs ≤ fld band 0 16 then s
    else
      let delta := x.cyc - y.lastCyc
      let tick := s.tickOf x.cyc
      let cyc := s.cycIn x.cyc
      let chId := fld band 18 14
      let anchor := !y.started || y.needAnchor || decide (2 ^ 30 ≤ delta)
      let recs := if anchor then
          [ chgRec chId x.v.toNat cyc 8
          , chgRec chId (tick.toNat / 65536) (tick.toNat % 65536 * 2 ^ 14) 9 ]
        else [chgRec chId x.v.toNat delta (if y.wasFilled then 1 else 0)]
      let (s, ok) := s.offer (64 + e) (s.rdF (Reg.chg u) 27 4) ⟨0, tick, cyc, x.cyc⟩ (recs.map (fun r => Item.change e tick r))
      let s := if ok then s.wrapBy (Reg.chg u + 8) recs.length else s.bumpBy (Reg.chg u + 0xC) recs.length
      let s := if ok then s
               else (List.range 256).foldl (fun t i =>
                 if t.chgEn (256 * e + i) then t.setChg (256 * e + i) { t.chgSt (256 * e + i) with needAnchor := true } else t) s
      s.setChg u { s.chgSt u with value := v, started := true, lastCyc := x.cyc, wasFilled := false, needAnchor := !ok }

/-- CHANGE_SAMPLE (13 R344): a unit takes the oldest sample that waits for it, in the order of entry cycle and unit number among the units
of its stream and of its Edge die. -/
def State.changeSample (s : State) (u : Nat) : State :=
  match (s.chgSt u).due with
  | [] => s
  | x :: rest =>
    let earlier := s.acq.units.any (fun (e : Nat × ChgSt) =>
      (e.1 / 256 == u / 256 || s.rdF (Reg.chg e.1) 27 4 == s.rdF (Reg.chg u) 27 4) && (match e.2.due with
        | y :: _ => decide (y.cyc < x.cyc) || (y.cyc == x.cyc && decide (e.1 < u))
        | [] => false))
    if earlier then s else (s.setChg u { s.chgSt u with due := rest }).changeTake u x

def execChangeSample (u : Nat) (s : State) : Host.Outcome State Fault Refusal := s.onUnit (decide (u < 1024)) (s.changeSample u)

/-! Edge records (14 R370). -/

/-- An edge record (14 Table 14.3). -/
def edgeRec (unit : Nat) (falling holdover : Bool) (x : Stamp) : BitVec 120 :=
  BitVec.ofNat 120 (unit * 2 ^ 113 + (if falling then 2 ^ 112 else 0) + (if holdover then 2 ^ 111 else 0) + x.sec * 2 ^ 63 +
    x.ns * 2 ^ 31 + x.frac * 2 ^ 7)

/-- Writes an edge record of a Click unit or of 1PPS_IN (unit 64) to stream STREAM of TS_CFG, where EN is set. -/
def State.edgeRecord (s : State) (unit : Nat) (falling : Bool) (x : Stamp) : State :=
  let w := s.rd Reg.tsCfg
  if !bit w 31 then s
  else
    let src := if unit < 64 then 68 + unit / 16 else 72
    let (s, ok) := s.offer src (fld w 26 4) ⟨0, s.tickId, s.cycleNow / 2, s.sampleNow⟩
      [.edge src s.tickId (edgeRec unit falling s.holdover x)]
    if ok then s else s.bump Reg.tsDrops

/-! Streams (13 R347 to R349). -/

/-- The header of a segment item (13 Table 13.2). -/
def State.segHeader (s : State) (x : Segment) (lost flits : Nat) : BitVec 256 :=
  let g := x.group
  pack [ (248, 1), (242, g), (241, if x.shortPre then 1 else 0), (240, if x.filled then 1 else 0), (239, if 0 < lost then 1 else 0)
       , (236, s.decim (s.acqFirst g)), (232, s.acqNch g - 1), (212, flits), (195, x.preEff), (178, s.acqPost g)
       , (162, s.acqFirst g), (130, x.t0Tick.toNat), (115, x.t0J), (95, lost % 2 ^ 20) ]

/-- Data flits of a segment, in the order of R342, with their poison marks. -/
def State.segData (s : State) (x : Segment) : List (BitVec 256 × Bool) :=
  let g := x.group
  let len := x.preEff + s.acqPost g
  let first := x.t0 - x.preEff
  (List.range (ceilDiv len 16)).flatMap (fun b => (List.range (s.acqNch g)).map (fun i =>
    let ks := (List.range 16).filter (fun k => decide (16 * b + k < len))
    (BitVec.ofNat 256 (ks.foldl (fun w k => w + s.rdLE (s.sampleAddr g x.buf i (first + 16 * b + k)) 2 * 2 ^ (16 * k)) 0),
     ks.any (fun k => s.isPoison (s.sampleAddr g x.buf i (first + 16 * b + k)) 2))))

/-- The changes that lead a stream, up to 3, of one Edge die (13 R345; log 23). -/
def leadChanges (e : Nat) : Nat → List Item → List W64
  | n + 1, .change e' _ r :: rest => if e = e' then r :: leadChanges e n rest else []
  | _, _ => []

/-- The edge records that lead a stream, up to 2, of one source (14 R370; log 23). -/
def leadEdges (src : Nat) : Nat → List Item → List (BitVec 120)
  | n + 1, .edge x _ r :: rest => if src = x then r :: leadEdges src n rest else []
  | _, _ => []

/-- The next item of a stream: its flits with their poison, the tick of its first, how many waiting entries it takes, and the
segment it carries. -/
structure NextItem where
  flits : List (BitVec 256 × Bool)
  tick : W32
  takes : Nat
  seg : Option Segment

def State.nextItem (s : State) (st : Nat) : Option NextItem :=
  match (s.strSt st).items with
  | [] => none
  | .segment x :: _ =>
    let y := s.acqGrp x.group
    if (y.lines ++ s.acq.staging.flatMap (fun l => if l.group = x.group then l.cells else [])).any (fun l => l.2.2.1 == x.buf) then none
    else
      let d := s.segData x
      let lost := SMap.get 0 y.lost x.buf
      some ⟨[(s.segHeader x lost d.length, false), (x.trig.bits, false)] ++ d, x.t0Tick, 1, some x⟩
  | .flit _ t d :: _ => some ⟨[(d, false)], t, 1, none⟩
  | .change e t r :: rest =>
    let rs := leadChanges e 3 (.change e t r :: rest)
    some ⟨[(pack ([(248, 4), (246, rs.length)] ++ (List.range rs.length).map (fun i => (64 * i, (rs.getD i 0).toNat))), false)], t,
      rs.length, none⟩
  | .edge src t r :: rest =>
    let rs := leadEdges src 2 (.edge src t r :: rest)
    some ⟨[(pack ([(248, 5), (246, rs.length)] ++ (List.range rs.length).map (fun i => (120 * i, (rs.getD i 0).toNat))), false)], t,
      rs.length, none⟩

def State.strDest (s : State) (st : Nat) : Nat := s.rdF (Reg.str st) 29 2
def State.strBase (s : State) (st : Nat) : Nat := (s.rd (Reg.str st + 4)).toNat + (s.rd (Reg.str st + 8)).toNat * 2 ^ 32
def State.strSize (s : State) (st : Nat) : Nat := (s.rd (Reg.str st + 0xC)).toNat * 4096

/-- Whether an item of `n` bytes fits between WR and RD with 32 bytes left free (13 R348). -/
def State.strFits (s : State) (st n : Nat) : Bool :=
  let size := s.strSize st
  let used := ((s.rd (Reg.str st + 0x18)).toNat + size - (s.rd (Reg.str st + 0x1C)).toNat % max 1 size) % max 1 size
  decide (used + n + 32 ≤ size)

/-- Whether nothing holds a stream (13 R348, R349; 19 R467). -/
def State.strOpen (s : State) (st n : Nat) : Bool :=
  bit (s.rd (Reg.str st)) 31 && decide (s.shedStage < 5) &&
  (match s.strDest st with
   | 0 => s.strFits st n && !(List.range (n / 32)).any (fun i =>
       s.asleep (s.strBase st + ((s.rd (Reg.str st + 0x18)).toNat + 32 * i) % max 1 (s.strSize st)))
   | 1 => s.strFits st n && decide (s.shedStage = 0) && !s.host.inReset
   | _ => s.grpState (s.rdF (Reg.str st) 23 6) != 0)

/-- Bytes of a circular buffer from an offset on: (offset, byte). -/
def ringBytes (size off : Nat) (bs : List W8) : List (Nat × W8) :=
  (List.range bs.length).map (fun i => ((off + i) % max 1 size, bs.getD i 0))

/-- The frames that carry an item's bytes on a lane group (13 R347): as many rows as a frame holds, then the next. -/
def State.itemFrames (s : State) (g strm : Nat) (tick : W32) (bs : List W8) : List TxFrame :=
  let cap := 256 * s.rowBytes g
  (List.range (ceilDiv bs.length cap)).map (fun i =>
    let part := (bs.drop (cap * i)).take cap
    let rows := ceilDiv part.length (s.rowBytes g)
    ⟨g, BitVec.ofNat 64 (tick.toNat * 2 ^ 32 + strm * 2 ^ 24 + (rows - 1) * 2 ^ 16 + 0xE2), padTo (rows * s.rowBytes g) part⟩)

/-- Writes an item to its stream's destination and advances WR (13 R347, R348). Poisoned data keep their mark (07 R200): in HBM that of
their line, over PCIe that of the posted write; an event frame has no place for one (log 23). -/
def State.putItem (s : State) (st : Nat) (it : NextItem) : State :=
  let bs := it.flits.flatMap (fun (f : BitVec 256 × Bool) => bytesLE 32 f.1.toNat)
  let size := s.strSize st
  let wr := (s.rd (Reg.str st + 0x18)).toNat
  let wr' : W32 := BitVec.ofNat 32 ((wr + bs.length) % max 1 size)
  match s.strDest st with
  | 0 =>
    let s := (List.range it.flits.length).foldl (fun t i =>
      let f := it.flits.getD i (0, false)
      t.memWrite (s.strBase st + (wr + 32 * i) % max 1 size) (bytesLE 32 f.1.toNat) f.2) s
    s.wr (Reg.str st + 0x18) wr'
  | 1 =>
    let first := bs.take (size - wr)
    let rest := bs.drop (size - wr)
    let bad := it.flits.any (·.2)
    let data := [(s.strBase st + wr, first, bad)] ++ (if rest.isEmpty then [] else [(s.strBase st, rest, bad)])
    let shadow := (s.rd (Reg.str st + 0x10)).toNat + (s.rd (Reg.str st + 0x14)).toNat * 2 ^ 32
    ({ s with acq.posted := s.acq.posted ++ data ++ [(shadow, bytesLE 4 wr'.toNat, false)] }.wr (Reg.str st + 0x18) wr').irq irqStream
  | _ =>
    let g := s.rdF (Reg.str st) 23 6
    (s.itemFrames g (s.rdF (Reg.str st) 15 8) it.tick bs).foldl (fun t f => t.sendFrame f) s

/-- STREAM_ITEM_WRITE (13 R348): the item that leads a stream is written whole once nothing holds it. -/
def State.streamWrite (s : State) (st : Nat) (ecc : Findings) : State :=
  let s := match s.nextItem st with
    | some it => if s.strOpen st (32 * it.flits.length) then s.found ecc (0x040 + st) else s
    | none => s
  match s.nextItem st with
  | none => s
  | some it =>
    let x := s.strSt st
    if s.strOpen st (32 * it.flits.length) then
      let held := match x.heldSince with
        | some t => s.tod.fab - t
        | none => 0
      let s := (s.putItem st it).wrapBy (Reg.str st + 0x20) 1
      let s := s.wr (Reg.str st + 0x24) (BitVec.ofNat 32 (max (s.rd (Reg.str st + 0x24)).toNat (min held 0xFFFFFFFF)))
      let s := s.setStr st { items := x.items.drop it.takes, heldSince := none }
      match it.seg with
      | some sg => let y := s.acqGrp sg.group
                   s.setAcq sg.group { y with written := y.written ++ [sg.buf] }
      | none => s
    else s.setStr st { x with heldSince := some (x.heldSince.getD s.tod.fab) }

def execStreamItemWrite (st : Nat) (s : State) (ecc : Findings := []) : Host.Outcome State Fault Refusal :=
  s.onUnit (decide (st < 16)) (s.streamWrite st ecc)

/-- STR_RD (13 R348, Table 13.8): the read offset, a multiple of 32. -/
def State.setRd (s : State) (st : Nat) (v : W32) : State := s.wr (Reg.str st + 0x1C) (setFld v 0 5 0)

def execStrRd (st : Nat) (v : W32) (s : State) : Host.Outcome State Fault Refusal :=
  s.onUnit (decide (st < 16)) (if s.hubOn then s.setRd st v else s)

/-! Commands (13 R334 to R336, R352). -/

/-- The area of a group in Store as (offset, bytes). -/
def cfgArea (c : AcqCfg) : Nat × Nat := (c.base, c.nbuf * c.nch * bufLen c.pre c.post * 2)

/-- Whether a configuration keeps R334's rules of its own; one with EN clear takes a group out of use, and is held to the widths of its
fields alone (log 23). -/
def State.acqCfgOk (s : State) (c : AcqCfg) : Bool :=
  let chs := (List.range c.nch).map (fun i => c.firstCh + i)
  decide (c.g < 64 ∧ c.stream < 16 ∧ 2 ≤ c.nbuf ∧ c.nbuf ≤ 256 ∧ 1 ≤ c.nch ∧ c.nch ≤ 16 ∧ c.firstCh + c.nch ≤ 1024 ∧
    c.mask < 2 ^ 64) && (!c.en ||
  chs.all (fun ch => bit (s.rd (Reg.sch ch)) 31 && ch / 256 == c.firstCh / 256 && s.decim ch == s.decim c.firstCh) &&
  decide (c.pre ≤ 65536 ∧ 1 ≤ c.post ∧ c.post ≤ 65536 ∧ 16 ≤ c.holdoff ∧ c.holdoff < 65536 ∧ c.look < 65536) &&
  decide ((cfgArea c).2 ≤ c.areaSize ∧ c.base % 32 = 0 ∧ c.base + c.areaSize ≤ 0x40000000))

/-- The area of a configured group. -/
def State.acqArea (s : State) (g : Nat) : Nat × Nat :=
  ((s.rd (Reg.acq g + 0x18)).toNat, s.acqNbuf g * s.acqNch g * bufLen (s.acqPre g) (s.acqPost g) * 2)

/-- NCH / 2^DECIM in sixteenths. -/
def rate16 (nch decim : Nat) : Nat := nch * 16 / 2 ^ decim

/-- The checks over several groups: areas apart, and the capture rate of each Edge die (13 R334, R336). -/
def State.acqTogether (s : State) (cs : List AcqCfg) : Bool :=
  let others := (List.range 64).filter (fun g => s.acqEn g && !(cs.any (fun c => c.g == g)))
  let on := cs.filter (·.en)
  disjoint (on.map (fun c => (c.base, c.areaSize)) ++ others.map (fun g => s.acqArea g)) &&
  (List.range 4).all (fun e =>
    let mine := (on.filter (fun c => c.firstCh / 256 == e)).foldl (fun n c => n + rate16 c.nch (s.decim c.firstCh)) 0
    let rest := (others.filter (fun g => s.acqFirst g / 256 == e)).foldl (fun n g => n + rate16 (s.acqNch g) (s.decim (s.acqFirst g))) 0
    decide (mine + rest ≤ 48 * 16)) &&
  decide ((cs.map (·.g)).Nodup)

/-- Configures a group: it is Off, and every buffer is free (13 Table 13.7). -/
def State.acqConfigure (s : State) (c : AcqCfg) : State :=
  let a := Reg.acq c.g
  let s := s.wrs
    [ (a, BitVec.ofNat 32 ((if c.en then 2 ^ 31 else 0) + c.stream * 2 ^ 27 + (c.nbuf - 1) * 2 ^ 19 + (c.nch - 1) * 2 ^ 15 + c.firstCh))
    , (a + 4, BitVec.ofNat 32 c.pre), (a + 8, BitVec.ofNat 32 c.post), (a + 0xC, BitVec.ofNat 32 (c.holdoff * 65536 + c.look))
    , (a + 0x10, BitVec.ofNat 32 c.mask), (a + 0x14, BitVec.ofNat 32 (c.mask / 2 ^ 32)), (a + 0x18, BitVec.ofNat 32 c.base)
    , (a + 0x1C, 0) ]
  (s.setAcq c.g { AcqGrp.init with freeBufs := List.range c.nbuf }).acqShow c.g

def execAcqConfig (h : Hdr) (cfgs : List AcqCfg) (s : State) : Host.Outcome State Fault Refusal :=
  s.done (s.serve h Op.acqConfig
    (fun s => firstRej
      [ (decide (1 ≤ cfgs.length ∧ cfgs.length ≤ 64) && cfgs.all (fun c => s.acqCfgOk c) && s.acqTogether cfgs, rej Status.valueRange) ])
    (fun s => { st := cfgs.foldl State.acqConfigure s }))

/-- The strobe a set command names, as its reply gives it. -/
def strobeReply (d : W32) : List W32 := [d]

/-- ACQ_ARM (13 R338, R341). -/
def execAcqArm (h : Hdr) (mask : Nat) (d : W32) (s : State) : Host.Outcome State Fault Refusal :=
  s.done (s.serve h Op.acqArm
    (fun s => firstRej
      [ (s.strobeOk d, rej Status.valueRange)
      , (decide (mask ≠ 0) && (bitsOf mask 64).all (fun g => s.acqEn g && !(s.acqGrp g).disarms.elem (s.strobeOf d)), rej Status.valueRange) ])
    (fun s => { st := (bitsOf mask 64).foldl (fun t g => t.setAcq g { t.acqGrp g with arms := (t.acqGrp g).arms ++ [s.strobeOf d] }) s,
                out := strobeReply (s.strobeOf d) }))

/-- ACQ_DISARM (13 R341). -/
def execAcqDisarm (h : Hdr) (mask : Nat) (d : W32) (s : State) : Host.Outcome State Fault Refusal :=
  s.done (s.serve h Op.acqDisarm
    (fun s => firstRej
      [ (s.strobeOk d, rej Status.valueRange)
      , (decide (mask ≠ 0) && (bitsOf mask 64).all (fun g => s.acqEn g && !(s.acqGrp g).arms.elem (s.strobeOf d)), rej Status.valueRange) ])
    (fun s => { st := (bitsOf mask 64).foldl (fun t g => t.setAcq g { t.acqGrp g with disarms := (t.acqGrp g).disarms ++ [s.strobeOf d] }) s,
                out := strobeReply (s.strobeOf d) }))

/-- CHG_CONFIG (13 R344, Table 13.9): a unit starts anew. -/
def execChgConfig (h : Hdr) (ents : List (Nat × W32 × W32)) (s : State) : Host.Outcome State Fault Refusal :=
  s.done (s.serve h Op.chgConfig
    (fun s => firstRej
      [ (decide (1 ≤ ents.length ∧ ents.length ≤ 256) && ents.all (fun (e : Nat × W32 × W32) =>
          decide (e.1 < 1024 ∧ fld e.2.1 22 5 ≤ 20) &&
          (!bit e.2.1 31 || (fld e.2.1 0 10 / 256 == e.1 / 256 && bit (s.rd (Reg.sch (fld e.2.1 0 10))) 31))), rej Status.valueRange) ])
    (fun s => { st := ents.foldl (fun t (e : Nat × W32 × W32) =>
        ((t.wr (Reg.chg e.1) (setFld e.2.1 10 12 0)).wr (Reg.chg e.1 + 4) (setFld e.2.2 16 2 0)).setChg e.1 ChgSt.init) s }))

/-- Whether the HBM buffer of a stream lies in HBM clear of the loader region and of the segments of images (13 Table 13.10). -/
def strClear (c : StrCfg) (segs : List (Nat × Nat)) : Bool :=
  let lo := c.base
  let n := c.size4k * 4096
  (List.range 2).all (fun i => (regionOf (lo + i * (n - 1))) == .hbm) &&
  !(rangesMeet (lo, n) (0x14600000000, 0x200000000)) && !(segs.any (rangesMeet (lo, n)))

/-- ACQ_STATS (13 R352): the counters of a group, a stream or a unit; with CLEAR they read 0 afterwards (log 23). -/
def statAddrs (kind ix : Nat) : List Nat :=
  match kind with
  | 0 => [Reg.acq ix + 0x20, Reg.acq ix + 0x24, Reg.acq ix + 0x28, Reg.acq ix + 0x2C]
  | 1 => [Reg.str ix + 0x20, Reg.str ix + 0x24]
  | _ => [Reg.chg ix + 8, Reg.chg ix + 0xC]

def execAcqStats (h : Hdr) (kind idx : Nat) (clear : Bool) (s : State) : Host.Outcome State Fault Refusal :=
  s.done (s.serve h Op.acqStats
    (fun _ => firstRej [(decide (kind < 3 ∧ idx < [64, 16, 1024].getD kind 0), rej Status.valueRange)])
    (fun s => { st := if clear then s.wrs ((statAddrs kind idx).map (fun a => (a, 0))) else s,
                out := (statAddrs kind idx).map s.rd }))

end Sys2Proof.Machine
end

