-- ==== Sys2Proof/Machine/Ant.lean ====
section
/-! DEFINITION. The Ant core: firings (03 R76 to R78), the issue of instructions, and the move, queue and control classes of
Table 3.5. An instruction row acts on the running firing of its core when the word at the firing's PC is that operation. Each
instruction issues in a FAB cycle that R72 gives, and its results are read from the cycle that R71 gives (R73). -/

namespace Sys2Proof.Machine

/-- The running firing of a physical core. -/
def State.firingOf (s : State) (t c : Nat) : Option Firing := s.ant.firings.find? (fun f => f.tile == t && f.core == c)

def State.setFiring (s : State) (f : Firing) : State :=
  { s with ant.firings := s.ant.firings.map (fun g => if g.tile = f.tile ∧ g.core = f.core then f else g) }

/-- The address of the instruction at a PC (07 Table 7.3). -/
def iramAddr (t c k pc : Nat) : Nat := Reg.coreBase t c + 0x30000 + k * 0x2000 + (pc % 512) * 16

/-- The instruction word NOP, one cycle, as an uncorrectable word executes (07 R200). -/
def nopWord : Nat := 5 * 2 ^ 125

/-- The word that the firing reaches, and whether it was uncorrectable. -/
def State.fetchAnt (s : State) (f : Firing) : Nat × Bool :=
  let a := iramAddr f.tile f.core f.ctx f.pc
  if s.isPoison a 16 then (nopWord, true) else (s.rdLE a 16, false)

/-- The next PC and the loops left after the instruction at `pc` (03 R72). -/
def nextPc (pc : Nat) : List LoopSt → Nat × List LoopSt
  | [] => (pc + 1, [])
  | l :: r =>
    if pc = l.last then
      (if l.left = 0 then nextPc pc r else (l.first, { l with left := l.left - 1 } :: r))
    else (pc + 1, l :: r)

/-- The cycles an operation holds its unit (03 Table 3.5). -/
def issueCycles (i : AntIns) : Nat :=
  match i.cls, i.op with
  | 0, 0 => i.cnt
  | 1, 1 => i.cnt
  | 1, 2 => i.cnt
  | 1, 3 => i.cnt
  | 1, 4 => ceilDiv i.cnt 16
  | 3, 0 => i.cnt
  | 3, 1 => if bits i.aux 8 3 = 0 then i.cnt else 1
  | 3, 2 => i.cnt
  | 4, 0 => i.cnt
  | 5, 0 => i.cnt
  | _, _ => 1

/-- The latency L of an operation that writes registers, accumulators or core store (03 Table 3.5). -/
def latency (i : AntIns) : Nat :=
  match i.cls, i.op with
  | 0, 0 => 3
  | 0, 1 => 3
  | 0, 2 => 2
  | 1, 1 => 6
  | 1, 2 => 6
  | 1, 3 => 5
  | 1, 4 => 6
  | 2, 4 => 4
  | 2, 5 => 2
  | 2, 6 => 2
  | 2, 7 => 4
  | 2, 8 => 5
  | 2, _ => 3
  | 3, 0 => 2
  | _, _ => 1

/-- The key of a unit of a core, by the class that it serves: move, MAC, vector, queue and SFU (03 R72). -/
def unitKey (t c cls : Nat) : Nat := kc t c * 8 + cls

/-- The FAB cycle in which the instruction that a firing has reached issues: its unit is free by then (03 R72). The control class has
no unit. -/
def State.issueAt (s : State) (f : Firing) (i : AntIns) : Nat :=
  if i.cls < 5 then max f.next (SMap.get 0 s.ant.units (unitKey f.tile f.core i.cls)) else f.next

/-- A firing as it issues an instruction whose unit is held for `n` cycles. -/
def State.issuing (s : State) (f : Firing) (i : AntIns) (n : Nat) : Firing :=
  { f with clk := s.issueAt f i, due := s.issueAt f i + n - 1 + latency i }

/-- Forgets the results of a core that are due, oldest first. -/
def State.settleCore (s : State) (t c T : Nat) : State :=
  { s with ant.shadows := SMap.set [] s.ant.shadows (kc t c) ((s.shadowsOf t c).dropWhile (fun h => decide (h.due ≤ T))) }

/-- Moves a firing past an instruction that issued in cycle `T` and holds its unit for `n` cycles, and shows its PC in CTX_STAT
(03 R72): one instruction issues per cycle, and a NOP idles for its count. -/
def State.advanceFiring (s : State) (t c : Nat) (i : AntIns) (T n : Nat) : State :=
  let s := if i.cls < 5 then { s with ant.units := SMap.set 0 s.ant.units (unitKey t c i.cls) (T + n) } else s
  match s.firingOf t c with
  | some f =>
    let (pc, ls) := nextPc f.pc f.loops
    (s.setFiring { f with pc := pc % 512, loops := ls, next := T + (if i.cls < 5 then 1 else n) }).wrF
      (Reg.ctxStat t c f.ctx) 0 9 pc
  | none => s

/-- Poisons every flit that a firing has sent, and whatever a flit of it has joined, wherever it is held (03 R78; 07 R200). -/
def State.poisonFiring (s : State) (n : Nat) : State :=
  let mark := fun (f : Flit) => if f.fires.elem n then { f with poison := true } else f
  { s with
    ant.mesh := s.ant.mesh.map (fun m => { m with flit := mark m.flit })
    ant.requests := s.ant.requests.map (fun q => { q with item := { q.item with flit := mark q.item.flit } })
    ant.side := s.ant.side.map (fun e => (e.1, if e.2.fires.elem n then { e.2 with poison := true } else e.2))
    ant.calls := s.ant.calls.map (fun c => if c.fires.elem n then { c with poison := true } else c)
    ant.sfuOuts := s.ant.sfuOuts.map (fun o => if o.fires.elem n then { o with poison := true } else o)
    ant.kv := s.ant.kv.map (fun b => if b.fires.elem n then { b with poison := true } else b)
    banks.patReqs := s.banks.patReqs.map (fun q => if q.fires.elem n then { q with poison := true } else q)
    clk.vals := s.clk.vals.map (fun v => if v.fires.elem n then { v with poison := true } else v)
    scarab.spilled := s.scarab.spilled.map (fun e => { e with flit := mark e.flit }) }

/-- The findings in the memories of the core on which an instruction runs. -/
def State.coreFindings (s : State) (f : Firing) (l : Findings) : State :=
  let base := Reg.coreBase f.tile f.core
  s.found (within l base 0x3C000) f.pc

/-- Runs one instruction of class `cls` and operation `op` on a core, where its firing has reached one. An uncorrectable word
executes as NOP and poisons every output flit of the firing (07 R200). -/
def State.antRun (s : State) (t c cls op : Nat) (m : AntMeas) (body : State → Firing → AntIns → State) : State :=
  match s.firingOf t c with
  | none => s
  | some f =>
    let s' := s.coreFindings f m.ecc
    let (w, bad) := s'.fetchAnt f
    let i := antIns w
    if i.cls = cls ∧ i.op = op then
      let n := issueCycles i + m.waits
      let f := { s'.issuing f i n with poisoned := f.poisoned || bad }
      let s' := (if bad then s'.poisonFiring f.serial else s').settleCore t c f.clk
      (body (s'.setFiring f) f i).advanceFiring t c i f.clk n
    else s

/-- Whether a tile and a physical core exist. -/
def coreOk (t c : Nat) : Bool := decide (t < 16 ∧ c < 544)

/-- A Survey context may not start where a Timed slot of the core starts within the MAX_FIRE cycles after the present one, in this tick
or the next (03 R77). -/
def State.surveyFits (s : State) (t c k cyc : Nat) : Bool :=
  let m := s.rdF (Reg.ctxMaxFire t c k) 0 16
  (List.range 4).all (fun j =>
    !(s.ctxValid t c j && bit (s.rd (Reg.ctxCfg t c j)) 30) ||
    (let st := s.rdF (Reg.ctxSlot t c j) 0 16
     let d := (st + s.cTick - cyc % s.cTick) % s.cTick
     decide (m < (if d = 0 then s.cTick else d))))

/-- Whether Survey contexts are paused on a physical core: in Halted (15 R402), while a shedding stage holds (17 Table 17.1), and
while a substitution step copies the logical core (03 Table 3.11). -/
def State.surveyPaused (s : State) (t c : Nat) : Bool :=
  s.dev.state == .halted || decide (1 ≤ s.shedStage) ||
  s.subst.rows.any (fun r => r.tile == t && r.row == c / 17 && decide (1 ≤ r.phase ∧ r.phase ≤ 2) && s.logical t c == some (16 * r.row + r.cur))

/-- The context a core selects in local cycle `cyc` (03 R77): a Timed one inside its slot first, then a Survey one in round
robin after the last Survey firing. Before any Survey firing the round starts at context 1, as after a firing of context 0 (DESIGN
CHOICE, log 27: R77 names no first context). -/
def State.selectCtx (s : State) (t c cyc : Nat) : Option Nat :=
  let timed := fun k => bit (s.rd (Reg.ctxCfg t c k)) 30
  match (List.range 4).find? (fun k => timed k && s.eligible t c k &&
      decide (s.rdF (Reg.ctxSlot t c k) 0 16 ≤ cyc ∧ cyc ≤ s.rdF (Reg.ctxSlot t c k) 16 16)) with
  | some k => some k
  | none =>
    let last := SMap.get 0 s.ant.lastSurvey (kc t c)
    ((List.range 4).map (fun i => (last + 1 + i) % 4)).find? (fun k =>
      !timed k && !s.surveyPaused t c && s.eligible t c k && s.surveyFits t c k cyc)

/-- The firing of a context begins (03 R76, R77): the head flits' tags are compared, and the firing takes the tag of the
lowest-numbered named queue. A firing that names no queue takes a free tag (log 13). Its first instruction issues in the cycle after
the selection in local cycle `cyc`. -/
def State.beginFiring (s : State) (t c k cyc : Nat) : State :=
  let heads := (s.named t c k).filterMap (fun q => (s.qHead t c k q).map (fun f => (q, f)))
  let (tag, s) := match heads with
    | (_, f) :: _ => (f.tag, s)
    | [] => let (w, s) := s.fresh; (w.extractLsb' 0 8, s)
  let skew := heads.any (fun e => e.2.tag != tag)
  let cfg := s.rd (Reg.ctxCfg t c k)
  let f : Firing :=
    { tile := t, core := c, ctx := k, pc := fld cfg 0 9, tag := tag, poisoned := skew, loops := [], start := s.tod.tickFab + cyc + 1,
      next := s.tod.tickFab + cyc + 1, clk := 0, due := 0, serial := s.ant.nextFire }
  let s := { s with ant.firings := s.ant.firings ++ [f], ant.nextFire := s.ant.nextFire + 1 }
  let s := s.wr (Reg.ctxStat t c k) (setFld (setBit (s.rd (Reg.ctxStat t c k)) 31 true) 0 9 (fld cfg 0 9))
  let s := s.wrapBy (Reg.ctxFires t c k) 1
  let s := if bit cfg 30 then s else { s with ant.lastSurvey := SMap.set 0 s.ant.lastSurvey (kc t c) k }
  let s := { s with scarab.blocked := SMap.del (kc t c * 4 + k) s.scarab.blocked }
  match heads with
  | (q, _) :: _ =>
    if skew then s.raise Code.tagSkew { die := t, unit := c, ctx := k, sub := q } (s.eventOf tag)
      (detailQ (queueNo t c k q) tag.toNat) else s
  | [] => s

/-- FIRING_START (03 R77): the next firing is selected at the earliest in the cycle after END. -/
def State.firingStart (s : State) (t c cyc : Nat) : State :=
  if s.tod.tickFab + cyc < SMap.get 0 s.ant.endAt (kc t c) then s
  else
    match s.selectCtx t c cyc with
    | some k => (s.atCycle cyc).beginFiring t c k cyc
    | none => s

def execFiringStart (tile core cyc : Nat) (s : State) : Host.Outcome State Fault Refusal :=
  s.onUnit (coreOk tile core) (if s.hubOn then s.firingStart tile core cyc else s)

/-- The firing of a core ends, and the next is selected in cycle `at'` or later: FIRING clears (03 R77). -/
def State.endFiring (s : State) (t c at' : Nat) : State :=
  match s.firingOf t c with
  | some f =>
    let s := { s with ant.firings := s.ant.firings.filter (fun g => !(g.tile == t && g.core == c)),
                      ant.endAt := SMap.set 0 s.ant.endAt (kc t c) at' }
    s.wr (Reg.ctxStat t c f.ctx) (setBit (s.rd (Reg.ctxStat t c f.ctx)) 31 false)
  | none => s

/-- SURVEY_OVERRUN (03 R78): a Survey firing whose next instruction issues past its MAX_FIRE cycles ends, and what it sent is
poisoned. -/
def State.surveyOverrun (s : State) (t c : Nat) : State :=
  match s.firingOf t c with
  | some f =>
    let stop := f.start + s.rdF (Reg.ctxMaxFire t c f.ctx) 0 16
    if bit (s.rd (Reg.ctxCfg t c f.ctx)) 30 ∨ s.issueAt f (antIns (s.fetchAnt f).1) < stop then s
    else
      ((s.poisonFiring f.serial).endFiring t c stop).raise Code.surveyOverrun { die := t, unit := c, ctx := f.ctx } (s.eventOf f.tag)
        (detailC f.pc none 0)
  | none => s

def execSurveyOverrun (tile core : Nat) (s : State) : Host.Outcome State Fault Refusal :=
  s.onUnit (coreOk tile core) (s.surveyOverrun tile core)

/-! Move class. -/

/-- MOV: CNT lines, each STEP lines on; poison travels with each word (03 Table 3.5, 07 R200). -/
def movBody (s : State) (f : Firing) (i : AntIns) : State :=
  (List.range i.cnt).foldl (fun t n =>
    let g := t.csRead (f.step n) (dAddr i.srcA + 32 * i.step * n) 32
    g.st.csWrite f (dAddr i.dst + 32 * i.step * n) g.bytes g.marks) s

def execMov (tile core : Nat) (m : AntMeas) (s : State) : Host.Outcome State Fault Refusal :=
  s.onUnit (coreOk tile core) (s.antRun tile core 0 0 m movBody)

/-- LDV: a line pair into a vector register, the lanes of a poisoned word poisoned. -/
def ldvBody (s : State) (f : Firing) (i : AntIns) : State :=
  let g := s.csRead f (dAddr i.srcA) 64
  g.st.putVr f (dReg i.dst) (BitVec.ofNat 512 (ofBytesLE g.bytes)) (laneMask g.marks)

def execLdv (tile core : Nat) (m : AntMeas) (s : State) : Host.Outcome State Fault Refusal :=
  s.onUnit (coreOk tile core) (s.antRun tile core 0 1 m ldvBody)

/-- STV: a vector register into a line pair, the words of a poisoned lane poisoned. -/
def stvBody (s : State) (f : Firing) (i : AntIns) : State :=
  let x := s.vrSeen f (dReg i.srcA)
  s.csWrite f (dAddr i.dst) (bytesLE 64 x.1.toNat) ((List.range 64).map (fun b => nbit x.2 (b / 4)))

def execStv (tile core : Nat) (m : AntMeas) (s : State) : Host.Outcome State Fault Refusal :=
  s.onUnit (coreOk tile core) (s.antRun tile core 0 2 m stvBody)

/-- LDI: an immediate into all lanes of a vector register. -/
def ldiBody (s : State) (f : Firing) (i : AntIns) : State :=
  s.putVr f (dReg i.dst) (ofLanes (List.replicate 16 (dImm i.srcA))) 0

def execLdi (tile core : Nat) (s : State) (m : AntMeas := {}) : Host.Outcome State Fault Refusal :=
  s.onUnit (coreOk tile core) (s.antRun tile core 0 3 m ldiBody)

/-! Queue class. -/

/-- QPOP: CNT flits of an input queue into core-store lines, STEP lines apart, or into the halves of vector registers from
DST on (03 Table 3.5; log 16). A pop from an empty queue delivers a poisoned free value: the firing rule of R77 keeps it from
happening where NEED covers the pops. -/
def qpopBody (s : State) (f : Firing) (i : AntIns) : State :=
  let q := dQueue i.srcA
  (List.range i.cnt).foldl (fun t n =>
    let (data, p, t) := match t.qHead f.tile f.core f.ctx q with
      | some fl => (fl.data, fl.poison, t)
      | none => let (w, t) := t.fresh; (BitVec.ofNat 256 w.toNat, true, t)
    let t := t.qPop f.tile f.core f.ctx q
    if dKind i.dst = Kind.vreg then
      let r := dReg i.dst + n / 2
      let old := t.vr f.tile f.core r
      let pm := t.vrPoison f.tile f.core r
      let lo := 256 * (n % 2)
      let v := BitVec.ofNat 512 (old.toNat - bits old.toNat lo 256 * 2 ^ lo + data.toNat * 2 ^ lo)
      let half := 255 * 2 ^ (8 * (n % 2))
      let pm := pm - Nat.land pm half + (if p then half else 0)
      t.putVr f r v pm
    else t.csWrite f (dAddr i.dst + 32 * i.step * n) (bytesLE 32 data.toNat) (List.replicate 32 p)) s

def execQpop (tile core : Nat) (s : State) (m : AntMeas := {}) : Host.Outcome State Fault Refusal :=
  s.onUnit (coreOk tile core) (s.antRun tile core 3 0 m qpopBody)

/-- The residue of the integer a partial slot carries (04 R124); of an extended one that is its signed significand (DESIGN CHOICE, log 27:
R124 does not say whether the exponent counts). -/
def slotRes (kind : Nat) (exact : Int) (x : XF) : Nat :=
  if kind = 3 then res7 (if x.neg then -(x.sig : Int) else x.sig) else if kind = 0 then 0 else res7 exact

def Acc.xf (a : Acc) : XF := ⟨a.xneg, a.xexp, a.xsig⟩
def Acc.setXf (a : Acc) (x : XF) : Acc := { a with xneg := x.neg, xexp := x.exp, xsig := x.sig }

/-- The weight exponent of an accumulator's open block (04 R108). -/
def Acc.weight (a : Acc) : Int :=
  match a.mode with
  | 1 => -32
  | 2 => 0
  | 3 => -32 + a.scale
  | 4 => -12 + a.scale
  | 5 => -4 + a.scale
  | _ => 0

/-- Closes the open block (04 R108): EXACT × 2^w rounded once, added to XF with one rounding, EXACT cleared. A block whose scale is
NaN adds zero (R105). A block closed before its last term keeps its place and its scale (R106). An FN24 accumulator is never closed. -/
def Acc.close (a : Acc) : Acc :=
  if a.mode = 6 ∨ a.inBlk = 0 then a
  else
    { a.setXf (a.xf.add (rne48 (Val.ofInt (if a.zeroed then 0 else a.exact) a.weight))) with exact := 0, inBlk := 0 }

/-- A partial slot before its bits (04 Table 4.4). -/
structure Slot where
  kind : Nat
  faulted : Bool
  terms : Nat
  exact : Int
  xf : XF
  deriving DecidableEq, Repr

/-- The slot in which an accumulator is pushed, and the accumulator afterwards (04 R110). -/
def Acc.toSlot (a : Acc) : Slot × Acc :=
  if a.terms = 0 then (⟨0, a.faulted, 0, 0, XF.zero⟩, a)
  else if a.mode = 6 then (⟨2, a.faulted, min a.terms 65536, a.exact, XF.zero⟩, a)
  else if (a.mode = 1 ∨ a.mode = 2) ∧ a.xsig = 0 ∧ a.terms ≤ 4096 then (⟨a.mode, a.faulted, a.terms, a.exact, XF.zero⟩, a)
  else
    let b := a.close
    (⟨3, b.faulted, min b.terms 65536, 0, b.xf⟩, b)

/-- The 128 bits of a slot (04 Table 4.4). -/
def Slot.code (x : Slot) : Nat :=
  x.kind * 2 ^ 126 + (if x.faulted then 2 ^ 125 else 0) + (x.terms % 2 ^ 17) * 2 ^ 108 +
  slotRes x.kind x.exact x.xf * 2 ^ 105 +
  (if x.kind = 3 then x.xf.code else if x.kind = 0 then 0 else ofSigned 88 x.exact)

/-- A numeric residue mismatch of a core (04 R125): reported, counted in CORE_RES, and remembered for the windows of R90. -/
def State.resFault (s : State) (f : Firing) (tensor : Option Nat) : State :=
  let s := s.raise Code.residueMismatch { die := f.tile, unit := f.core, ctx := f.ctx } (s.eventOf f.tag)
    (detailC f.pc tensor 0)
  let s := s.bump (Reg.coreRes f.tile f.core)
  let l := SMap.get [] s.subst.resWin (kc f.tile f.core) ++ [s.tickId]
  { s with subst.resWin := SMap.set [] s.subst.resWin (kc f.tile f.core) l }

/-- The residue mismatches among the `n` results of an instruction. -/
def State.resFaults (s : State) (f : Firing) (res : List Nat) (n : Nat) (tensor : Option Nat) : State :=
  ((List.range n).filter res.elem).foldl (fun t _ => t.resFault f tensor) s

/-- The slot of an accumulator that a push sends (04 R110): the block it closes is closed in the accumulator too, and the conversion to
extended float is checked (R124). -/
def State.slotOut (s : State) (f : Firing) (set i : Nat) (wrong : Bool) : Slot × State :=
  let x := (s.accSeen f set i).toSlot.1
  let a := s.accAt f.tile f.core set i
  let b := a.toSlot.2
  if wrong ∧ b ≠ a then
    ({ x with faulted := true }, (s.setAcc f.tile f.core set i { b with faulted := true }).resFault f none)
  else (x, s.setAcc f.tile f.core set i b)

/-- A flit of accumulators `first` and `first + 1` of a set (04 R110): its bits, whether one is faulted, and the state with
the blocks that pushing closed. -/
def State.accFlit (s : State) (f : Firing) (set first : Nat) (wrong : Nat → Bool) : BitVec 256 × Bool × State :=
  let (x, s) := s.slotOut f set first (wrong 0)
  let (y, s) := s.slotOut f set (first + 1) (wrong 1)
  (BitVec.ofNat 256 (x.code + y.code * 2 ^ 128), x.faulted || y.faulted, s)

/-- The `n`-th flit a push takes from its source: a core-store line, half a vector register, a flit of two accumulators (`res` names
the slots whose conversion fails its residue check), or the head of a queue. -/
def State.pushData (s : State) (f : Firing) (i : AntIns) (n : Nat) (res : List Nat) : BitVec 256 × Bool × State :=
  if dKind i.srcA = Kind.acc then s.accFlit f (dSet i.srcA) (dFirst i.srcA + 2 * n) (fun j => res.elem (2 * n + j))
  else if dKind i.srcA = Kind.vreg then
    let x := s.vrSeen (f.step n) (dReg i.srcA + n / 2)
    (BitVec.ofNat 256 (bits x.1.toNat (256 * (n % 2)) 256), Nat.land x.2 (255 * 2 ^ (8 * (n % 2))) != 0, s)
  else
    let g := s.srcBytes f i.srcA i.step n 32
    (BitVec.ofNat 256 (ofBytesLE g.bytes), g.poison, g.st)

/-- QPUSH: CNT flits, or one chunk when CHUNK_LEN is not 0, to the route AUX names (03 Table 3.5). -/
def qpushBody (res : List Nat) (s : State) (f : Firing) (i : AntIns) : State :=
  let r := bits i.aux 0 4
  let off := bits i.aux 4 3
  let len := bits i.aux 8 3
  if len = 0 then
    (List.range i.cnt).foldl (fun t n =>
      let (d, p, t) := t.pushData f i n res
      t.push f r d 0 0 (n + 1 == i.cnt) p) s
  else
    let (d, p, s) := s.pushData f i 0 res
    s.push f r d off len true p

def execQpush (tile core : Nat) (s : State) (m : AntMeas := {}) : Host.Outcome State Fault Refusal :=
  s.onUnit (coreOk tile core) (s.antRun tile core 3 1 m (qpushBody m.res))

/-- QFWD: the head flits of a queue to a route, not stored; poison goes along (03 Table 3.5, 07 R200). -/
def qfwdBody (s : State) (f : Firing) (i : AntIns) : State :=
  let r := bits i.aux 0 4
  let off := bits i.aux 4 3
  let len := bits i.aux 8 3
  (List.range i.cnt).foldl (fun t n =>
    match t.qHead f.tile f.core f.ctx (dQueue i.srcA) with
    | some fl => (t.qPop f.tile f.core f.ctx (dQueue i.srcA)).push f r fl.data (if len = 0 then 0 else off) len
        (n + 1 == i.cnt) fl.poison
    | none => t) s

def execQfwd (tile core : Nat) (s : State) (m : AntMeas := {}) : Host.Outcome State Fault Refusal :=
  s.onUnit (coreOk tile core) (s.antRun tile core 3 2 m qfwdBody)

/-- SREQ: a class-T Store or pattern request on the route AUX names; its flits are CNT lines of SRC_A, and the data return to
the DST queue (03 Table 3.5; log 18). -/
def sreqBody (res : List Nat) (s : State) (f : Firing) (i : AntIns) : State :=
  let r := bits i.aux 0 4
  (List.range i.cnt).foldl (fun t n =>
    let (d, p, t) := t.pushData f i n res
    let (t, items) := t.expandRoute f r d 0 0 (n + 1 == i.cnt) p
    { t with ant.mesh := t.ant.mesh ++ items.map (fun (m : MeshItem) => { m with flit := { m.flit with dq := dQueue i.dst }, req := true }) }) s

def execSreq (tile core : Nat) (s : State) (m : AntMeas := {}) : Host.Outcome State Fault Refusal :=
  s.onUnit (coreOk tile core) (s.antRun tile core 3 3 m (sreqBody m.res))

/-- SFUC: CNT call flits to a special-function unit of the tile with the function, parameter set, caller and DST in their
sideband (05 R131); it waits for no result (R132). -/
def sfucBody (res : List Nat) (s : State) (f : Firing) (i : AntIns) : State :=
  let lc := (s.logical f.tile f.core).getD 0
  (List.range i.cnt).foldl (fun t n =>
    let (d, p, t) := t.pushData f i n res
    let fl : Flit :=
      { data := d, tag := f.tag, ctx := f.ctx, dq := dQueue i.dst, off := 0, len := 0, last := n + 1 == i.cnt,
        poison := p || f.poisoned, src := none, fires := [f.serial] }
    let m : MeshItem :=
      { flit := fl, dest := .sfu f.tile (bits i.aux 0 2) (bits i.aux 2 6) (bits i.aux 8 4) lc,
        result := false }
    { t with ant.mesh := t.ant.mesh ++ [m] }) s

def execSfuc (tile core : Nat) (s : State) (m : AntMeas := {}) : Host.Outcome State Fault Refusal :=
  s.onUnit (coreOk tile core) (s.antRun tile core 4 0 m (sfucBody m.res))

/-! Control class. -/

def execNop (tile core : Nat) (s : State) (m : AntMeas := {}) : Host.Outcome State Fault Refusal :=
  s.onUnit (coreOk tile core) (s.antRun tile core 5 0 m (fun s _ _ => s))

/-- LOOP: the next AUX[5:0] + 1 instructions run CNT times (03 R72). -/
def loopBody (s : State) (f : Firing) (i : AntIns) : State :=
  s.setFiring { f with loops := { first := f.pc + 1, last := f.pc + 1 + bits i.aux 0 6, left := i.cnt - 1 } :: f.loops }

def execLoop (tile core : Nat) (s : State) (m : AntMeas := {}) : Host.Outcome State Fault Refusal :=
  s.onUnit (coreOk tile core) (s.antRun tile core 5 1 m loopBody)

/-- END: the firing ends (03 R77). -/
def endBody (s : State) (f : Firing) (_ : AntIns) : State := s.endFiring f.tile f.core (f.clk + 1)

def execEnd (tile core : Nat) (s : State) (m : AntMeas := {}) : Host.Outcome State Fault Refusal :=
  s.onUnit (coreOk tile core) (s.antRun tile core 5 2 m endBody)

end Sys2Proof.Machine
end

