-- ==== Sys2Proof/Machine/FrontEnd.lean ====
section
/-! DEFINITION. The trigger front end and the combiner (12): sample channels, primitives, Click inputs, conditions, trigger records
and DECISION pins. -/

namespace Sys2Proof.Machine

/-! Primitives (12 R318 to R322). -/

/-- The baseline B of a primitive in 2^-16 units (12 R320). -/
def State.baseline (s : State) (p : Nat) : Int :=
  toSigned 17 (s.rdF (Reg.prim p + 0xC) 0 17) * 65536 + (s.rdF (Reg.prim p + 0x10) 0 16 : Int)

def State.setBaseline (s : State) (p : Nat) (b : Int) : State :=
  (s.wr (Reg.prim p + 0xC) (BitVec.ofNat 32 (ofSigned 17 (b / 65536)))).wr (Reg.prim p + 0x10) (BitVec.ofNat 32 (ofSigned 16 b))

def sat17 (x : Int) : Int := max (-65536) (min 65535 x)

/-- The level in use (12 R320). -/
def State.primLevel (s : State) (p ch : Nat) : Int :=
  if bit (s.rd (Reg.prim p)) 29 then
    sat17 (s.baseline p / 65536 + toSigned 17 (s.rdF (Reg.prim p + 8) 0 17))
  else s.sampleVal ch (BitVec.ofNat 16 (s.rdF (Reg.prim p + 4) 0 16))

/-- The interpolated crossing of a fire (12 R321): how many samples before, and 256ths after it. -/
def crossing (l prev y : Int) : Nat × Nat :=
  let d := y - prev
  let q := ((256 * (l - prev) + d / 2) / d).toNat
  if q < 256 then (1, q) else (0, 0)

/-- The time of day of the strobe of a tick: as kept when it struck; for a tick before a new count began, as long before this tick's strobe
as its distance in ticks. -/
def State.strobeTod (s : State) (n : W32) : Nat :=
  match s.fe.strobes.reverse.find? (fun (e : W32 × Nat) => e.1 == n) with
  | some e => e.2
  | none => s.todIn 0 - (tickDiff s.tickId n).toNat * (s.cTick / 2) * 5 * s.inc / 8

def State.addPulse (s : State) (c : Nat) (x : Pulse) : State := { s with fe.pulses := s.fe.pulses ++ [(c, x)] }

/-- A fire reaches the combiner 12 SAMPLE cycles after its sample's entry, plus DLY (12 R322). -/
def State.fire (s : State) (p ch : Nat) (n : W32) (j : Nat) (l prev y : Int) : State :=
  let (back, q) := crossing l prev y
  let s := s.wrapBy (Reg.prim p + 0x14) 1
  let t := s.strobeTod n + 2 ^ s.decim ch * (256 * (j - back) + q) * 5 * 2 ^ 22 - (if j < back then 2 ^ s.decim ch * 256 * 5 * 2 ^ 22 else 0)
  s.addPulse (s.sampleNow + 12 + s.rdF (Reg.prim p) 8 8)
    { input := p, event := n, stamp := stampOf t, fallback := false, gap := false }

/-- One step of Table 12.2 for a processed sample (12 R318 to R321). -/
def State.primStep (s : State) (p ch : Nat) (n : W32) (j : Nat) (x : Int) : State :=
  let cfg := s.rd (Reg.prim p)
  let s := if bit cfg 29 && SMap.get 0 s.fe.based p == 0 then
      { (s.setBaseline p (x * 65536)) with fe.based := SMap.set 0 s.fe.based p 1 } else s
  let l := s.primLevel p ch
  let h : Int := s.rdF (Reg.prim p + 4) 16 16
  let sgn : Int := if bit cfg 30 then -1 else 1
  let y := sgn * x
  let ly := sgn * l
  let armed := bit (s.rd (Reg.prim p + 0x1C)) 31
  let prev := SMap.get 0 s.fe.prev p
  let setPrev := fun (t : State) => { t with fe.prev := SMap.set 0 t.fe.prev p y }
  let show' := fun (t : State) (a : Bool) =>
    t.wr (Reg.prim p + 0x1C) (BitVec.ofNat 32 (if a then 2 ^ 31 else 0))
  let s :=
    if armed then
      (if ly ≤ y then (show' s false).fire p ch n j ly prev y else setPrev (show' s true))
    else if y ≤ ly - h then setPrev (show' s true)
    else show' s false
  if bit cfg 29 && !bit cfg 28 && decide (y ≤ ly - h) then
    let b := s.baseline p
    s.setBaseline p (b + (x * 65536 - b) / 2 ^ s.rdF (Reg.prim p + 8) 28 4)
  else s

/-- A filled sample (12 R319). -/
def State.primSkip (s : State) (p : Nat) : State :=
  (s.bump (Reg.prim p + 0x18)).wr (Reg.prim p + 0x1C) (setBit (s.rd (Reg.prim p + 0x1C)) 31 false)

/-- The values of a PRIM_SET (12 R332): state and baseline are kept. -/
def State.applyPrim (s : State) (x : PrimSet) : State :=
  (((s.wr (Reg.prim x.unit) (setBit (s.rd (Reg.prim x.unit)) 28 x.freeze)).wr (Reg.prim x.unit + 4) x.level).wr
    (Reg.prim x.unit + 8) x.adapt)

/-- Applies the PRIM_SETs of some units that hold for event `n`, in the order of their strobes. -/
def State.primSetsFor (s : State) (n : W32) (mine : Nat → Bool) : State :=
  let due := fun (x : PrimSet) => mine x.unit && tickReached n x.strobe
  (sortBy (fun (a b : PrimSet) => tickReached b.strobe a.strobe) (s.fe.primSets.filter due)).foldl State.applyPrim
    { s with fe.primSets := s.fe.primSets.filter (fun x => !due x) }

/-- The enabled primitives of a channel. -/
def State.primsOf (s : State) (ch : Nat) : List Nat :=
  (List.range 512).filterMap (fun i =>
    let p := 512 * (ch / 256) + i
    let w := s.rd (Reg.prim p)
    if bit w 31 && fld w 16 10 == ch then some p else none)

/-- SAMPLE_ENTRY (12 R317 to R319): sample `j` of the event whose window holds it in this tick. Its code comes from the frames
received; one whose bytes are absent, late or unrecoverable is filled. -/
def State.sampleEntry (s : State) (ch j : Nat) : State :=
  let cfg := s.rd (Reg.sch ch)
  let half := max 1 (s.cTick / 2)
  let w := s.rdF Reg.feCfg 0 15 + j * 2 ^ s.decim ch
  let n := s.tickId - BitVec.ofNat 32 (s.rdF Reg.feCfg 24 4 + w / half)
  let c := s.tod.tickFab / 2 + w % half
  if !bit cfg 31 || decide (s.perEvent ch ≤ j) || decide (c < SMap.get 0 s.fe.entered ch) || !s.reach (2 * c) then s
  else
    let s := { (s.atFab (2 * c)) with fe.entered := SMap.set 0 s.fe.entered ch (c + 1) }
    let ps := s.primsOf ch
    let s := s.primSetsFor n (fun u => ps.elem u)
    let g := fld cfg 21 6
    let st := fld cfg 13 8
    match s.payloadBytes g st n (s.rdF (Reg.sch ch + 4) 0 15 + 2 * j) 2 with
    | .ok bs =>
      let v : W16 := BitVec.ofNat 16 (ofBytesLE bs)
      let s := ps.foldl (fun t p => t.primStep p ch n j (t.sampleVal ch v)) s
      (s.captureSample ch n j v false).changeIntake ch ⟨n, j, v, false, c⟩
    | .error late =>
      let s := s.noteStream g st n (fun e => { e with filled := true, late := e.late || late })
      let s := if late then s.raiseFrame Code.frameLate g st n n else s
      let s := if SMap.get 0 s.fe.filledEv ch = n.toNat + 1 then s
               else { (s.bump (Reg.sch ch + 8)) with fe.filledEv := SMap.set 0 s.fe.filledEv ch (n.toNat + 1) }
      let s := ps.foldl (fun t p => t.primSkip p) s
      let s := if ps.isEmpty then s else s.raise Code.feSkip { die := Die.edge (ch / 256), unit := ch } n 0
      (s.captureSample ch n j 0 true).changeIntake ch ⟨n, j, 0, true, c⟩

def execSampleEntry (ch j : Nat) (s : State) : Host.Outcome State Fault Refusal :=
  s.onUnit (decide (ch < 1024 ∧ j < 32768)) (if s.hubOn then s.sampleEntry ch j else s)

/-- PRIM_SET_STROBE (12 R332): the values of strobes whose samples alone enter from now on. -/
def State.primSetStrobe (s : State) : State :=
  s.primSetsFor (s.tickId - BitVec.ofNat 32 (s.rdF Reg.feCfg 24 4 + (if s.rdF Reg.feCfg 0 15 = 0 then 0 else 1))) (fun _ => true)

def execPrimSetStrobe (s : State) : Host.Outcome State Fault Refusal := s.done s.primSetStrobe

/-! Click units (12 R323, R324). -/

/-- CLICK_EDGE (12 R323): a selected edge outside the dead time is accepted, and reaches the combiner 10 SAMPLE cycles after its
capture cycle plus DLY. At a relay standby the edge is the one its primary relays (16 R416). -/
def State.clickEdge (s : State) (u : Nat) (rising : Bool) (cyc fine : Nat) : State :=
  let cfg := s.rd (Reg.click u)
  let a := Reg.click u
  if !bit cfg 31 || nbit s.fe.calBusy u || !bit cfg (if rising then 29 else 30) then s
  else
    let s := s.atCycle (2 * cyc)
    let c := s.sampleNow
    let last := SMap.get 0 s.fe.clickLast u
    if 0 < last ∧ c ≤ last - 1 + s.rdF (a + 4) 0 16 then
      (s.bump (a + 0xC)).raiseNow Code.clickDrop { die := Die.edge (u / 16), unit := u } 0
    else
      let f := if bit (s.rd (a + 0x18)) 31 || s.relayStandby then fine else 0
      let x := stampOf (s.todIn (5 * f))
      let s := { (s.wrapBy (a + 8) 1) with fe.clickLast := SMap.set 0 s.fe.clickLast u (c + 1) }
      let s := (s.wr (a + 0x10) s.tickId).wr (a + 0x14)
        (BitVec.ofNat 32 ((if rising then 0 else 2 ^ 31) + cyc % 2 ^ 15 * 2 ^ 16 + f))
      let s := s.addPulse (c + 10 + fld cfg 8 8)
        { input := 0x800 + u, event := s.tickId, stamp := x, fallback := false, gap := false }
      let s := if s.relayPrimary then { s with twin.relayed := s.twin.relayed ++ [.edge u rising cyc f] } else s
      if bit cfg 28 then s.edgeRecord u (!rising) x else s

def execClickEdge (u : Nat) (rising : Bool) (cyc fine : Nat) (s : State) : Host.Outcome State Fault Refusal :=
  s.onUnit (decide (u < 64 ∧ cyc < s.cTick / 2 ∧ fine < 512)) (if s.hubOn then s.clickEdge u rising cyc fine else s)

/-- Whether a calibration passes (12 R324). -/
def calOk (r : CalResult) : Bool := !r.emptyTap && decide (400 ≤ r.taps ∧ r.taps ≤ 600)

/-- The results of a calibration: CAL_OK, TAPS and CLICK_CAL_FAIL. -/
def State.calResults (s : State) (rs : List CalResult) : State :=
  rs.foldl (fun t r =>
    let t := t.wr (Reg.click r.unit + 0x18) (BitVec.ofNat 32 ((if calOk r then 2 ^ 31 else 0) + min r.taps 1023))
    if calOk r then t else t.raiseNow Code.clickCalFail { die := Die.edge (r.unit / 16), unit := r.unit } (min r.taps 1023)) s

def calMask (rs : List CalResult) : Nat := natOf 64 (fun u => rs.any (fun r => r.unit == u))
def calFailed (rs : List CalResult) : Nat := natOf 64 (fun u => rs.any (fun r => r.unit == u && !calOk r))

/-- CLICK_CAL_DONE (12 R324): the outstanding calibration of just these units ends. -/
def State.clickCalDone (s : State) (rs : List CalResult) : State :=
  let m := calMask rs
  if s.host.async.any (fun a => a.opcode == Op.clickCal && a.mask == m) then
    let s := { (s.calResults rs) with fe.calBusy := natOf 64 (fun u => nbit s.fe.calBusy u && !nbit m u) }
    s.complete (fun a => a.opcode == Op.clickCal && a.mask == m) Status.ok (wordsLE 2 (calFailed rs))
  else s

def execClickCalDone (res : List CalResult) (s : State) : Host.Outcome State Fault Refusal :=
  s.onUnit (res.all (fun r => decide (r.unit < 64))) (s.clickCalDone res)

/-! The combiner (12 R325 to R331). -/

/-- Whether an id names an input (12 Table 12.5). -/
def inputOk (i : Nat) : Bool := decide (i < 0x840 ∨ (0x900 ≤ i ∧ i < 0xA10))

/-- The register that holds DLY and STRETCH of an input. -/
def gateReg (i : Nat) : Nat :=
  if i < 0x800 then Reg.prim i else if i < 0x900 then Reg.click (i - 0x800)
  else if i < 0xA00 then Reg.dbCfg (i - 0x900) else Reg.tbCfg (i - 0xA00)

def State.inputDly (s : State) (i : Nat) : Nat := s.rdF (gateReg i) 8 8
def State.inputStretch (s : State) (i : Nat) : Nat := s.rdF (gateReg i) 0 8

def LastPulse.none' : LastPulse := ⟨0, false, false⟩
def State.lastPulse (s : State) (i : Nat) : LastPulse := SMap.get LastPulse.none' s.fe.last i

/-- Whether an input pulsed in one of the cycles c − k to c. -/
def State.pulsedWithin (s : State) (i c k : Nat) : Bool :=
  let l := (s.lastPulse i).cyc
  decide (0 < l ∧ c ≤ l - 1 + k)

/-- The members of a condition in use: (input, veto). -/
def State.members (s : State) (c : Nat) : List (Nat × Bool) :=
  (List.range 16).filterMap (fun m =>
    let w := s.rdF (Reg.condMem c (m / 2)) (16 * (m % 2)) 16
    if nbit w 15 then some (w % 4096, nbit w 14) else none)

def State.counting (s : State) (c : Nat) : List Nat := (((s.members c).filter (fun m => !m.2)).map (·.1)).eraseDups

/-- What a condition does in cycle `c`: nothing, held by HOLDOFF, or met, with the completing input and whether decision bits that
completed or gated it carry GAP and FALLBACK. -/
inductive CondResult where
  | no
  | held
  | met (src : Nat) (gap fallback : Bool)
  deriving DecidableEq, Repr

def State.evalCond (s : State) (k c : Nat) (now : List Nat) : CondResult :=
  let cfg := s.rd (Reg.cond k)
  let cs := s.counting k
  let comp := cs.filter (fun i => now.elem i)
  if !bit cfg 31 || comp.isEmpty || (s.members k).any (fun m => m.2 && s.pulsedWithin m.1 c (s.inputStretch m.1)) then .no
  else
    let win := cs.filter (fun i => s.pulsedWithin i c (fld cfg 0 12))
    let holds := match fld cfg 28 3 with
      | 0 => cs.all (fun i => s.pulsedWithin i c (s.inputStretch i))
      | 1 => true
      | 2 => win.length == cs.length
      | 3 => decide (fld cfg 23 4 + 1 ≤ win.length)
      | _ => false
    if !holds then .no
    else
      let last := SMap.get 0 s.fe.condMet k
      if 0 < last ∧ c ≤ last - 1 + s.rdF (Reg.cond k + 4) 0 16 then .held
      else
        let parts := (match fld cfg 28 3 with
          | 0 => cs
          | 1 => comp
          | _ => win).filter (fun i => decide (0x900 ≤ i ∧ i < 0xA00))
        .met (comp.foldl min 0xFFF) (parts.any (fun i => (s.lastPulse i).gap)) (parts.any (fun i => (s.lastPulse i).fallback))

/-- Applies the COND_SETs and TRIG_ENABLEs whose strobe has come, in the order of their strobes (12 R332). -/
def State.condSetStrobe (s : State) : State :=
  let due := fun (x : CondSet) => tickReached s.tickId x.strobe
  (sortBy (fun (a b : CondSet) => tickReached b.strobe a.strobe) (s.fe.condSets.filter due)).foldl
    (fun t x => (t.wr (Reg.cond x.cond) (setFld (setFld (t.rd (Reg.cond x.cond)) 23 4 x.nM1) 0 12 x.wM1)).wr (Reg.cond x.cond + 4)
      (BitVec.ofNat 32 x.holdoff))
    { s with fe.condSets := s.fe.condSets.filter (fun x => !due x) }

/-- The number after one (12 R329). -/
def nextNum (n : W32) : W32 := if n = 0xFFFFFFFF then 1 else n + 1

/-- Gives the records that form numbers from NEXT on: those of cycles before the strobe that loads TRIG_NUM keep the old count. -/
def State.fixNumbers (s : State) : State :=
  s.fe.forming.foldl (fun t r =>
    match r.num with
    | some _ => { t with fe.forming := t.fe.forming ++ [r] }
    | none =>
      let n := t.rd Reg.trigNum
      { (t.wr Reg.trigNum (nextNum n)) with fe.forming := t.fe.forming ++ [{ r with num := some n }] })
    { s with fe.forming := [] }

def State.trigEnableStrobe (s : State) : State :=
  let due := fun (x : W32 × Bool × Option W32) => tickReached s.tickId x.1
  (sortBy (fun (a b : W32 × Bool × Option W32) => tickReached b.1 a.1) (s.fe.trigSets.filter due)).foldl
    (fun t (x : W32 × Bool × Option W32) =>
      let t := t.wr Reg.trigCtrl (if x.2.1 then 0x80000000 else 0)
      match x.2.2 with
      | some n => t.fixNumbers.wr Reg.trigNum n
      | none => t)
    { s with fe.trigSets := s.fe.trigSets.filter (fun x => !due x) }

def execCondSetStrobe (s : State) : Host.Outcome State Fault Refusal := s.done s.condSetStrobe
def execTrigEnableStrobe (s : State) : Host.Outcome State Fault Refusal := s.done s.trigEnableStrobe

/-- The launch cycle of the slot that takes a condition met in `c` (14 R363): the first launch at or after c + 10. -/
def State.launchFor (s : State) (c : Nat) : Option Nat :=
  s.bus.gridAt.map (fun g => if c + 10 ≤ g then g - (g - (c + 10)) / 8 * 8 else g + ceilDiv (c + 10 - g) 8 * 8)

/-- The contribution of conditions met to the trigger-bus word (14 R363): each condition of TX_MAP[b] sets bit b of its slot, and
counts as merged where the bit is set already. -/
def State.busMet (s : State) (c : Nat) (met : List Nat) : State :=
  if !bit (s.rd Reg.busCfg) 31 then s
  else match s.launchFor c with
    | none => s
    | some l =>
      (List.range 16).foldl (fun t b =>
        let m := (t.rd (Reg.txMap b 0)).toNat + (t.rd (Reg.txMap b 1)).toNat * 2 ^ 32
        (met.filter (nbit m)).foldl (fun u _ =>
          if u.bus.due.elem (b, l) then u.bump Reg.busTxMerged else { u with bus.due := u.bus.due ++ [(b, l)] }) t) s

/-- The conditions met in a cycle, with the results of each. -/
structure MetCond where
  k : Nat
  src : Nat
  gap : Bool
  fallback : Bool

/-- Poisoned decision bits that reach conditions in use are consumed there (07 R201); the bits stand at no address: a free
value (log 36). -/
def State.consumePulses (s : State) (here : List Pulse) : State :=
  (here.filter (fun p => p.poison && (List.range 64).any (fun k =>
    bit (s.rd (Reg.cond k)) 31 && (s.members k).any (fun m => m.1 == p.input)))).foldl
    (fun t p => t.raise Code.poisonConsumed { die := Die.hub, unit := p.input } p.event (detailA (Config.regAddr (2 ^ 21 + p.input)).toNat none 0)) s

/-- COMBINER_PULSE (12 R325 to R331): the pulses of the earliest combiner cycle that waits in this tick are at the combiner, and the
conditions are evaluated in that cycle. -/
def State.combinerPulse (s : State) : State :=
  match s.fe.pulses with
  | [] => s
  | p0 :: ps =>
    let c := ps.foldl (fun m (e : Nat × Pulse) => min m e.1) p0.1
    if !s.reach (2 * c) then s
    else
      let s := (s.atFab (2 * c)).condSetStrobe.trigEnableStrobe
      let here := (s.fe.pulses.filter (fun (e : Nat × Pulse) => e.1 == c)).map (·.2)
      let now := ((here.filter (·.on)).map (·.input)).eraseDups
      let s := { s with fe.pulses := s.fe.pulses.filter (fun (e : Nat × Pulse) => e.1 != c) }
      let s := s.consumePulses here
      let s := now.foldl (fun t i =>
        let mine := here.filter (fun p => p.on && p.input == i)
        { t with fe.last := SMap.set LastPulse.none' t.fe.last i ⟨c + 1, mine.any (·.gap), mine.any (·.fallback)⟩ }) s
      let (s, met) := (List.range 64).foldl (fun (a : State × List MetCond) k =>
        match a.1.evalCond k c now with
        | .no => a
        | .held => (a.1.bump (Reg.cond k + 0x2C), a.2)
        | .met src gap fb =>
          let t := ((a.1.wrapBy (Reg.cond k + 0x28) 1).wr (Reg.cond k + 0x30) a.1.tickId)
          ({ t with fe.condMet := SMap.set 0 t.fe.condMet k (c + 1) }, a.2 ++ [⟨k, src, gap, fb⟩])) (s, [])
      let ks := met.map (·.k)
      let s := (List.range 8).foldl (fun t j =>
        let m := (t.rd (Reg.dec j + 4)).toNat + (t.rd (Reg.dec j + 8)).toNat * 2 ^ 32
        if bit (t.rd (Reg.dec j)) 31 && ks.any (nbit m) then { t with fe.drives := t.fe.drives ++ [(j, c + 14)] } else t) s
      let s := s.busMet c ks
      let trig := met.filter (fun m => bit (s.rd (Reg.cond m.k)) 27)
      match trig with
      | [] => s
      | m :: _ =>
        if !bit (s.rd Reg.trigCtrl) 31 then s
        else
          let src := (here.find? (fun p => p.on && p.input == m.src)).getD
            { input := m.src, event := s.tickId, stamp := ⟨0, 0, 0⟩, fallback := false, gap := false }
          let r : TrigRec :=
            { cyc := c, num := none, tick := s.tickId, mask := natOf 64 (fun i => trig.any (fun x => x.k == i)), stamp := src.stamp,
              primary := m.k, srcId := m.src,
              srcDt := if 0xA00 ≤ m.src then 0 else (s.tickId - src.event).toNat % 256,
              gap := trig.any (·.gap), fallback := trig.any (·.fallback), holdover := s.holdover }
          { s with fe.forming := s.fe.forming ++ [r] }

def execCombinerPulse (s : State) : Host.Outcome State Fault Refusal := s.done (if s.hubOn then s.combinerPulse else s)

/-- The tick summary of R330: the lowest number of the tick, and the OR of its masks. -/
def State.summarize (s : State) (r : TrigRec) (n : W32) : State :=
  if s.fe.summaries.any (fun (e : W32 × W32 × Nat) => e.1 == r.tick) then
    { s with fe.summaries := s.fe.summaries.map (fun (e : W32 × W32 × Nat) =>
        if e.1 = r.tick then (e.1, (if n.toNat < e.2.1.toNat then n else e.2.1), Nat.lor e.2.2 r.mask) else e) }
  else { s with fe.summaries := s.fe.summaries ++ [(r.tick, n, r.mask)] }

/-- TRIGGER_RECORD (12 R329, R330): the record of the earliest combiner cycle forms at c + 7, takes its number, and goes to the tick
summary, the ACCEPT queues and the acquisition groups. -/
def State.triggerRecord (s : State) : State :=
  match s.fe.forming with
  | [] => s
  | r :: rest =>
    if !s.reach (2 * (r.cyc + 7)) then s
    else
      let s := { (s.atFab (2 * (r.cyc + 7))) with fe.forming := rest }
      let n := r.num.getD (s.rd Reg.trigNum)
      let s := if r.num.isSome then s else s.wr Reg.trigNum (nextNum n)
      let s := s.wrapBy Reg.trigCount 1
      let r := { r with num := some n }
      let s := { s with fe.records := s.fe.records ++ [(s.tickId, r)] }
      let s := ((s.summarize r n).queueAccepts r.tick n).deliverTrig r
      (List.range 64).foldl (fun t g => t.tryOff g) s

def execTriggerRecord (s : State) : Host.Outcome State Fault Refusal := s.done (if s.hubOn then s.triggerRecord else s)

/-- Whether a DECISION pin drives its active level. -/
def State.pinActive (s : State) (j : Nat) : Bool := SMap.get 0 s.fe.decUntil j != 0

/-- DECISION_DRIVE (12 R331): the earliest drive of the pin begins; one that finds the pin active restarts WIDTH and counts. -/
def State.decisionDrive (s : State) (j : Nat) : State :=
  match s.fe.drives.find? (fun (e : Nat × Nat) => e.1 == j) with
  | none => s
  | some e =>
    let d := e.2
    if !s.reach (2 * d) then s
    else
      let s := { (s.atFab (2 * d)) with fe.drives := s.fe.drives.erase e }
      let s := if d < SMap.get 0 s.fe.decUntil j then s.bump (Reg.dec j + 0xC) else s
      { s with fe.decUntil := SMap.set 0 s.fe.decUntil j (d + s.rdF (Reg.dec j) 0 16) }

def execDecisionDrive (j : Nat) (s : State) : Host.Outcome State Fault Refusal :=
  s.onUnit (decide (j < 8)) (if s.hubOn then s.decisionDrive j else s)

/-- DECISION_RELEASE (12 R331): WIDTH expires. -/
def State.decisionRelease (s : State) (j : Nat) : State :=
  let d := SMap.get 0 s.fe.decUntil j
  if d = 0 ∨ !s.reach (2 * d) ∨ s.fe.drives.any (fun (e : Nat × Nat) => e.1 == j && decide (e.2 ≤ d)) then s
  else { (s.atFab (2 * d)) with fe.decUntil := SMap.set 0 s.fe.decUntil j 0 }

def execDecisionRelease (j : Nat) (s : State) : Host.Outcome State Fault Refusal :=
  s.onUnit (decide (j < 8)) (if s.hubOn then s.decisionRelease j else s)

/-- Decision bits that entered their line in FAB cycle `f`: they reach the combiner 8 FAB cycles later, on a SAMPLE edge, plus DLY;
a 0 bit gives no pulse (12 R325, R326; 03 R87). A bit of `marks` is poisoned, and goes to the conditions that it enters whatever its value
(07 R201). -/
def State.decisionBits (s : State) (base bits marks f : Nat) (event : W32) (fallback gap : Bool) : State :=
  (List.range 8).foldl (fun t b =>
    if (nbit bits b ∨ nbit marks b) ∧ base + b < 256 then
      t.addPulse (ceilDiv (f + 8) 2 + t.inputDly (0x900 + base + b))
        { input := 0x900 + base + b, event := event, stamp := stampOf (t.strobeTod event), fallback := fallback, gap := gap,
          poison := nbit marks b, on := nbit bits b }
    else t) s

/-! Commands (12 R316, R317, R322, R324, R327, R332). -/

/-- A channel that FE_CONFIG accepts under its FE_DELAY (12 R316, R317). -/
def State.channelOk (s : State) (ch : Nat) : Bool :=
  let w := s.rd (Reg.sch ch)
  let g := fld w 21 6
  !bit w 31 ||
  (decide (fld w 27 3 ≤ 4 ∧ s.cTick / 2 % 2 ^ fld w 27 3 = 0) && !(s.grpLanes g).isEmpty &&
   (s.grpLanes g).all (fun n => s.laneMode n == 2 && n / 36 == ch / 256) &&
   (match s.expected g (fld w 13 8) with
    | some e => decide (0 ≤ e)
    | none => true))

/-- FE_CONFIG's effect: FE_DELAY and the channels named. -/
def State.feConfigure (s : State) (ticks cycle : Nat) (chs : List (Nat × W32 × W32)) : State :=
  chs.foldl (fun t (e : Nat × W32 × W32) => (t.wr (Reg.sch e.1) (setFld e.2.1 0 13 0)).wr (Reg.sch e.1 + 4) (setFld e.2.2 15 17 0))
    (s.wr Reg.feCfg (BitVec.ofNat 32 (ticks * 2 ^ 24 + cycle)))

def execFeConfig (h : Hdr) (ticks cycle : Nat) (chs : List (Nat × W32 × W32)) (s : State) : Host.Outcome State Fault Refusal :=
  s.done (s.serve h Op.feConfig
    (fun s => firstRej
      [ (decide (ticks < 16 ∧ cycle < s.cTick / 2 ∧ chs.length ≤ 1024) && chs.all (fun (e : Nat × W32 × W32) => decide (e.1 < 1024)) &&
          ((s.feConfigure ticks cycle chs).channelOk |> (List.range 1024).all), rej Status.valueRange) ])
    (fun s => { st := s.feConfigure ticks cycle chs }))

/-- PRIM_CONFIG (12 R318, R322): a unit starts Disarmed, its baseline not set. -/
def State.primConfigure (s : State) (e : Nat × W32 × W32 × W32) : State :=
  let p := e.1
  let s := ((s.wr (Reg.prim p) (setFld e.2.1 26 2 0)).wr (Reg.prim p + 4) e.2.2.1).wr (Reg.prim p + 8) (setFld e.2.2.2 17 11 0)
  { (s.wr (Reg.prim p + 0x1C) 0) with
      fe.based := SMap.set 0 s.fe.based p 0, fe.prev := SMap.set 0 s.fe.prev p 0,
      fe.primSets := s.fe.primSets.filter (fun x => x.unit != p) }

def execPrimConfig (h : Hdr) (ents : List (Nat × W32 × W32 × W32)) (s : State) : Host.Outcome State Fault Refusal :=
  s.done (s.serve h Op.primConfig
    (fun s => firstRej
      [ (decide (1 ≤ ents.length ∧ ents.length ≤ 64) && ents.all (fun (e : Nat × W32 × W32 × W32) =>
          decide (e.1 < 2048) && decide (1 ≤ fld e.2.2.1 16 16) && fld e.2.1 16 10 / 256 == e.1 / 512 &&
          bit (s.rd (Reg.sch (fld e.2.1 16 10))) 31), rej Status.valueRange) ])
    (fun s => { st := ents.foldl State.primConfigure s }))

/-- PRIM_SET (12 R332). -/
def execPrimSet (h : Hdr) (st : W32) (ents : List (Nat × Bool × W32 × W32)) (s : State) : Host.Outcome State Fault Refusal :=
  s.done (s.serve h Op.primSet
    (fun s => firstRej
      [ (s.strobeOk st, rej Status.valueRange)
      , (decide (1 ≤ ents.length ∧ ents.length ≤ 64) && ents.all (fun (e : Nat × Bool × W32 × W32) =>
          decide (e.1 < 2048 ∧ 1 ≤ fld e.2.2.1 16 16)), rej Status.valueRange) ])
    (fun s => { st := { s with fe.primSets := s.fe.primSets ++ ents.map (fun (e : Nat × Bool × W32 × W32) =>
                          (⟨s.strobeOf st, e.1, e.2.1, e.2.2.1, setFld e.2.2.2 17 11 0⟩ : PrimSet)) },
                out := [s.strobeOf st] }))

/-- CLICK_CONFIG (12 R323). -/
def execClickConfig (h : Hdr) (ents : List (Nat × W32 × W32)) (s : State) : Host.Outcome State Fault Refusal :=
  s.done (s.serve h Op.clickConfig
    (fun _ => firstRej
      [ (decide (1 ≤ ents.length ∧ ents.length ≤ 64) && ents.all (fun (e : Nat × W32 × W32) =>
          decide (e.1 < 64 ∧ 2 ≤ fld e.2.2 0 16) && (!bit e.2.1 31 || fld e.2.1 29 2 != 0)), rej Status.valueRange) ])
    (fun s => { st := ents.foldl (fun t (e : Nat × W32 × W32) =>
        (t.wr (Reg.click e.1) (setFld e.2.1 16 12 0)).wr (Reg.click e.1 + 4) (setFld e.2.2 16 16 0)) s }))

/-- CLICK_CAL (12 R324): CAL_OK and TAPS of the units clear, and their edges are not captured. -/
def execClickCal (h : Hdr) (mask : Nat) (s : State) : Host.Outcome State Fault Refusal :=
  s.done (s.serve h Op.clickCal
    (fun s => firstRej
      [ (decide (mask < 2 ^ 64), rej Status.valueRange)
      , (decide (Nat.land mask s.fe.calBusy = 0), rej Status.resourceBusy)
      , (decide (s.shedStage = 0), rej Status.shedActive s.shedStage) ])
    (fun s => { st := { (s.wrs ((bitsOf mask 64).map (fun u => (Reg.click u + 0x18, 0)))) with fe.calBusy := Nat.lor s.fe.calBusy mask },
                mask := mask }))

/-- Whether a condition in use keeps R327: a counting member, N within them, a defined TYPE and defined inputs. -/
def State.condOk (s : State) (k : Nat) : Bool :=
  let w := s.rd (Reg.cond k)
  !bit w 31 ||
  (decide (fld w 28 3 ≤ 3) && !(s.counting k).isEmpty && (s.members k).all (fun m => inputOk m.1) &&
   (fld w 28 3 != 3 || decide (fld w 23 4 + 1 ≤ (s.counting k).length)))

def State.combConfigure (s : State) (pairs : List (Nat × W32)) : State :=
  pairs.foldl (fun t (e : Nat × W32) =>
    match combMask e.1 with
    | some m => t.wr (Reg.comb + e.1) (e.2 &&& BitVec.ofNat 32 m)
    | none => t) s

def execCombConfig (h : Hdr) (pairs : List (Nat × W32)) (s : State) : Host.Outcome State Fault Refusal :=
  s.done (s.serve h Op.combConfig
    (fun s =>
      let t := s.combConfigure pairs
      firstRej
      [ (decide (1 ≤ pairs.length ∧ pairs.length ≤ 2045) && pairs.all (fun (e : Nat × W32) => (combMask e.1).isSome), rej Status.valueRange)
      , ((List.range 64).all t.condOk && (List.range 8).all (fun j => t.rdF (Reg.dec j) 0 16 != 0), rej Status.valueRange) ])
    (fun s => { st := s.combConfigure pairs }))

/-- COND_SET (12 R327, R332). -/
def execCondSet (h : Hdr) (st : W32) (ents : List (Nat × Nat × Nat × Nat)) (s : State) : Host.Outcome State Fault Refusal :=
  s.done (s.serve h Op.condSet
    (fun s => firstRej
      [ (s.strobeOk st, rej Status.valueRange)
      , (decide (1 ≤ ents.length ∧ ents.length ≤ 64) && ents.all (fun (e : Nat × Nat × Nat × Nat) =>
          decide (e.1 < 64 ∧ e.2.1 < 4096 ∧ e.2.2.1 < 16 ∧ e.2.2.2 < 65536) &&
          (let w := s.rd (Reg.cond e.1)
           !bit w 31 || fld w 28 3 != 3 || decide (e.2.2.1 + 1 ≤ (s.counting e.1).length))), rej Status.valueRange) ])
    (fun s => { st := { s with fe.condSets := s.fe.condSets ++ ents.map (fun (e : Nat × Nat × Nat × Nat) =>
                          (⟨s.strobeOf st, e.1, e.2.1, e.2.2.1, e.2.2.2⟩ : CondSet)) },
                out := [s.strobeOf st] }))

/-- TRIG_ENABLE (12 R332): disabling alone is legal in Halted. -/
def execTrigEnable (h : Hdr) (st : W32) (en : Bool) (num : Option W32) (s : State) : Host.Outcome State Fault Refusal :=
  s.done (s.serve h Op.trigEnable
    (fun s => firstRej
      [ (!(s.dev.state == .halted && en), rej Status.stateIllegal)
      , (s.strobeOk st, rej Status.valueRange)
      , (num != some 0, rej Status.valueRange) ])
    (fun s => { st := { s with fe.trigSets := s.fe.trigSets ++ [(s.strobeOf st, en, num)] }, out := [s.strobeOf st] }))

end Sys2Proof.Machine
end

