-- ==== Sys2Proof/Machine/BusTime.lean ====
section
/-! DEFINITION. The trigger bus and network time (14). -/

namespace Sys2Proof.Machine

/-! The trigger bus (14 R354 to R365). -/

def State.lSys (s : State) : Nat := s.rdF Reg.busCfg 0 9
def State.busState (s : State) : Nat := s.rdF Reg.busStat 30 2
def State.setBusState (s : State) (v : Nat) : State := s.wrF Reg.busStat 30 2 v
def syncWord : W16 := 0xC5A3

/-- BUS_CONFIG (14 Table 14.5): a relay standby's OUT_EN is held clear (16 R416). -/
def execBusConfig (h : Hdr) (master : Bool) (outEn inEn : Nat) (s : State) : Host.Outcome State Fault Refusal :=
  s.done (s.serve h Op.busConfig
    (fun _ => firstRej [(decide (outEn < 2 ∧ inEn < 2), rej Status.valueRange)])
    (fun s =>
      let w := setBit (s.rd Reg.busCfg) 31 (outEn == 1 && !s.relayStandby)
      { st := s.wr Reg.busCfg (setBit (setBit w 30 (inEn == 1)) 29 master) }))

/-- BUS_CAL (14 R359): `busy` names the input lines that carried a one within 1,024 SAMPLE cycles; with IN_EN clear none counts (14 R355). A
part without a launch grid takes one from the command's cycle (log 24). -/
def execBusCal (h : Hdr) (busy : Nat) (s : State) : Host.Outcome State Fault Refusal :=
  s.done (s.serve h Op.busCal
    (fun s => firstRej
      [ (!s.bus.calibrating, rej Status.resourceBusy)
      , (!bit (s.rd Reg.busCfg) 30 || decide (busy % 256 = 0), rej Status.busNotQuiet (busy % 256)) ])
    (fun s => { st := { s with bus.calibrating := true, bus.gridAt := some (s.bus.gridAt.getD s.sampleNow) }.setBusState 1 }))

/-- BUS_CAL_DONE (14 R359): the loops found, by line; a line without one, or outside 9 to 480 cycles, fails, and with IN_EN clear
every line. The bus is Off again until BUS_ALIGN (log 24). -/
def State.busCalDone (s : State) (loops : List (Nat × Nat)) : State :=
  let loops := if bit (s.rd Reg.busCfg) 30 then loops else []
  let s := (List.range 8).foldl (fun t k =>
    match loops.find? (fun (e : Nat × Nat) => e.1 == k) with
    | some e =>
      if 144 ≤ e.2 ∧ e.2 ≤ 7680 then t.wr (Reg.busLoop k) (BitVec.ofNat 32 e.2)
      else (t.wr (Reg.busLoop k) 0).raiseNow Code.busCalFail { die := Die.hub, unit := k } 0
    | none => (t.wr (Reg.busLoop k) 0).raiseNow Code.busCalFail { die := Die.hub, unit := k } 0) s
  ({ s with bus.calibrating := false, bus.gridAt := none }.setBusState 0).complete (fun a => a.opcode == Op.busCal) Status.ok []

def execBusCalDone (loops : List (Nat × Nat)) (s : State) : Host.Outcome State Fault Refusal :=
  s.onUnit (loops.all (fun (e : Nat × Nat) => decide (e.1 < 8 ∧ e.2 < 8192))) (if s.bus.calibrating then s.busCalDone loops else s)

/-- The transmit compensation of a line in 1/16 cycles (14 R360). -/
def txComp (lSys l : Nat) (a : Int) : Int := ((16 * lSys : Int) - l - a) / 2

/-- BUS_COMP (14 R360). -/
def execBusComp (h : Hdr) (lSys : Nat) (asym : List Int) (s : State) : Host.Outcome State Fault Refusal :=
  s.done (s.serve h Op.busComp
    (fun s => firstRej
      [ (decide (lSys < 512 ∧ asym.length = 8) && asym.all (fun a => decide (-128 ≤ a ∧ a ≤ 127)) &&
          (List.range 8).all (fun k =>
            let l := (s.rd (Reg.busLoop k)).toNat
            decide (l ≠ 0 ∧ ((asym.getD k 0).natAbs : Int) ≤ (16 * lSys : Int) - l)), rej Status.valueRange) ])
    (fun s => { st := (List.range 8).foldl (fun t k =>
        let l := (s.rd (Reg.busLoop k)).toNat
        let a := asym.getD k 0
        let tx := (txComp lSys l a).toNat
        let rx := 16 * lSys - l - tx
        (t.wr (Reg.busTxc k) (BitVec.ofNat 32 (ofSigned 8 a * 2 ^ 16 + tx))).wr (Reg.busRxc k) (BitVec.ofNat 32 rx)) (s.wrF Reg.busCfg 0 9 lSys) }))

/-- BUS_ALIGN (14 R361). -/
def execBusAlign (h : Hdr) (s : State) : Host.Outcome State Fault Refusal :=
  s.done (s.serve h Op.busAlign noCheck
    (fun s => { st := if bit (s.rd Reg.busCfg) 29 then { s with bus.masterWaits := true }
                      else { s with bus.alignFrom := some s.tod.fab, bus.good := 0, bus.bad := 0, bus.last := none } }))

/-- The strobe after a master's BUS_ALIGN starts the launch grid (14 R357). -/
def State.busStrobe (s : State) : State :=
  if s.bus.masterWaits then
    let s := { s with bus.masterWaits := false, bus.gridAt := some (s.tod.tickFab / 2), bus.good := 0, bus.bad := 0 }
    (s.setBusState 2).complete (fun a => a.opcode == Op.busAlign) Status.ok []
  else s

/-- The offset, in SAMPLE cycles, between a slot's fields and the part's own count at the slot's launch cycle. -/
def State.busOffset (s : State) (x : Nat) (d : BusSlot) : Int :=
  let y := x - s.lSys
  tickDiff d.tick (s.tickOf y) * ((s.cTick / 2 : Nat) : Int) + (d.phase : Int) - (s.cycIn y : Int)

/-- Whether TICK_ID and PHASE of a slot delivered in `x` are each the part's own count at the slot's launch cycle (14 R361, R362). -/
def State.busMatches (s : State) (x : Nat) (d : BusSlot) : Bool :=
  d.tick == s.tickOf (x - s.lSys) && d.phase == s.cycIn (x - s.lSys)

/-- Makes local SAMPLE cycle `x` − L_SYS cycle PHASE of tick TICK_ID (14 R361). -/
def State.rephase (s : State) (x : Nat) (d : BusSlot) : State :=
  let half := max 1 (s.cTick / 2)
  let since := s.sampleNow + d.phase + s.lSys - x
  let start := s.sampleNow - since % half
  let n := d.tick + BitVec.ofNat 32 (since / half)
  let tod := s.todIn 0 - (since % half) * 5 * s.inc / 8
  { (s.newCount.wr Reg.tickId n) with tod.tickFab := 2 * start, tick.nextAt := 2 * (start + half), tick.pendingId := none,
                                      fe.strobes := [(n, tod)] }

/-- BUS_ALIGN_DONE (14 R361): a follower that has seen 16 SYNC slots takes the last; without them, once 1 ms has passed, 1,600,000 FAB cycles,
there is no master. -/
def State.busAlignDone (s : State) : State :=
  let fin := fun (t : State) (st : Nat) (out : List W32) =>
    State.complete { t with bus.alignFrom := none } (fun a => a.opcode == Op.busAlign) st out
  match s.bus.alignFrom with
  | none => s
  | some from' =>
    if s.bus.good < 16 ∧ s.tod.fab < from' + 1600000 then s
    else if s.bus.good < 16 then fin s Status.busNoMaster [(rej Status.busNoMaster).detail]
    else match s.bus.last with
      | none => s
      | some (x, d) =>
        let differs := fin s Status.busTickDiffers [(rej Status.busTickDiffers (ofSigned 16 (s.busOffset x d))).detail]
        if d.cTick ≠ s.cTick then differs
        else if bit (s.rd Reg.tickCfg) 31 then
          (if s.busMatches x d then
            fin ({ s with bus.gridAt := some (x - s.lSys), bus.good := 0, bus.bad := 0 }.setBusState 2) Status.ok []
           else differs)
        else
          fin ({ (s.rephase x d) with bus.gridAt := some (x - s.lSys), bus.good := 0, bus.bad := 0 }.setBusState 2) Status.ok []

def execBusAlignDone (s : State) : Host.Outcome State Fault Refusal := s.done s.busAlignDone

/-- BUS_TX_MAP (14 R363). -/
def execBusTxMap (h : Hdr) (ents : List (Nat × W64)) (s : State) : Host.Outcome State Fault Refusal :=
  s.done (s.serve h Op.busTxMap
    (fun _ => firstRej [(decide (1 ≤ ents.length ∧ ents.length ≤ 16) && ents.all (fun (e : Nat × W64) => decide (e.1 < 16)), rej Status.valueRange)])
    (fun s => { st := ents.foldl (fun t (e : Nat × W64) => t.wr64 (Reg.txMap e.1 0) e.2) s }))

/-- The bits of a slot (14 Table 14.1). -/
def slotBits (d : BusSlot) : BitVec 128 :=
  BitVec.ofNat 128 (d.word.toNat + d.sync.toNat * 2 ^ 16 + d.tick.toNat * 2 ^ 32 + d.phase % 2 ^ 15 * 2 ^ 64 + d.cTick % 2 ^ 16 * 2 ^ 79)

/-- The 16 bits that line k carries of a slot, in the order sent: bits 16 c + 2 k and 16 c + 2 k + 1 in SAMPLE cycle c (14 R356). -/
def lineBits (b : BitVec 128) (k : Nat) : Nat := natOf 16 (fun i => b.getLsbD (16 * (i / 2) + 2 * k + i % 2))

/-- The slot that eight lines carry. -/
def slotOfLines (lines : List Nat) : BitVec 128 :=
  BitVec.ofNat 128 (natOf 128 (fun j => nbit (lines.getD (j % 16 / 2) 0) (2 * (j / 16) + j % 2)))

/-- The fields of a slot (14 Table 14.1). -/
def slotFields (b : BitVec 128) : BusSlot :=
  { word := b.extractLsb' 0 16, sync := b.extractLsb' 16 16, tick := b.extractLsb' 32 32, phase := (b.extractLsb' 64 15).toNat,
    cTick := (b.extractLsb' 79 16).toNat }

/-- The two bits that TRIGBUS_OUTk carries in SAMPLE cycle `x`, the first half's first: of the slot launched before, the line's transmit
compensation later, else zeros (14 R354 to R358). -/
def State.trigbusOut (s : State) (x k : Nat) : Bool × Bool :=
  let y := x - (s.rd (Reg.busTxc k)).toNat / 16 % 512
  match s.bus.launched.find? (fun (e : Nat × BitVec 128 × Nat) => decide (e.1 ≤ y ∧ y < e.1 + 8)) with
  | some e => (nbit (lineBits e.2.1 k) (2 * (y - e.1)), nbit (lineBits e.2.1 k) (2 * (y - e.1) + 1))
  | none => (false, false)

/-- The next launch cycle of the grid. -/
def State.nextLaunch (s : State) : Option Nat :=
  s.bus.gridAt.map (fun g =>
    let from' := match s.bus.launched.getLast? with
      | some (l, _, _) => max s.sampleNow (l + 1)
      | none => s.sampleNow
    if from' ≤ g then g - (g - from') / 8 * 8 else g + ceilDiv (from' - g) 8 * 8)

/-- BUS_SLOT_LAUNCH (14 R357, R359, R363): the contribution, with the master's fields; zero with OUT_EN clear (14 R355) or at S6. During BUS_CAL
every eighth position carries a calibration slot and the others zeros. -/
def State.slotLaunch (s : State) : State :=
  match s.nextLaunch with
  | none => s
  | some l =>
    if !s.reach (2 * l) then s
    else
      let s := s.atFab (2 * l)
      let word : W16 := BitVec.ofNat 16 (natOf 16 (fun b => s.bus.due.elem (b, l)))
      let phase := s.inTickCyc l
      let master := bit (s.rd Reg.busCfg) 29
      let d : BusSlot := { word := word, sync := if master then syncWord else 0, tick := if master then s.tickId else 0,
                           phase := if master then phase else 0, cTick := if master then s.cTick else 0 }
      let on := bit (s.rd Reg.busCfg) 31 && decide (s.shedStage < 6)
      let bits : BitVec 128 := if !on then 0 else if s.bus.calibrating then (if l / 8 % 8 = 0 then 0x3C960000 else 0) else slotBits d
      let keep := s.bus.launched.drop (s.bus.launched.length - 127)
      { (s.wrF Reg.busStat 0 15 phase) with
          bus.due := s.bus.due.filter (fun (e : Nat × Nat) => decide (l < e.2)),
          bus.launched := keep ++ [(l, bits, s.todIn 0)] }

def execBusSlotLaunch (s : State) : Host.Outcome State Fault Refusal := s.done (if s.hubOn then s.slotLaunch else s)

/-- Whether a slot delivered in SAMPLE cycle `x` is the one the part's own generator expects (14 R362). -/
def State.slotGood (s : State) (x : Nat) (d : BusSlot) : Bool :=
  d.sync == syncWord && d.cTick == s.cTick && s.busMatches x d

/-- The TB pulses of a word delivered in `x` (14 R364): in x + 2 plus DLY, stamped with the time of day of the slot's launch. -/
def State.tbPulses (s : State) (x : Nat) (w : W16) : State :=
  let t := match s.bus.launched.find? (fun (e : Nat × BitVec 128 × Nat) => e.1 + s.lSys == x) with
    | some e => e.2.2
    | none => s.todIn 0 - s.lSys * 5 * s.inc / 8
  (bitsOf w.toNat 16).foldl (fun u b =>
    u.addPulse (x + 2 + u.inputDly (0xA00 + b))
      { input := 0xA00 + b, event := u.tickId, stamp := stampOf t, fallback := false, gap := false }) s

/-- An aligned part checks a slot (14 R362). -/
def State.slotCheck (s : State) (x : Nat) (d : BusSlot) : State :=
  if s.slotGood x d then
    let s := { s with bus.bad := 0, bus.good := s.bus.good + 1 }
    let s := if s.busState = 3 ∧ 16 ≤ s.bus.good then s.setBusState 2 else s
    s.tbPulses x d.word
  else
    let s := { s with bus.good := 0, bus.bad := s.bus.bad + 1 }
    let s := (s.bump Reg.busSlotErrs).raiseNow Code.busSyncLoss { die := Die.hub } 0
    if s.busState = 2 ∧ 16 ≤ s.bus.bad then (s.setBusState 3).raiseNow Code.busLost { die := Die.hub } 0 else s

/-- A follower that aligns counts the slots in a row that carry SYNC (14 R361). -/
def State.slotAlign (s : State) (x : Nat) (d : BusSlot) : State :=
  { s with bus.good := (if d.sync = syncWord then s.bus.good + 1 else 0), bus.last := some (x, d) }

def State.relaySlot (s : State) (d : BusSlot) : State :=
  if s.relayPrimary then { s with twin.relayed := s.twin.relayed ++ [.slot d] } else s

/-- BUS_SLOT_RECEIVE (14 R361, R362, R364): a slot delivered in SAMPLE cycle `cyc` of this tick. At a relay standby it is the word its
primary relays (16 R416). -/
def State.slotReceive (s : State) (d : BusSlot) (cyc : Nat) : State :=
  let s := s.atCycle (2 * cyc)
  if s.relayStandby then s.tbPulses s.sampleNow d.word
  else if !bit (s.rd Reg.busCfg) 30 then s
  else if s.bus.alignFrom.isSome then (s.relaySlot d).slotAlign s.sampleNow d
  else if s.busState = 2 ∨ s.busState = 3 then (s.relaySlot d).slotCheck s.sampleNow d
  else s.relaySlot d

/-- BUS_SLOT_RECEIVE: `lines` gives the 16 bits that each of TRIGBUS_IN0 to 7 carried of the slot. -/
def execBusSlotReceive (lines : List Nat) (cyc : Nat) (s : State) : Host.Outcome State Fault Refusal :=
  s.onUnit (decide (cyc < s.cTick / 2 ∧ lines.length = 8) && lines.all (fun w => decide (w < 2 ^ 16)))
    (if s.hubOn then s.slotReceive (slotFields (slotOfLines lines)) cyc else s)

/-! Time of day (14 R366 to R369). -/

/-- The counter as replies give it (15 Table 15.9a). -/
def State.timeWords (s : State) : List W32 :=
  [BitVec.ofNat 32 s.tod.sec, BitVec.ofNat 32 (s.tod.sec / 2 ^ 32), BitVec.ofNat 32 s.tod.ns, BitVec.ofNat 32 (s.tod.frac / 256 * 256)]

/-- Loads the counter: a step is counted and reported with the old and new values (14 R367). -/
def State.timeLoad (s : State) (x : Nat) : State :=
  let t := (s.setTod x).wrapBy Reg.timeSteps 1
  t.raiseNow Code.timeStepped { die := Die.hub } (detailT s.tod.ns s.tod.sec t.tod.ns t.tod.sec)

/-- TIME_SET (14 R367). -/
def execTimeSet (h : Hdr) (sec ns : Nat) (s : State) : Host.Outcome State Fault Refusal :=
  s.done (s.serve h Op.timeSet
    (fun _ => firstRej [(decide (sec < 2 ^ 48 ∧ ns < 1000000000), rej Status.valueRange)])
    (fun s => let t := s.timeLoad (todOf sec ns 0)
              { st := t, out := t.timeWords }))

/-- The counter after a step of `off` in 2^-24 ns, in 2^-32 ns. -/
def State.stepped (s : State) (off : W64) : Int := (s.now : Int) + off.toInt * 256

/-- TIME_STEP (14 R367). -/
def execTimeStep (h : Hdr) (off : W64) (s : State) : Host.Outcome State Fault Refusal :=
  s.done (s.serve h Op.timeStep
    (fun s => firstRej [(decide (0 ≤ s.stepped off ∧ s.stepped off < (todOf (2 ^ 48) 0 0 : Nat)), rej Status.valueRange)])
    (fun s => let t := s.timeLoad (s.stepped off).toNat
              { st := t, out := t.timeWords }))

/-- HOLDOVER follows its two causes; the report comes with a change from 0 to 1 (14 R368). -/
def State.holdShow (s : State) : State :=
  let was := bit (s.rd Reg.timeStat) 31
  let now := s.tod.autoHold || bit (s.rd Reg.timeStat) 30
  let s := s.wr Reg.timeStat (setBit (s.rd Reg.timeStat) 31 now)
  if now && !was then s.raiseNow Code.timeHoldover { die := Die.hub } 0 else s

/-- TIME_INC (14 R367, R368): from 1.0 to 4.0 ns. -/
def execTimeInc (h : Hdr) (frac whole : Nat) (s : State) : Host.Outcome State Fault Refusal :=
  s.done (s.serve h Op.timeInc
    (fun _ => firstRej [(decide (frac < 2 ^ 32 ∧ 2 ^ 32 ≤ whole * 2 ^ 32 + frac ∧ whole * 2 ^ 32 + frac ≤ 4 * 2 ^ 32), rej Status.valueRange)])
    (fun s => let t := ({ ((s.wr Reg.timeIncLo (BitVec.ofNat 32 frac)).wr Reg.timeIncHi (BitVec.ofNat 32 whole)) with
                            tod.incOld := some s.incNow, tod.autoHold := false }).holdShow
              { st := t, out := t.timeWords }))

/-- TIME_HOLDOVER (14 R368). -/
def execTimeHoldover (h : Hdr) (enter : Bool) (s : State) : Host.Outcome State Fault Refusal :=
  s.done (s.serve h Op.timeHoldover noCheck
    (fun s =>
      let t := (s.wr Reg.timeStat (setBit (s.rd Reg.timeStat) 30 enter)).holdShow
      let w := t.rd Reg.timeStat
      { st := t, out := t.timeWords ++ [BitVec.ofNat 32 ((if bit w 31 then 1 else 0) + (if bit w 30 then 2 else 0))] }))

/-- HOLDOVER_TIMEOUT (14 R368). -/
def execHoldoverTimeout (s : State) : Host.Outcome State Fault Refusal :=
  s.done (if s.hubOn then { s with tod.autoHold := true }.holdShow else s)

/-- TIME_PLL_UNLOCK (14 R369): the counter advances from SAMPLE at the same mean rate. -/
def execTimePllUnlock (s : State) : Host.Outcome State Fault Refusal :=
  s.done (s.wr Reg.timeStat (setBit (s.rd Reg.timeStat) 29 false))

/-- TIME_PLL_RELOCK (14 R369; 01 R24). -/
def execTimePllRelock (s : State) : Host.Outcome State Fault Refusal :=
  s.done (if bit (s.rd Reg.timeStat) 29 then s
    else (s.wr Reg.timeStat (setBit (s.rd Reg.timeStat) 29 true)).raiseNow Code.timePllRelock { die := Die.hub } 0)

/-! 1PPS and edge records (14 R370, R371). -/

/-- PPS_CONFIG (14 Table 14.6). -/
def execPpsConfig (h : Hdr) (cfg ofs : W32) (s : State) : Host.Outcome State Fault Refusal :=
  s.done (s.serve h Op.ppsConfig
    (fun _ => firstRej [(decide (1 ≤ fld cfg 20 10 ∧ fld cfg 20 10 ≤ 999 ∧ -500000000 ≤ ofs.toInt ∧ ofs.toInt ≤ 499999999), rej Status.valueRange)])
    (fun s =>
      let t := (s.wr Reg.ppsOutCfg (setFld (setBit cfg 30 false) 0 20 0)).wr Reg.ppsOutOfs ofs
      { st := if bit cfg 31 then t else { t with tod.ppsOut := false } }))

/-- TS_CONFIG (14 R370). -/
def execTsConfig (h : Hdr) (cfg : W32) (s : State) : Host.Outcome State Fault Refusal :=
  s.done (s.serve h Op.tsConfig noCheck (fun s => { st := s.wr Reg.tsCfg (setFld cfg 0 26 0) }))

/-- PPS_OUT_RISE (14 R371). -/
def execPpsOutRise (s : State) : Host.Outcome State Fault Refusal :=
  s.done (if s.hubOn && bit (s.rd Reg.ppsOutCfg) 31 then { s with tod.ppsOut := true } else s)

/-- PPS_OUT_FALL (14 R371). -/
def execPpsOutFall (s : State) : Host.Outcome State Fault Refusal := s.done { s with tod.ppsOut := false }

/-- PPS_IN_EDGE (14 R370, R371). -/
def State.ppsIn (s : State) : State :=
  let x := stampOf (s.todIn 0)
  let s := (s.wrs
    [ (Reg.ppsInSecHi, BitVec.ofNat 32 (x.sec / 2 ^ 32)), (Reg.ppsInSecLo, BitVec.ofNat 32 x.sec), (Reg.ppsInNs, BitVec.ofNat 32 x.ns)
    , (Reg.ppsInFrac, BitVec.ofNat 32 (x.frac * 256)) ]).wrapBy Reg.ppsInCount 1
  if bit (s.rd Reg.tsCfg) 30 then s.edgeRecord 64 false x else s

def execPpsInEdge (s : State) : Host.Outcome State Fault Refusal := s.done (if s.hubOn then s.ppsIn else s)

/-! Time-port lanes (14 R372). -/

/-- PTP_CONFIG: a lane in time-port mode. -/
def execPtpConfig (h : Hdr) (lane : Nat) (en oneStep : Bool) (s : State) : Host.Outcome State Fault Refusal :=
  s.done (s.serve h Op.ptpConfig
    (fun s => firstRej [(laneOk lane && s.laneMode lane == 3, rej Status.valueRange)])
    (fun s => { st := { s with tod.ptp := s.tod.ptp.filter (fun (e : Nat × Bool) => e.1 != lane) ++ (if en then [(lane, oneStep)] else []) } }))

/-- A big-endian number of `n` bytes at an offset. -/
def be (l : List W8) (o n : Nat) : Nat := ((l.drop o).take n).foldl (fun a b => a * 256 + b.toNat) 0
def bytesBE (n v : Nat) : List W8 := (bytesLE n v).reverse

/-- Where the PTP message of a frame stands, and the offset of its UDP header, if IPv4 (0 for Ethernet, 1 for IPv6). -/
def ptpAt (f : List W8) : Option (Nat × Nat) :=
  let et := be f 12 2
  if et = 0x88F7 then some (14, 0)
  else if et = 0x8100 ∧ be f 16 2 = 0x88F7 then some (18, 0)
  else if et = 0x0800 ∧ be f 23 1 = 17 then
    (let u := 14 + 4 * (be f 14 1 % 16)
     if be f (u + 2) 2 = 319 then some (u + 8, u) else none)
  else if et = 0x86DD ∧ be f 20 1 = 17 ∧ be f 56 2 = 319 then some (62, 1)
  else none

/-- Whether a frame carries an event message: messageType 0 to 3. -/
def ptpEvent (f : List W8) : Option (Nat × Nat) := (ptpAt f).filter (fun e => decide (be f e.1 1 % 16 ≤ 3))

/-- PTP_RX: the frame reaches the host, an event message with its stamp. -/
def State.ptpRx (s : State) (n cyc : Nat) (f : List W8) : State :=
  if s.laneMode n ≠ 3 ∨ s.rxState n ≠ Rx.locked then s
  else
    let s := s.atCycle cyc
    let on := s.tod.ptp.any (fun (e : Nat × Bool) => e.1 == n)
    let x := if on && (ptpEvent f).isSome then some (stampOf (s.todIn 0)) else none
    { s with tod.ptpIn := s.tod.ptpIn ++ [(n, f, x)] }

def execPtpRx (lane cyc : Nat) (frame : List W8) (s : State) : Host.Outcome State Fault Refusal :=
  s.onUnit (laneOk lane && decide (cyc < s.cTick)) (if s.hubOn then s.ptpRx lane cyc frame else s)

/-- A Sync with its stamp written (one-step): originTimestamp, correctionField, the IPv4 UDP checksum, and the FCS, which is the
last four bytes of the frame. -/
def oneStepSync (f : List W8) (p u : Nat) (x : Stamp) : List W8 :=
  let body := f.take (f.length - 4)
  let body := placeAt body (p + 34) (bytesBE 6 x.sec ++ bytesBE 4 x.ns)
  let body := placeAt body (p + 8) (bytesBE 8 ((be f (p + 8) 8 + x.frac / 256) % 2 ^ 64))
  let body := if 2 ≤ u then placeAt body (u + 6) [0, 0] else body
  body ++ bytesLE 4 (crc32 body).toNat

/-- PTP_TX: an event message is sent, with a two-step stamp and its tag, or rewritten as one-step. -/
def State.ptpTx (s : State) (n cyc tag : Nat) (f : List W8) : State :=
  if s.laneMode n ≠ 3 ∨ s.txState n ≠ 2 then s
  else
    let s := s.atCycle cyc
    let x := stampOf (s.todIn 0)
    match s.tod.ptp.find? (fun (e : Nat × Bool) => e.1 == n), ptpEvent f with
    | some e, some (p, u) =>
      if e.2 && be f p 1 % 16 == 0 && u != 1 then { s with tod.ptpOut := s.tod.ptpOut ++ [(n, oneStepSync f p u x)] }
      else { s with tod.ptpOut := s.tod.ptpOut ++ [(n, f)], tod.ptpStamps := s.tod.ptpStamps ++ [(n, tag, x)] }
    | _, _ => { s with tod.ptpOut := s.tod.ptpOut ++ [(n, f)] }

def execPtpTx (lane cyc tag : Nat) (frame : List W8) (s : State) : Host.Outcome State Fault Refusal :=
  s.onUnit (laneOk lane && decide (cyc < s.cTick)) (if s.hubOn then s.ptpTx lane cyc tag frame else s)

/-! Time frames (14 R373; 11 R301). -/

/-- Lane transmit in tenths of ns (02 Table 2.7); the table gives none for PAM4 (log 21). -/
def laneTx : Nat → Nat
  | 0 => 270
  | 1 => 120
  | 2 => 110
  | 3 => 60
  | _ => 0

/-- The time of day at which the first bit of a frame handed to a group now leaves its pins (11 R301). -/
def State.pinTime (s : State) (g : Nat) : Nat :=
  let r := s.grpRate g
  s.todIn (s.startPos g * blockBits r * (bitsPerFab r).2 * 1280 / (bitsPerFab r).1 - 1280 * s.tod.fab + laneTx r * 4096 / 20)

/-- TIME_FRAME: one time frame on a lane group, in its next idle block position; the reply gives the time sent. -/
def execTimeFrame (h : Hdr) (g : Nat) (s : State) : Host.Outcome State Fault Refusal :=
  s.done (s.serve h Op.timeFrame
    (fun s => firstRej [(decide (g < 64) && bit (s.rd (Reg.grpCfg g)) 31, rej Status.valueRange)])
    (fun s =>
      let t := s.settleTx g
      let x := stampOf (t.pinTime g)
      let hdr := x.sec * 2 ^ 16 + 0xE5
      let row := x.ns * 2 ^ 32 + x.frac * 2 ^ 8 + s.dev.partId * 4
      { st := t.sendFrame ⟨g, BitVec.ofNat 64 hdr, padTo (s.rowBytes g) (bytesLE 8 row)⟩, out := stampWords (t.pinTime g) }))

/-- TIME_FRAME_READ: the count since the last read, and the last frame with its local stamp; zeros where none came. -/
def execTimeFrameRead (h : Hdr) (g : Nat) (s : State) : Host.Outcome State Fault Refusal :=
  s.done (s.serve h Op.timeFrameRead
    (fun _ => firstRej [(decide (g < 64), rej Status.valueRange)])
    (fun s =>
      let x := s.grpSt g
      { st := s.setGrp g { x with timeCount := 0 },
        out := BitVec.ofNat 32 x.timeCount :: (if x.timeLast.isEmpty then List.replicate 9 0 else x.timeLast) }))

/-- A read of TOD_LATCH (14 R374). -/
def State.todLatch (s : State) : State :=
  s.wrs [ (Reg.todLatch, BitVec.ofNat 32 (s.tod.sec / 2 ^ 32)), (Reg.todSecLo, BitVec.ofNat 32 s.tod.sec)
        , (Reg.todNs, BitVec.ofNat 32 s.tod.ns), (Reg.todFrac, BitVec.ofNat 32 (s.tod.frac / 256 * 256)) ]

def execTodLatch (s : State) : Host.Outcome State Fault Refusal := s.done (if s.hubOn then s.todLatch else s)

/-- A read of TS_TICK (15 R395): TICK_ID and the time of day of one FAB cycle. -/
def State.tsLatch (s : State) : State :=
  let x := stampOf (s.todIn 0)
  s.wrs [ (Reg.tsTick, s.tickId), (Reg.tsSecLo, BitVec.ofNat 32 x.sec), (Reg.tsNs, BitVec.ofNat 32 x.ns)
        , (Reg.tsFrac, BitVec.ofNat 32 (x.frac * 256)) ]

def execTsTick (s : State) : Host.Outcome State Fault Refusal := s.done (if s.hubOn then s.tsLatch else s)

end Sys2Proof.Machine
end

