-- ==== Sys2Proof/Machine/Tables.lean ====
section
/-! DEFINITION. Pattern tables (08 R217, R218, R229): their descriptors, the places of their entries, and cuckoo placement. -/

namespace Sys2Proof.Machine

/-! Tables (08 Table 8.2). -/

def State.ptEn (s : State) (n : Nat) : Bool := decide (n < 64) && bit (s.rd (Reg.pt n)) 31
/-- MODE: 0 keyed, 1 indexed, 2 match-count. -/
def State.ptMode (s : State) (n : Nat) : Nat := s.rdF (Reg.pt n) 29 2
def State.ptDbuf (s : State) (n : Nat) : Bool := bit (s.rd (Reg.pt n)) 28
def State.ptActive (s : State) (n : Nat) : Nat := s.rdF (Reg.pt n) 27 1
def State.ptPend (s : State) (n : Nat) : Bool := bit (s.rd (Reg.pt n)) 26
def State.ptEntries (s : State) (n : Nat) : Nat := s.rdF (Reg.pt n + 0xC) 0 23
def State.ptSwitch (s : State) (n : Nat) : W32 := s.rd (Reg.pt n + 0x1C)

/-- The generation that commands write (08 R228, R230). -/
def State.ptWritable (s : State) (n : Nat) : Nat := if s.ptDbuf n then 1 - s.ptActive n else 0

/-- The rows that generation `gen` lies above generation 0. -/
def State.genRows (s : State) (n gen : Nat) : Nat := if gen = 0 then 0 else s.rdF (Reg.pt n + 0x18) 0 14

/-- The bytes of a key (08 R218). -/
def keyBytes (key : Nat) : List W8 := bytesLE 12 key

/-- The bucket of a key in half j (08 R218). -/
def State.bucket (s : State) (n j key : Nat) : Nat :=
  (crc32c (keyBytes key) (s.rd (Reg.pt n + 0x10 + 4 * j))).toNat % 2 ^ s.rdF (Reg.pt n + 4 + 4 * j) 4 5

/-- The sub-bank of bucket or index i of range j (08 R217). -/
def State.patBank (s : State) (n j i : Nat) : Nat :=
  let h := s.rd (Reg.pt n + 4 + 4 * j)
  fld h 26 6 + i % 2 ^ fld h 23 3

/-- The address of a way of a bucket of half j. -/
def State.wayAddr (s : State) (n gen j i way : Nat) : Nat :=
  let h := s.rd (Reg.pt n + 4 + 4 * j)
  patAddr (s.patBank n j i) (4 * (fld h 9 14 + s.genRows n gen + i / 2 ^ fld h 23 3) + way)

/-- The address of entry i of an indexed table. -/
def State.indexAddr (s : State) (n gen i : Nat) : Nat :=
  let h := s.rd (Reg.pt n + 4)
  patAddr (s.patBank n 0 i) (4 * (fld h 9 14 + s.genRows n gen) + i / 2 ^ fld h 23 3)

/-- An entry's key, value and VALID by the majority of its copies (08 R215). -/
def State.entKey (s : State) (a : Nat) : Nat := s.rdLE a 32 % 2 ^ 96
def State.entValue (s : State) (a : Nat) : W64 := BitVec.ofNat 64 (s.rdLE a 32 / 2 ^ 96)
def State.entValid (s : State) (a : Nat) : Bool := decide (2 ≤ popcount (bits (s.rdLE a 32) 176 3) 3)

/-- The eight ways of a key's two buckets, H0 before H1. -/
def State.waysOf (s : State) (n gen key : Nat) : List Nat :=
  (List.range 2).flatMap (fun j => (List.range 4).map (s.wayAddr n gen j (s.bucket n j key)))

/-- The way that holds a key (08 R218). -/
def State.findKey (s : State) (n gen key : Nat) : Option Nat :=
  (s.waysOf n gen key).find? (fun a => s.entValid a && s.entKey a == key)

/-! Placement (08 R229). -/

/-- The lowest free way of a key's bucket in half j. -/
def State.freeWay (s : State) (n gen j key : Nat) : Option Nat :=
  ((List.range 4).map (s.wayAddr n gen j (s.bucket n j key))).find? (fun a => !s.entValid a)

/-- The placement procedure on its way: the entry held for half `j`, until it is placed. -/
structure Kick where
  st : State
  j : Nat
  key : Nat
  value : W64
  placed : Bool

/-- Kick i: the entry held goes into way i mod 4, whose entry is held next and placed where its other bucket has a free way. -/
def Kick.next (n gen : Nat) (c : Kick) (i : Nat) : Kick :=
  if c.placed then c
  else
    let a := c.st.wayAddr n gen c.j (c.st.bucket n c.j c.key) (i % 4)
    let k' := c.st.entKey a
    let v' := c.st.entValue a
    let s := c.st.patPut a c.key c.value.toNat true
    match s.freeWay n gen (1 - c.j) k' with
    | some b => { c with st := s.patPut b k' v'.toNat true, placed := true }
    | none => { st := s, j := 1 - c.j, key := k', value := v', placed := false }

/-- The 256 kicks of the procedure; none: no place. -/
def State.kicks (s : State) (n gen key : Nat) (v : W64) : Option State :=
  let c := (List.range 256).foldl (Kick.next n gen) ⟨s, 0, key, v, false⟩
  if c.placed then some c.st else none

/-- Whether a key needs an eviction: it is absent and has no free way. -/
def State.needsKick (s : State) (n gen key : Nat) : Bool :=
  (s.findKey n gen key).isNone && (s.freeWay n gen 0 key).isNone && (s.freeWay n gen 1 key).isNone

/-- Places a key, or replaces its value where it is present; none: no place. -/
def State.place (s : State) (n gen key : Nat) (v : W64) : Option State :=
  match s.findKey n gen key with
  | some a => some (s.patPut a key v.toNat true)
  | none =>
    match s.freeWay n gen 0 key with
    | some a => some (s.patPut a key v.toNat true)
    | none =>
      match s.freeWay n gen 1 key with
      | some a => some (s.patPut a key v.toNat true)
      | none => s.kicks n gen key v

/-- The places of a table's entries in a generation: an indexed range, or both halves. -/
def State.tablePlaces (s : State) (n gen : Nat) : List Nat :=
  if s.ptMode n = 1 then (List.range (s.ptEntries n)).map (s.indexAddr n gen)
  else (List.range 2).flatMap (fun j => (List.range (2 ^ s.rdF (Reg.pt n + 4 + 4 * j) 4 5)).flatMap (fun i =>
    (List.range 4).map (s.wayAddr n gen j i)))

/-! Ranges (08 R217). -/

/-- Whether bit fields of a descriptor name a range: half `j` of a table in generation `gen`, as first sub-bank, sub-banks, first row
and rows. -/
def State.tableRange (s : State) (n j gen : Nat) : Nat × Nat × Nat × Nat :=
  let h := s.rd (Reg.pt n + 4 + 4 * j)
  let sb := fld h 23 3
  let rows := if s.ptMode n = 1 then ceilDiv (ceilDiv (s.ptEntries n) (2 ^ sb)) 4 else ceilDiv (2 ^ fld h 4 5) (2 ^ sb)
  (fld h 26 6, 2 ^ sb, fld h 9 14 + s.genRows n gen, rows)

/-- The ranges of a table: H0, and H1 where it is keyed, in each generation. -/
def State.tableRanges (s : State) (n : Nat) : List (Nat × Nat × Nat × Nat) :=
  (if s.ptDbuf n then [0, 1] else [0]).flatMap (fun g =>
    (if s.ptMode n = 1 then [0] else [0, 1]).map (fun j => s.tableRange n j g))

/-- Whether a range holds an entry's address (08 R214). -/
def inTableRange (r : Nat × Nat × Nat × Nat) (a : Nat) : Bool :=
  let o := a - 0x200000000
  let bank := o / 0x4000000 * 16 + o % 0x4000000 / 0x200000
  let row := o % 0x200000 / 128
  decide (0x200000000 ≤ a ∧ a < 0x210000000) &&
  decide (r.1 ≤ bank ∧ bank < r.1 + r.2.1 ∧ r.2.2.1 ≤ row ∧ row < r.2.2.1 + r.2.2.2)

/-- Clears every entry of a table (09 R243). -/
def State.clearTable (s : State) (n : Nat) : State :=
  let rs := s.tableRanges n
  { s with mem := s.mem.filter (fun e => !rs.any (fun r => inTableRange r e.1)),
           poison := s.poison.filter (fun a => !rs.any (fun r => inTableRange r a)) }

end Sys2Proof.Machine
end

