-- ==== Sys2Proof/Machine/Image.lean ====
section
/-! DEFINITION. A Unpiod image as it lies in the loader region (09 R234 to R249): its header, section table, relocation and patch
entries, the values they write, the re-padded balance delays, and the write-out of a core's part of it. -/

namespace Sys2Proof.Machine

/-- A section-table entry (09 Table 9.3). -/
structure Sect where
  ty : Nat
  opt : Bool
  rsvd : Nat
  off : Nat
  len : Nat
  crc : Nat
  deriving DecidableEq, Repr

/-- A relocation entry (09 Table 9.6), ADDEND as its 64 bits. -/
structure Reloc where
  loc : Nat
  lsb : Nat
  width : Nat
  kind : Nat
  ref : Nat
  addend : Nat
  deriving DecidableEq, Repr

/-- A patch entry (09 Table 9.7). -/
structure PatchEnt where
  loc : Nat
  lsb : Nat
  width : Nat
  kind : Nat
  pid : Nat
  seg : Nat
  alignLog2 : Nat
  rsvd : Nat
  lo : Nat
  hi : Nat
  deriving DecidableEq, Repr

/-- A 32-bit word of an image's header (09 Table 9.2). -/
def State.imgW (s : State) (base off : Nat) : Nat := s.rdLE (imgAddr base off) 4

def State.sects (s : State) (base : Nat) : List Sect :=
  let o := s.imgW base 0x0C
  (List.range (s.imgW base 0x10 % 65536)).map (fun i =>
    let w := s.imgW base (o + 16 * i)
    ⟨w / 65536, nbit w 15, w % 2 ^ 15, s.imgW base (o + 16 * i + 4), s.imgW base (o + 16 * i + 8), s.imgW base (o + 16 * i + 12)⟩)

def State.sectOf (s : State) (base ty : Nat) : Option Sect := (s.sects base).find? (fun x => x.ty == ty)

def State.relocs (s : State) (base : Nat) : List Reloc :=
  match s.sectOf base 7 with
  | none => []
  | some x => (List.range (x.len / 16)).map (fun i =>
      let o := x.off + 16 * i
      let w := s.imgW base (o + 4)
      ⟨s.imgW base o, bits w 26 6, bits w 20 6 + 1, bits w 16 4, w % 65536, s.rdLE (imgAddr base (o + 8)) 8⟩)

def State.patchEnts (s : State) (base : Nat) : List PatchEnt :=
  match s.sectOf base 8 with
  | none => []
  | some x => (List.range (x.len / 32)).map (fun i =>
      let o := x.off + 32 * i
      let w := s.imgW base (o + 4)
      let v := s.imgW base (o + 8)
      ⟨s.imgW base o, bits w 26 6, bits w 20 6 + 1, bits w 16 4, w % 65536, v / 65536, bits v 8 8, v % 256 + s.imgW base (o + 12),
       s.rdLE (imgAddr base (o + 16)) 8, s.rdLE (imgAddr base (o + 24)) 8⟩)

/-- The value of a relocation entry, where its segment or part is resolved (09 R244). -/
def relocValue (base : Nat) (bases parts : SMap Nat) (r : Reloc) : Option Int :=
  let seg := (bases.find? (fun (e : Nat × Nat) => e.1 == r.ref)).map (·.2)
  let part := (parts.find? (fun (e : Nat × Nat) => e.1 == r.ref)).map (·.2)
  let add := toSigned 64 r.addend
  match r.kind with
  | 0 => seg.map (fun b => (b : Int) + add)
  | 1 => seg.map (fun b => ((b : Int) + add) / 256)
  | 2 => part.map (fun p => (p : Int))
  | 3 => part.map (fun p => (2 ^ 47 + p * 2 ^ 41 + r.addend : Nat))
  | _ => some ((imgAddr base 0 : Nat) + add)

/-- A number with a field replaced. -/
def putBits (w lsb width v : Nat) : Nat := w - bits w lsb width * 2 ^ lsb + v % 2 ^ width * 2 ^ lsb

/-! Reserved bits (00 R12, R13). -/

/-- The reserved bits of a context register (03 Tables 3.6 to 3.8). -/
def ctxReserved (o : Nat) : Nat :=
  if o = 0 then 0x3FF0FE00 else if o = 8 then 0xFFFF0000 else if o = 0x14 ∨ o = 0x18 then 0xFFFC0000 else if o = 0x1C then 0xFC0000
  else if 0x40 ≤ o ∧ o < 0x60 then 0x3E00FF80 else if 0x60 ≤ o ∧ o < 0x80 then 0x80C0C000 else if 0x80 ≤ o ∧ o < 0xC0 then 0x4000
  else if 0xC0 ≤ o ∧ o < 0x100 then 0xFFFFFF80 else 0

/-- The reserved bits of the registers that SLOT_SCHEDULE, ALLOCATIONS and QUEUE_TABLES set (05 Table 5.3, 06 Table 6.4, 08 Tables 8.2 and 8.3, 11 Table 11.3). -/
def regReserved (a : Nat) : Nat :=
  let o := a % 0x10000000
  let u := (o - 0xF030000) % 0x20000
  if a < 0x100000000 then
    (if 0xF030000 ≤ o ∧ o < 0xF0B0000 then
       (if 0x1000 ≤ u ∧ u < 0x1200 then (if u % 8 = 0 then 0xFFFFFFFF else 7) else 0)
     else if o = 0xF0B0008 then 0xFF000000 else 0)
  else if Reg.pt 0 ≤ a ∧ a < Reg.pt 64 then
    (match a % 32 with
     | 0 => 0x03FFFFFF
     | 4 => 0xF
     | 8 => 0xF
     | 12 => 0xFF800000
     | 24 => 0xFFFFC000
     | _ => 0)
  else if Reg.pr 0 ≤ a ∧ a < Reg.pr 256 then 0x7F
  else if Reg.fieldEnt 0 ≤ a ∧ a < Reg.fieldEnt 1024 then (if a % 32 = 4 then 0xF else 0)
  else 0

/-- The reserved bits of a register that an image sets; they read as 0 (00 R12). -/
def wordReserved (a : Nat) : Nat :=
  let o := a % 0x10000000
  if a < 0x100000000 ∧ o < 0x8800000 then (if 0x3C000 ≤ o % 0x40000 ∧ o % 0x40000 < 0x3D000 then ctxReserved (o % 0x400) else 0)
  else if Reg.fbCfg 0 0 ≤ a ∧ a < Reg.fbCfg 4 0 then (if a % 0x20 = 0 then 0x00FF0000 else 0)
  else regReserved a

/-- A register takes a word of an image, its reserved bits as 0. -/
def State.wrClean (s : State) (a w : Nat) : State := s.wr a (BitVec.ofNat 32 (w % 2 ^ 32 - Nat.land (w % 2 ^ 32) (wordReserved a)))

/-- Sets a field of the 64-bit word at a device address: memory, or a pair of registers. -/
def State.putField (s : State) (a lsb width v : Nat) : State :=
  let put := fun (w : Nat) => putBits w lsb width v
  if (regionOf a).isMem then s.wrLE a 8 (put (s.rdLE a 8))
  else
    let w := put ((s.rd a).toNat + (s.rd (a + 4)).toNat * 2 ^ 32)
    (s.wrClean a w).wrClean (a + 4) (w / 2 ^ 32)

/-- The bits that an image's relocations and patch values set: LOC, LSB, WIDTH and value (09 R244, R247). A point without a PATCH
keeps the image's bits. -/
def State.imgFields (s : State) (base : Nat) (bases parts : SMap Nat) (patches : List (Nat × W64)) : List (Nat × Nat × Nat × Nat) :=
  (s.relocs base).filterMap (fun r => (relocValue base bases parts r).map (fun v => (r.loc, r.lsb, r.width, v.toNat))) ++
  (s.patchEnts base).filterMap (fun p => (patches.find? (fun (e : Nat × W64) => e.1 == p.pid)).map (fun e =>
    (p.loc, p.lsb, p.width, if p.kind = 4 then SMap.get 0 bases p.seg + e.2.toNat else e.2.toNat)))

/-- A place in a tile names its logical core; the device address of the physical core that serves it (03 R67). -/
def State.placeAt' (s : State) (a : Nat) : Nat :=
  if a < 0x100000000 ∧ a % 0x10000000 < 0x8800000 then
    let t := a / 0x10000000
    Reg.coreBase t (s.phys t (a % 0x10000000 / 0x40000)) + a % 0x40000
  else a

/-- Where an image word goes. -/
def placeOf (img : Contents) (loc : Nat) : Option Place := (img.places.find? (fun (e : Nat × Place) => e.1 == loc)).map (·.2)

/-- Writes fields at the addresses of their words, each where `dst` takes it, those that a condition on the place and its pass names. A
word that no place names holds nothing that the loader writes (log 5). -/
def State.putFields (s : State) (img : Contents) (dst : Nat → Nat) (only : Nat → Nat → Bool) (fs : List (Nat × Nat × Nat × Nat)) : State :=
  fs.foldl (fun t f =>
    match placeOf img f.1 with
    | some (.word a p) => if only a p then t.putField (dst a) f.2.1 f.2.2.1 f.2.2.2 else t
    | _ => t) s

/-! Records of the written sections as 64-bit words (log 5). -/

/-- A pair of PATTERN_CONTENTS with a field of one of its words replaced. -/
def putPat (e : PatKv) (part lsb width v : Nat) : PatKv :=
  if part < 2 then { e with key := BitVec.ofNat 96 (putBits e.key.toNat (64 * part + lsb) width v) }
  else { e with value := BitVec.ofNat 64 (putBits e.value.toNat lsb width v) }

/-- A tree with a field of one of its words replaced. -/
def putTree (x : Tree) (part lsb width v : Nat) : Tree :=
  if part < 8 then { x with mask := putBits x.mask (64 * part + lsb) width v % 2 ^ 512 }
  else
    let w := putBits (x.id + x.dq * 2 ^ 32) lsb width v
    { x with id := bits w 0 8, dq := bits w 32 3 }

/-- A wait-for edge: the fed queue in [17:0] (tile, core, context, queue), what feeds it in [46:32] (tile, core, context). -/
def edgeWord (e : WaitEdge) : Nat :=
  e.tile + e.core * 2 ^ 4 + e.ctx * 2 ^ 13 + e.q * 2 ^ 15 + e.ftile * 2 ^ 32 + e.fcore * 2 ^ 36 + e.fctx * 2 ^ 45
def edgeFrom (w : Nat) : WaitEdge :=
  { tile := bits w 0 4, core := bits w 4 9, ctx := bits w 13 2, q := bits w 15 3, ftile := bits w 32 4, fcore := bits w 36 9,
    fctx := bits w 45 2 }

/-- A reserved slot: port in [15:0], slot in [31:16], owner in [47:32]. -/
def slotWord (x : SlotRes) : Nat := x.port + x.slot * 2 ^ 16 + x.owner * 2 ^ 32
def slotFrom (w : Nat) : SlotRes := { port := bits w 0 16, slot := bits w 16 16, owner := bits w 32 16 }

/-- A lookup's slot: route, sub-bank, cycle and frame cycle, 16 bits each. -/
def patSlotWord (x : PatSlot) : Nat := x.route + x.bank * 2 ^ 16 + x.cycle * 2 ^ 32 + x.frame * 2 ^ 48
def patSlotFrom (w : Nat) : PatSlot := { route := bits w 0 16, bank := bits w 16 16, cycle := bits w 32 16, frame := bits w 48 16 }

/-- A list with one element changed. -/
def changeAt {α : Type} (l : List α) (ix : Nat) (f : α → α) : List α := l.mapIdx (fun i a => if i = ix then f a else a)

/-- The records of an image with the fields that relocations and patch values set. -/
def imgWith (img : Contents) (fs : List (Nat × Nat × Nat × Nat)) : Contents :=
  fs.foldl (fun c f =>
    let put := fun (w : Nat) => putBits w f.2.1 f.2.2.1 f.2.2.2
    match placeOf img f.1 with
    | some (.pattern ix part) => { c with patterns := changeAt c.patterns ix (fun e => putPat e part f.2.1 f.2.2.1 f.2.2.2) }
    | some (.tree ix part) => { c with trees := changeAt c.trees ix (fun x => putTree x part f.2.1 f.2.2.1 f.2.2.2) }
    | some (.edge ix) => { c with edges := changeAt c.edges ix (fun e => edgeFrom (put (edgeWord e))) }
    | some (.slot ix) => { c with slots := changeAt c.slots ix (fun x => slotFrom (put (slotWord x))) }
    | some (.patSlot ix) => { c with patSlots := changeAt c.patSlots ix (fun x => patSlotFrom (put (patSlotWord x))) }
    | _ => c) img

/-- The tables that the tiles and ports hold of an image: trees, wait-for edges and slots. -/
def State.putTables (s : State) (handle : Nat) (img : Contents) : State :=
  { s with
    ant.trees := s.ant.trees.filter (fun e => e.1 != handle) ++ img.trees.map (fun t => (handle, t)),
    ant.edges := s.ant.edges.filter (fun e => e.1 != handle) ++ img.edges.map (fun e => (handle, e)),
    ant.slots := s.ant.slots.filter (fun e => e.1 != handle) ++ img.slots.map (fun x => (handle, x)),
    banks.patSlots := s.banks.patSlots.filter (fun e => e.1 != handle) ++ img.patSlots.map (fun x => (handle, x)) }

/-! HBM segments and INIT_DATA (09 R236, R237, Table 9.5). -/

/-- The descriptor of segment `n`, from the staged bytes. -/
def State.segAt (s : State) (base : Nat) (img : Contents) (n : Nat) : SegDecl :=
  if img.segCount ≤ n then { essential := false, size256 := 0, stackMask := 0, alignLog2 := 0, initOff := none, initLen := 0 }
  else
    let w := fun (i : Nat) => s.imgW base (img.segOff + 16 * n + 4 * i)
    { essential := nbit (w 0) 31, size256 := bits (w 0) 0 28, stackMask := bits (w 1) 24 8, alignLog2 := bits (w 1) 19 5,
      initOff := if w 2 = 0xFFFFFFFF then none else some (w 2), initLen := w 3 }

/-- The runs of INIT_DATA that the loader writes: device address, offset in the section, and length. -/
def State.initRuns (s : State) (base : Nat) (img : Contents) (bases : SMap Nat) : List (Nat × Nat × Nat) :=
  img.storeInit ++ (List.range img.segCount).filterMap (fun n =>
    let d := s.segAt base img n
    match d.initOff, bases.find? (fun (e : Nat × Nat) => e.1 == n) with
    | some o, some e => some (e.2, o, d.initLen)
    | _, _ => none)

/-- Writes the initial contents of Store ranges and HBM segments. -/
def State.writeInit (s : State) (base : Nat) (img : Contents) (bases : SMap Nat) : State :=
  match s.sectOf base 0xD with
  | none => s
  | some x => (s.initRuns base img bases).foldl (fun t (r : Nat × Nat × Nat) =>
      t.putCells ((List.range r.2.2).map (fun j => (r.1 + j, s.rdB (imgAddr base (x.off + r.2.1 + j)))))) s

/-- The bytes of a 64-bit word that a field covers: their index, the lowest bit and the width of the part in it, and its value. -/
def fieldBytes (lsb width v : Nat) : List (Nat × Nat × Nat × Nat) :=
  (List.range 8).filterMap (fun i =>
    let lo := max lsb (8 * i)
    let hi := min (lsb + width) (8 * i + 8)
    if lo < hi then some (i, lo - 8 * i, hi - lo, bits (v % 2 ^ width) (lo - lsb) (hi - lo)) else none)

/-- The byte at an address as the accesses that wait will leave it. -/
def State.byteToCome (s : State) (a : Nat) : W8 :=
  s.host.waits.foldl (fun b e =>
    match e.1.data with
    | some bs => if e.1.addr ≤ a ∧ a < e.1.addr + bs.length then bs.getD (a - e.1.addr) b else b
    | none => b) (s.rdB a)

/-- The loader writes a byte; one in a stack in self-refresh waits (07 R190). -/
def State.loaderByte (s : State) (a : Nat) (b : W8) : State :=
  if s.asleep a then { s with host.waits := s.host.waits ++ [({ addr := a, n := 1, data := some [b], who := .loader }, 0)] }
  else s.wrB a b

/-- Writes fields of words of INIT_DATA where their bytes went. -/
def State.putInits (s : State) (base : Nat) (img : Contents) (bases : SMap Nat) (fs : List (Nat × Nat × Nat × Nat)) : State :=
  match s.sectOf base 0xD with
  | none => s
  | some x =>
    let runs := s.initRuns base img bases
    (fs.filter (fun f => decide (x.off ≤ f.1 ∧ f.1 < x.off + x.len))).foldl (fun t f =>
      (fieldBytes f.2.1 f.2.2.1 f.2.2.2).foldl (fun t b =>
        let o := f.1 - x.off + b.1
        (runs.filter (fun (r : Nat × Nat × Nat) => decide (r.2.1 ≤ o ∧ o < r.2.1 + r.2.2))).foldl (fun t (r : Nat × Nat × Nat) =>
          let a := r.1 + (o - r.2.1)
          t.loaderByte a (BitVec.ofNat 8 (putBits (t.byteToCome a).toNat b.2.1 b.2.2.1 b.2.2.2))) t) t) s

/-! Re-padding (02 R64; 09 R250). -/

/-- A latency signature: the cycle-valued rows of Table 2.6 in order. -/
def sigA1 : List Nat := [4, 6, 6, 4, 3, 7, 8, 13, 4, 23, 12, 4, 30, 24]
def sigB0 : List Nat := [4, 6, 6, 4, 3, 7, 8, 13, 4, 23, 12, 4, 26, 22]

/-- The loader's table of known signatures (09 R250). -/
def signature (id : Nat) : Option (List Nat) :=
  if id = 0x000100A1 then some sigA1 else if id = 0x000200B0 then some sigB0 else none

/-- Δ of a path from an image's signature to the part's, in FAB cycles. -/
def pathDelta (path part image : List Nat) : Int :=
  (List.range 14).foldl (fun d u =>
    d + (path.getD u 0 : Int) * (if u < 6 then 2 else 1) * ((part.getD u 0 : Int) - (image.getD u 0 : Int))) 0

/-- Δ on this part for an image of a SIG_ID; 0 where the image's signature is the part's or not known. -/
def State.deltaOf (s : State) (sig : Nat) (path : List Nat) : Int :=
  match signature s.sigId, signature sig with
  | some p, some i => if s.sigId = sig then 0 else pathDelta path p i
  | _, _ => 0

/-- D′ of a balance delay. -/
def State.balance (s : State) (sig : Nat) (b : BalDecl) : Int := (b.d : Int) - s.deltaOf sig b.path

/-! A core's part of an image. -/

/-- The instruction word with its count replaced. -/
def setCount (w : BitVec 128) (d : Nat) : BitVec 128 :=
  BitVec.ofNat 128 (w.toNat - bits w.toNat 96 12 * 2 ^ 96 + (d - 1) % 4096 * 2 ^ 96)

/-- The words of a blob's instruction RAM: as compiled, but for the counts of the balance delays, which are NOPs, where the part's SIG_ID
differs from the image's (09 R250, R253). -/
def State.paddedIram (s : State) (sig : Nat) (img : Contents) (b : CoreBlob) : List (Nat × BitVec 128) :=
  if sig = s.sigId then b.iram
  else b.iram.map (fun (e : Nat × BitVec 128) =>
    match img.balances.find? (fun d => d.tile == b.tile && d.row == b.row && d.col == b.col && d.ctx == b.ctx && d.pc == e.1) with
    | some d => if (antIns e.2.toNat).cls = 5 ∧ (antIns e.2.toNat).op = 0 then (e.1, setCount e.2 (s.balance sig d).toNat) else e
    | none => e)

/-- Writes a blob into a physical core: instruction RAM, core store but for the ranges that `keep` names, and context registers,
VALID clear where `live` is not set. -/
def State.writeBlob (s : State) (sig : Nat) (img : Contents) (b : CoreBlob) (c : Nat) (live : Bool) (keep : Nat → Bool) : State :=
  let t := b.tile
  let s := (s.paddedIram sig img b).foldl (fun u (e : Nat × BitVec 128) =>
    let a := Reg.coreBase t c + 0x30000 + b.ctx * 0x2000 + e.1 % 512 * 16
    (u.wrLE a 16 e.2.toNat).setPoison a 16 false) s
  let s := s.putCells ((b.store.filter (fun (e : Nat × W8) => !keep e.1)).map (fun (e : Nat × W8) => (Reg.coreBase t c + e.1, e.2)))
  b.regs.foldl (fun u (e : Nat × W32) =>
    u.wr (Reg.ctxBase t c b.ctx + e.1) (if e.1 = 0 then setBit e.2 31 live else e.2)) s

/-- The committed image that holds a context slot. -/
def State.imageOf (s : State) (k : Nat) : Option Image := s.loader.images.find? (fun i => nbit i.mask k)

/-- SIG_ID, IMAGE_UID and C_TICK of an image (09 Table 9.2). -/
def State.imgSig (s : State) (base : Nat) : Nat := s.imgW base 0x18
def State.imgUid (s : State) (base : Nat) : Nat := s.rdLE (imgAddr base 0x28) 8

/-- The carried range of a blob: the offset in core store and the bytes that CTX_CARRY names (03 Table 3.6, R92). -/
def carriedOf (b : CoreBlob) : Nat × Nat :=
  let w := SMap.get 0 (b.regs.map (fun (e : Nat × W32) => (e.1, e.2.toNat))) 0x1C
  (w % 2 ^ 18, 32 * (w / 2 ^ 24))

/-- Writes every part that the committed images give a logical core of a tile into a physical core, with its relocations, its patch values
and in the pass that runs (03 Table 3.11 step 1; 09 R248; 17 R440). Where `keepCarried` is set, carried ranges of core store are left as
they are. -/
def State.writeCore (s : State) (t lc c : Nat) (keepCarried live : Bool) : State :=
  s.loader.images.foldl (fun u i =>
    let bs := i.img.blobs.filter (fun b => b.tile == t && 16 * b.row + b.col == lc && b.pass == u.rdF (Reg.ctxrPass b.ctx) 16 16)
    let keep := fun (o : Nat) => keepCarried && bs.any (fun b => decide ((carriedOf b).1 ≤ o ∧ o < (carriedOf b).1 + (carriedOf b).2))
    let u := bs.foldl (fun v b => v.writeBlob (v.imgSig i.base) i.img b c (live && v.ctxValid t c b.ctx)
      (fun o => keepCarried && decide ((carriedOf b).1 ≤ o ∧ o < (carriedOf b).1 + (carriedOf b).2))) u
    u.putFields i.img (fun a => Reg.coreBase t c + a % 0x40000) (fun a p => p == s.rdF (Reg.ctxrPass ((bitsOf i.mask 4).headD 0)) 16 16 &&
      decide (a < 0x100000000) && a / 0x10000000 == t && decide (a % 0x10000000 < 0x8800000) && a % 0x10000000 / 0x40000 == lc &&
      !keep (a % 0x40000)) (u.imgFields i.base i.bases i.parts i.patches)) s

/-! Freeing an image (09 R243). -/

/-- The context registers that an image sets, by offset (03 Table 3.6): all but CTX_STAT and CTX_FIRES. -/
def ctxRegs : List Nat := (List.range 8).map (4 * ·) ++ (List.range 48).map (fun i => 0x40 + 4 * i)

/-- The tables that an image's registers describe. -/
def tablesOf (img : Contents) : List Nat :=
  (List.range 64).filter (fun n => img.regInit.any (fun (e : Nat × W32) => e.1 == Reg.pt n && bit e.2 31))

/-- What becomes free with an image: its registers, monitors, fallback entries, pattern tables and schedules. -/
def State.freeImage (s : State) (i : Image) : State :=
  let mine := fun (k : Nat) => nbit i.mask k
  let ks := bitsOf i.mask 4
  let s := (tablesOf i.img).foldl (fun t n =>
    let t := (t.clearTable n).complete (fun a => a.opcode == Op.patSync && a.mask == n) Status.superseded [(rej Status.superseded).detail]
    { t with banks.patStats := t.banks.patStats.filter (fun (e : Nat × Nat) => e.1 / 4 != n) }) s
  let s := i.img.blobs.foldl (fun t b =>
    ctxRegs.foldl (fun u o => u.wr (Reg.ctxBase b.tile (u.phys b.tile (16 * b.row + b.col)) b.ctx + o) 0) t) s
  let s := i.img.regInit.foldl (fun t (e : Nat × W32) => t.wr e.1 (regReset e.1)) s
  let s := i.img.groups.foldl (fun t g =>
    let m := 16 * g.ctx + g.group
    (((t.wr (Reg.scDeadline g.tile m) 0).wr (Reg.scNominal g.tile m) 0).wr (Reg.scCtrl g.tile m)
      (setBit (t.rd (Reg.scCtrl g.tile m)) 31 false))) s
  let s := i.img.outputs.foldl (fun t d =>
    ((t.wr (Reg.fbCfg d.ctx d.out) 0).wr (Reg.fbFixedLo d.ctx d.out) 0).wr (Reg.fbFixedHi d.ctx d.out) 0) s
  let s := ks.foldl (fun t k =>
    let c := t.cx k
    let f := match c.freedAt with
      | some x => some x
      | none => some t.tick.strobes
    ((t.setCx k { CtxRun.none' with freedAt := f, lastHold := c.lastHold }).wrs
      [(Reg.ctxrState k, 0), (Reg.ctxrGapCfg k, 0), (Reg.ctxrPass k, 0)])) s
  { s with
    clk.outs := s.clk.outs.filter (fun d => !mine d.ctx),
    clk.groups := s.clk.groups.filter (fun (g : Nat × Nat) => !mine (g.2 / 16)),
    ant.trees := s.ant.trees.filter (fun e => e.1 != i.handle),
    ant.edges := s.ant.edges.filter (fun e => e.1 != i.handle),
    ant.slots := s.ant.slots.filter (fun e => e.1 != i.handle),
    ant.tensors := s.ant.tensors.filter (fun e => e.1 != i.handle),
    banks.patSlots := s.banks.patSlots.filter (fun e => e.1 != i.handle),
    banks.patRoutes := s.banks.patRoutes.filter (fun e => e.1 != i.handle),
    link.classT := s.link.classT.filter (fun (e : Nat × Nat) => !mine e.1),
    twin.taps := s.twin.taps.filter (fun (e : Nat × Nat × Nat × Nat) => !mine e.2.2.1),
    loader.images := s.loader.images.filter (fun x => x.handle != i.handle) }

end Sys2Proof.Machine
end

