-- ==== Sys2Proof/Machine/Mac.lean ====
section
/-! DEFINITION. The MAC class of Table 3.5 (03 R71; 04 R97 to R127): exact accumulation, block scales, partial slots,
narrowing, and the tensor counters. The places of operand elements within a step are read as log 16 says. -/

namespace Sys2Proof.Machine

/-- The key of a tensor's running counts: saturated, made zero, faults (04 R127). -/
def numKey (k id i : Nat) : Nat := (k * 1024 + id) * 3 + i

def State.numAdd (s : State) (k id i n : Nat) : State :=
  { s with ant.numWin := SMap.set 0 s.ant.numWin (numKey k id i) (SMap.get 0 s.ant.numWin (numKey k id i) + n) }

/-- Counts saturated elements and elements made zero of a tensor, in the window and in the totals (04 Table 4.8). -/
def State.countNum (s : State) (k id sat under : Nat) : State :=
  (((s.numAdd k id 0 sat).numAdd k id 1 under).bumpBy (Reg.num k id + 8) sat).bumpF (Reg.num k id + 12) 0 24 under

/-- A numeric fault of a core (04 R126): the code, and FAULTS of its tensor where one applies. -/
def State.numFault (s : State) (f : Firing) (code : Nat) (tensor : Option Nat) : State :=
  let s := s.raise code { die := f.tile, unit := f.core, ctx := f.ctx } (s.eventOf f.tag) (detailC f.pc tensor 0)
  match tensor with
  | some id => (s.numAdd f.ctx id 2 1).bumpF (Reg.num f.ctx id + 12) 24 8 1
  | none => s

/-- The bytes `n` elements of a format take (04 R98). -/
def elemBytes (fmt n : Nat) : Nat := if isFour fmt then (n + 1) / 2 else if fmt = Fmt.fp32 ∨ fmt = Fmt.int32 then 4 * n else n

/-- Element codes from bytes (04 R98). -/
def elemCodes (fmt n : Nat) (bs : List W8) : List Nat :=
  (List.range n).map (fun i =>
    if isFour fmt then ((bs.getD (i / 2) 0).toNat / 16 ^ (i % 2)) % 16
    else if fmt = Fmt.fp32 ∨ fmt = Fmt.int32 then ofBytesLE ((bs.drop (4 * i)).take 4)
    else if fmt = Fmt.e3m2 ∨ fmt = Fmt.e2m3 then (bs.getD i 0).toNat % 64
    else (bs.getD i 0).toNat)

/-- The bytes of element codes. -/
def codeBytes (fmt : Nat) (cs : List Nat) : List W8 :=
  if isFour fmt then
    (List.range ((cs.length + 1) / 2)).map (fun i => BitVec.ofNat 8 (cs.getD (2 * i) 0 % 16 + 16 * (cs.getD (2 * i + 1) 0 % 16)))
  else if fmt = Fmt.fp32 ∨ fmt = Fmt.int32 then cs.flatMap (fun c => bytesLE 4 c)
  else cs.map (BitVec.ofNat 8)

def isInt (fmt : Nat) : Bool := fmt == Fmt.int8 || fmt == Fmt.int4

/-- The value of an operand element (04 R99 to R102): a LUT4 index selects an entry of the descriptor's table. -/
def operandVal (desc fmt code : Nat) : Val :=
  if fmt = Fmt.int8 then Val.ofInt (toSigned 8 code) 0
  else if fmt = Fmt.int4 then Val.ofInt (toSigned 4 code) 0
  else if fmt = Fmt.lut4 then elemVal (if nbit desc 79 then Fmt.e5m2 else Fmt.e4m3) (bits desc (128 + 8 * (code % 16)) 8)
  else elemVal fmt code

/-- What one product adds to EXACT (04 R107), or none where an operand is not finite (R102). -/
def product (int : Bool) (a b : Val) : Option Int :=
  if a.isFin && b.isFin then
    (if int then some (a.n * b.n) else some (shl (a.n * b.n) (a.e + b.e + 32)))
  else none

/-- The accumulator mode of a MAC instruction (04 R104, R108), and its block size. A block of INT8 by INT4 products has the weight of FMT_A
(DESIGN CHOICE, log 27: R108 names the weights of INT8 and INT4 alone). -/
def macMode (scale fmtA : Nat) : Nat :=
  if scale = 3 then 6
  else if scale = 0 then (if isInt fmtA then 2 else 1)
  else if fmtA = Fmt.int8 then 4 else if fmtA = Fmt.int4 then 5 else 3

def macBlock (scale : Nat) : Nat := if scale = 1 then 32 else if scale = 2 then 16 else 4096

/-- The E8M0 scales of a block (04 R106): the state after they are read, X_a + X_b, or the tensor whose code is NaN, and whether a
scale was poisoned, which consumes it (07 R201). -/
def State.blockScale (s : State) (f : Firing) (desc b o : Nat) : State × Except (Option Nat) Int × Bool :=
  let aOff := bits desc 110 18 + b
  let bOff := bits desc 92 18 + o * bits desc 80 12 + b
  let ga := s.csRead f aOff 1
  let gb := (ga.used f).csRead f bOff 1
  let ca := (ga.bytes.headD 0).toNat
  let cb := (gb.bytes.headD 0).toNat
  let tensor := fun (off : Nat) => tensorOf s.ant.tensors (Reg.coreBase f.tile f.core + off)
  (gb.used f, if ca = 255 then .error (tensor aOff) else if cb = 255 then .error (tensor bOff)
    else .ok ((ca : Int) - 127 + ((cb : Int) - 127)), ga.poison || gb.poison)

/-- An accumulator as a MAC instruction of a mode finds it. An accumulator of integer sums stays one on the FN24 path; in every other
change of mode the open block is closed with its own weight and the terms go on in the new mode (DESIGN CHOICE, log 27: the spec
names no case of two modes in one accumulator). -/
def Acc.enter (a : Acc) (mode : Nat) : Acc :=
  if a.mode = mode then a
  else if mode = 6 ∧ a.mode = 2 then { a with mode := 6 }
  else if a.mode = 6 then { { a with mode := 2 }.close with mode := mode }
  else { a.close with mode := mode }

/-- Adds one term to an accumulator (04 R105 to R108, R121). Terms are counted from ACCCLR, so a block closed early goes on to its last
term with its own scale (R106). `tensor` is that of the term's operand that is not finite, `sum` that of the sum: a term counts one
ELEM_NONFINITE however many of its codes are not finite (DESIGN CHOICE, log 27: R102 says neither). A term beyond 65,536 is not
added (log 27). -/
def State.addTerm (s : State) (f : Firing) (desc scale fmtA o : Nat) (sum : Option Nat) (a : Acc) (p : Option Int)
    (tensor : Option Nat) : State × Acc :=
  let mode := macMode scale fmtA
  let bs := macBlock scale
  if mode = 6 ∧ 65536 ≤ a.terms then (s.numFault f Code.accTerms sum, { a with faulted := true })
  else
    let fresh := a.blk != a.terms / bs + 1 || a.mode != mode
    let a := a.enter mode
    let a := if a.terms % bs = 0 ∨ (fresh ∧ (scale = 1 ∨ scale = 2)) then a.close else a
    let (s, a) :=
      if fresh ∧ (scale = 1 ∨ scale = 2) then
        match s.blockScale f desc (a.terms / bs) o with
        | (s, .ok x, bad) => (s, { a with scale := x, zeroed := false, faulted := a.faulted || bad, blk := a.terms / bs + 1 })
        | (s, .error t, _) => (s.numFault f Code.scaleNan t, { a with scale := 0, zeroed := true, faulted := true, blk := a.terms / bs + 1 })
      else (s, a)
    let a := { a with exact := a.exact + p.getD 0, terms := a.terms + 1, inBlk := a.inBlk + 1 }
    let (s, a) := match p with
      | some _ => (s, a)
      | none => (s.numFault f Code.elemNonfinite tensor, { a with faulted := true })
    (s, if mode ≠ 6 ∧ a.terms % bs = 0 then a.close else a)

/-- The tensor of an operand: the one whose allocation holds its address (04 R126, 07 R201). -/
def State.tensorAt (s : State) (f : Firing) (d : Nat) : Option Nat := (srcAddr f d).bind (tensorOf s.ant.tensors)

/-- The tensor of the sums of a MAC instruction: that of SRC_B, its weights, or else of SRC_A (log 27). -/
def State.macTensor (s : State) (f : Firing) (i : AntIns) : Option Nat := (s.tensorAt f i.srcB).or (s.tensorAt f i.srcA)

/-- A term of a sum: what it adds, or none, and then the tensor of its operand that is not finite. -/
abbrev Term := Option Int × Option Nat

/-- The term of two operands. -/
def term (int : Bool) (ta tb : Option Nat) (a b : Val) : Term := (product int a b, if a.isFin then tb else ta)

/-- Adds the terms of one output in one step. -/
def State.addTerms (s : State) (f : Firing) (i : AntIns) (desc o : Nat) (sum : Option Nat) (bad : Bool) (ps : List Term) : State :=
  let set := dSet i.dst
  let n := dFirst i.dst + o
  let (s, a) := ps.foldl (fun (e : State × Acc) p => e.1.addTerm f desc (bits i.mode 2 2) i.fmtA o sum e.2 p.1 p.2)
    (s, s.accAt f.tile f.core set n)
  s.setAcc f.tile f.core set n { a with faulted := a.faulted || bad }

/-- The input descriptor that AUX names, where the instruction uses one, and whether it was poisoned. -/
def State.macDesc (s : State) (f : Firing) (i : AntIns) : State × Nat × Bool :=
  if bits i.mode 2 2 = 1 ∨ bits i.mode 2 2 = 2 ∨ i.fmtA = Fmt.lut4 ∨ i.fmtB = Fmt.lut4 then
    let g := s.csRead f (s.auxLine f i.aux) 32
    (g.used f, ofBytesLE g.bytes, g.poison)
  else (s, 0, false)

/-- The accumulators that an instruction writes from DST on: readers see them change when its latency has run (03 R73). -/
def State.shadeAccs (s : State) (f : Firing) (i : AntIns) (n : Nat) : State :=
  (List.range n).foldl (fun t o => t.shadeAcc f (dSet i.dst) (dFirst i.dst + o)) s

/-- The residue mismatches among the `n` accumulators that an instruction wrote: each is reported and its accumulator faulted
(04 R125). -/
def State.resAccs (s : State) (f : Firing) (i : AntIns) (res : List Nat) (n : Nat) (tensor : Option Nat) : State :=
  ((List.range n).filter res.elem).foldl (fun t o =>
    (t.resFault f tensor).setAcc f.tile f.core (dSet i.dst) (dFirst i.dst + o)
      { t.accAt f.tile f.core (dSet i.dst) (dFirst i.dst + o) with faulted := true }) s

/-- ACCCLR: AUX[5:0] + 1 accumulators of a set from the first on; the write of EXACT and XF is checked (04 R124). -/
def accclrBody (res : List Nat) (s : State) (f : Firing) (i : AntIns) : State :=
  ((List.range (bits i.aux 0 6 + 1)).foldl
    (fun t n => (t.shadeAcc f (dSet i.dst) (dFirst i.dst + n)).setAcc f.tile f.core (dSet i.dst) (dFirst i.dst + n) Acc.zero) s).resAccs f i res
      (bits i.aux 0 6 + 1) none

def execAccclr (tile core : Nat) (s : State) (m : AntMeas := {}) : Host.Outcome State Fault Refusal :=
  s.onUnit (coreOk tile core) (s.antRun tile core 1 0 m (accclrBody m.res))

/-- Whether both operand formats have 4 bits, so that a step has 128 lanes (04 R103). -/
def fourBit (i : AntIns) : Bool := (i.fmtA == Fmt.e2m1 || i.fmtA == Fmt.int4) && (i.fmtB == Fmt.e2m1 || i.fmtB == Fmt.int4)

/-- The slice of a list for output `o` of a step. -/
def slice {α : Type} (l : List α) (o n : Nat) : List α := (l.drop (o * n)).take n

/-- DOT: CNT steps of SHAPE (outputs × terms), terms doubled where both formats have 4 bits (03 Table 3.5, 04 R103). -/
def dotBody (res : List Nat) (s : State) (f : Firing) (i : AntIns) : State :=
  let outs := 2 ^ bits i.mode 0 2
  let terms := (if fourBit i then 128 else 64) / outs
  let sum := s.macTensor f i
  let ta := s.tensorAt f i.srcA
  let tb := s.tensorAt f i.srcB
  let (s, desc, dbad) := s.macDesc f i
  let s := (List.range i.cnt).foldl (fun t n =>
    let ga := t.srcBytes f i.srcA i.step n (elemBytes i.fmtA terms)
    let gb := (ga.used f).srcBytes f i.srcB i.step n (elemBytes i.fmtB (terms * outs))
    let as := (elemCodes i.fmtA terms ga.bytes).map (operandVal desc i.fmtA)
    let bs := (elemCodes i.fmtB (terms * outs) gb.bytes).map (operandVal desc i.fmtB)
    (List.range outs).foldl (fun t o =>
      t.addTerms f i desc o sum (dbad || ga.poison || (slice gb.marks o (elemBytes i.fmtB terms)).any id)
        (List.zipWith (term (isInt i.fmtA) ta tb) as (slice bs o terms))) (gb.used f)) (s.shadeAccs f i outs)
  s.resAccs f i res outs sum

def execDot (tile core : Nat) (m : AntMeas) (s : State) : Host.Outcome State Fault Refusal :=
  s.onUnit (coreOk tile core) (s.antRun tile core 1 1 m (dotBody m.res))

/-- OUTP: CNT steps, each one SRC_A element times a 64-element SRC_B row into 64 accumulators; where both formats have 4 bits, two
elements times two rows (04 R103; log 16). -/
def outpBody (res : List Nat) (s : State) (f : Firing) (i : AntIns) : State :=
  let rows := if fourBit i then 2 else 1
  let sum := s.macTensor f i
  let ta := s.tensorAt f i.srcA
  let tb := s.tensorAt f i.srcB
  let (s, desc, dbad) := s.macDesc f i
  let s := (List.range i.cnt).foldl (fun t n =>
    let ga := t.srcBytes f i.srcA i.step n (elemBytes i.fmtA rows)
    let gb := (ga.used f).srcBytes f i.srcB i.step n (elemBytes i.fmtB (64 * rows))
    let as := (elemCodes i.fmtA rows ga.bytes).map (operandVal desc i.fmtA)
    let bs := (elemCodes i.fmtB (64 * rows) gb.bytes).map (operandVal desc i.fmtB)
    (List.range 64).foldl (fun t o =>
      t.addTerms f i desc o sum (dbad || ga.poison || gb.poison)
        ((List.range rows).map (fun r => term (isInt i.fmtA) ta tb (as.getD r Val.zero) (bs.getD (64 * r + o) Val.zero)))) (gb.used f))
    (s.shadeAccs f i 64)
  s.resAccs f i res 64 sum

def execOutp (tile core : Nat) (m : AntMeas) (s : State) : Host.Outcome State Fault Refusal :=
  s.onUnit (coreOk tile core) (s.antRun tile core 1 2 m (outpBody m.res))

/-! XADD (04 R111). -/

/-- A slot read from 128 bits. -/
def slotOf (n : Nat) : Slot :=
  { kind := bits n 126 2, faulted := nbit n 125, terms := bits n 108 17,
    exact := if bits n 126 2 = 1 ∨ bits n 126 2 = 2 then toSigned 88 n else 0,
    xf := if bits n 126 2 = 3 then XF.ofCode n else XF.zero }

/-- An exact term as extended float, with the per-tensor weight. -/
def Slot.toXf (x : Slot) : XF :=
  match x.kind with
  | 1 => rne48 (Val.ofInt x.exact (-32))
  | 2 => rne48 (Val.ofInt x.exact 0)
  | 3 => x.xf
  | _ => XF.zero

/-- The sum of two terms (04 R111). On the FN24 path, `fn24`, an integer sum stays exact; one beyond 65,536 terms carries FAULTED
(R108, R110, R121). -/
def addSlots (fn24 : Bool) (x y : Slot) : Slot :=
  let fa := x.faulted || y.faulted
  if x.kind = 0 then { y with faulted := fa }
  else if y.kind = 0 then { x with faulted := fa }
  else if fn24 && x.kind == 2 && y.kind == 2 then
    { x with faulted := fa || decide (65536 < x.terms + y.terms), terms := x.terms + y.terms, exact := x.exact + y.exact }
  else if x.kind = y.kind ∧ (x.kind = 1 ∨ x.kind = 2) ∧ x.terms + y.terms ≤ 4096 then
    { x with faulted := fa, terms := x.terms + y.terms, exact := x.exact + y.exact }
  else { kind := 3, faulted := fa, terms := x.terms + y.terms, exact := 0, xf := x.toXf.add y.toXf }

/-- An accumulator `old` with the term that an addition gave it. One of a block-scaled mode stays in it (R110), with the scale of the block
it is in (R106). -/
def Slot.toAcc (x : Slot) (fn24 : Bool) (old : Acc) : Acc :=
  let a := { Acc.zero with faulted := x.faulted, terms := x.terms }
  match x.kind with
  | 0 => { a with terms := 0 }
  | 1 => { a with exact := x.exact, mode := 1, inBlk := x.terms }
  | 2 => { a with exact := x.exact, mode := if fn24 then 6 else 2, inBlk := x.terms }
  | _ =>
    if 3 ≤ old.mode ∧ old.mode ≤ 5 then { a.setXf x.xf with mode := old.mode, scale := old.scale, zeroed := old.zeroed, blk := old.blk }
    else { a.setXf x.xf with mode := 1 }

/-! Where sums are on the FN24 path (04 R104, R121). -/

/-- The scale modes of the DOTs and OUTPs of a blob. -/
def dotModes (b : CoreBlob) : List Nat :=
  b.iram.filterMap (fun (e : Nat × BitVec 128) =>
    let i := antIns e.2.toNat
    if i.cls = 1 ∧ (i.op = 1 ∨ i.op = 2) then some (bits i.mode 2 2) else none)

/-- Whether a route of a blob leads to the core of another of its context (03 Table 3.8, R86, R88). -/
def feeds (img : Contents) (x y : CoreBlob) : Bool :=
  x.ctx == y.ctx && x.regs.any (fun (e : Nat × W32) =>
    0x80 ≤ e.1 && decide (e.1 < 0xC0) && bit e.2 31 &&
    (match fld e.2 28 3 with
     | 0 => x.tile == y.tile && fld e.2 20 5 == y.row && fld e.2 16 4 == y.col
     | 1 => x.tile == y.tile && img.trees.any (fun t => t.tile == x.tile && t.id == fld e.2 16 8 && nbit t.mask (16 * y.row + y.col))
     | 2 => decide (fld e.2 16 9 < 64) && fld e.2 16 9 / 4 == y.tile && 8 * (fld e.2 16 9 % 4) + 3 == y.row && y.col == 15
     | _ => false))

/-- Blobs, with those that feed one of them that has no DOT or OUTP of its own, and so on back. -/
def feedersOf (img : Contents) : Nat → List CoreBlob → List CoreBlob
  | 0, l => l
  | n + 1, l =>
    let m := img.blobs.filter (fun x => !l.contains x && l.any (fun y => (dotModes y).isEmpty && feeds img x y))
    if m.isEmpty then l else feedersOf img n (l ++ m)

/-- Whether what a blob sums comes of a DOT or OUTP of the FN24 path, its own or, where it has none, of the blobs that feed it. -/
def fn24Of (img : Contents) (b : CoreBlob) : Bool := (feedersOf img img.blobs.length [b]).any (fun x => (dotModes x).elem 3)

/-- Whether the core of a firing sums on the FN24 path. -/
def State.fn24 (s : State) (f : Firing) : Bool :=
  s.loader.images.any (fun m => some m.handle == (s.cx f.ctx).image && m.img.blobs.any (fun b =>
    b.ctx == f.ctx && b.tile == f.tile && s.logical f.tile f.core == some (16 * b.row + b.col) && fn24Of m.img b))

/-- Whether XADD into an accumulator sums integer slots on the FN24 path. Table 4.4 gives FN24 and native INT8 partials one KIND, 0b10,
and XADD has no MODE: the accumulator's own mode decides where it has one; otherwise the core is taken to be on the FN24 path
where its image sums there (`fn24Of`), or where a slot of KIND 0b10 holds more than 4,096 terms, which no native one does
(DESIGN CHOICE, log 27). -/
def State.xaddFn24 (s : State) (f : Firing) (a : Acc) (xs : List Slot) : Bool :=
  a.mode == 6 || (a.mode != 2 && s.fn24 f) || xs.any (fun x => x.kind == 2 && decide (4096 < x.terms))

/-- XADD into one accumulator: (DST + SRC_A) + SRC_B, with the residue check of each slot received (04 R111, R124); an FN24 sum beyond
65,536 terms raises ACC_TERMS (R121). -/
def State.xaddOne (s : State) (f : Firing) (i : AntIns) (o : Nat) (xs : List Nat) (bad : Bool) : State :=
  let set := dSet i.dst
  let n := dFirst i.dst + o
  let a := s.accAt f.tile f.core set n
  let slots := xs.map slotOf
  let fn24 := s.xaddFn24 f a slots
  let wrong := xs.any (fun w => bits w 126 2 != 0 && bits w 105 3 != slotRes (slotOf w).kind (slotOf w).exact (slotOf w).xf)
  let s := if wrong then s.resFault f (s.macTensor f i) else s
  let r := slots.foldl (addSlots fn24) a.toSlot.1
  let s := if r.kind = 2 ∧ 65536 < r.terms then s.numFault f Code.accTerms (s.macTensor f i) else s
  let r := r.toAcc fn24 a
  s.setAcc f.tile f.core set n { r with faulted := r.faulted || bad || wrong }

/-- XADD: CNT flits, each of two partial slots (03 Table 3.5). -/
def xaddBody (res : List Nat) (s : State) (f : Firing) (i : AntIns) : State :=
  let two := dKind i.srcB != Kind.none
  let s := (List.range i.cnt).foldl (fun t n =>
    let ga := t.srcBytes f i.srcA i.step n 32
    let gb := if two then (ga.used f).srcBytes f i.srcB i.step n 32 else ⟨ga.used f, [], [], 0⟩
    let w := fun (l : List W8) (j : Nat) => ofBytesLE (slice l j 16)
    (List.range 2).foldl (fun t j =>
      t.xaddOne f i (2 * n + j) (w ga.bytes j :: (if two then [w gb.bytes j] else [])) (ga.poison || gb.poison)) (gb.used f))
    (s.shadeAccs f i (2 * i.cnt))
  s.resAccs f i res (2 * i.cnt) (s.macTensor f i)

def execXadd (tile core : Nat) (m : AntMeas) (s : State) : Host.Outcome State Fault Refusal :=
  s.onUnit (coreOk tile core) (s.antRun tile core 1 3 m (xaddBody m.res))

/-! Narrowing results into vector registers (04 R113 to R118). -/

/-- The output descriptor's fields (04 Table 4.5). -/
structure OutDesc where
  scale : W32
  bscale : Nat
  block : Nat
  ieee : Bool
  full : Bool
  tensor : Nat
  deriving DecidableEq, Repr

def outDesc (w : Nat) : OutDesc :=
  { scale := BitVec.ofNat 32 (bits w 224 32), bscale := bits w 206 18, block := bits w 204 2, ieee := nbit w 203,
    full := nbit w 202, tensor := bits w 190 10 }

/-- The elements of a block of block-scaled output. -/
def blockOf (b : Nat) : Nat := if b = 1 then 32 else 16

/-- Narrows values to a format; with MX or fine blocks each block has its scale code (04 R114 to R117). -/
def narrowAll (d : OutDesc) (fmt : Nat) (vs : List Val) : List Nat × List Narrowed :=
  if d.block = 0 then ([], vs.map (narrow fmt d.ieee d.full))
  else
    let n := blockOf d.block
    (List.range (ceilDiv vs.length n)).foldl (fun (e : List Nat × List Narrowed) b =>
      let (x, rs) := narrowBlock fmt d.ieee d.full ((vs.drop (b * n)).take n)
      (e.1 ++ [x], e.2 ++ rs)) ([], [])

/-- Writes bytes into a vector register and those after it, keeping every other byte (log 16); `bad` are the faulted byte
places. A lane written is poisoned where a byte of it is faulted, and one written in part keeps the mark it had (07 R199). -/
def State.vrPack (s : State) (f : Firing) (r : Nat) (bs : List W8) (bad : List Nat) : State :=
  (List.range (ceilDiv bs.length 64)).foldl (fun t n =>
    let old := t.vr f.tile f.core (r + n)
    let part := (bs.drop (64 * n)).take 64
    let keep := old.toNat - bits old.toNat 0 (8 * part.length)
    let v := BitVec.ofNat 512 (keep + ofBytesLE part)
    let written := natOf 16 (fun l => decide (4 * l + 4 ≤ part.length))
    let hit := natOf 16 (fun l => bad.any (fun b => b / 64 == n && b % 64 / 4 == l))
    let pm := t.vrPoison f.tile f.core (r + n)
    t.putVr f (r + n) v (Nat.lor (pm - Nat.land pm written) hit)) s

/-- The byte places of element `e` of a format. -/
def elemPlaces (fmt e : Nat) : List Nat :=
  if isFour fmt then [e / 2] else if fmt = Fmt.fp32 ∨ fmt = Fmt.int32 then [4 * e, 4 * e + 1, 4 * e + 2, 4 * e + 3] else [e]

/-- The marks of the scale codes of block-scaled output: a code computed from a faulted element is poisoned (04 R126). -/
def scaleMarks (block : Nat) (flt : List Bool) (b : Nat) : List Bool := [(slice flt b (blockOf block)).any id]

/-- Stores narrowed results: scale codes, packed codes, counts and ELEM_NONFINITE (04 R115 to R118). -/
def State.putNarrow (s : State) (f : Firing) (d : OutDesc) (fmt r : Nat) (scales : List Nat) (rs : List Narrowed)
    (bad : List Bool) : State :=
  let flt := List.zipWith (fun (n : Narrowed) b => n.nonfinite || b) rs bad
  let s := (scales.mapIdx (fun i x => (i, x))).foldl (fun t e =>
    t.csWrite f (d.bscale + e.1) [BitVec.ofNat 8 e.2] (scaleMarks d.block flt e.1)) s
  let places := (flt.mapIdx (fun i b => (i, b))).flatMap (fun e => if e.2 then elemPlaces fmt e.1 else [])
  let s := s.vrPack f r (codeBytes fmt (rs.map (·.code))) places
  let s := s.countNum f.ctx d.tensor (rs.foldl (fun n x => n + x.sat) 0) (rs.foldl (fun n x => n + x.under) 0)
  (rs.filter (·.nonfinite)).foldl (fun t _ => t.numFault f Code.elemNonfinite (some d.tensor)) s

/-- One accumulator scaled, biased and activated (04 R113 steps 1 to 3). -/
def outValue (d : OutDesc) (relu : Bool) (bias : Option W32) (a : Acc) : Val :=
  let v1 := (rne48 (Val.mul a.close.xf.val (f32Val d.scale))).val
  let v2 := match bias with
    | none => v1
    | some b =>
      let x := f32Val b
      if x.nan then Val.nanV else if x.inf then x else (rne48 (Val.add v1 x)).val
  if relu ∧ v2.nan = false ∧ v2.neg then Val.zero else v2

/-- The FN24 result of one accumulator (04 R122): sat32(EXACT + bias), clamped at 0 by ReLU. -/
def fn24Value (relu : Bool) (bias : Option W32) (a : Acc) : Narrowed :=
  let x := a.exact + (match bias with | some b => b.toInt | none => 0)
  let hi : Int := 2 ^ 31 - 1
  let lo : Int := -(2 ^ 31)
  let r := if hi < x then (hi, 1) else if x < lo then (lo, 1) else (x, 0)
  ⟨ofSigned 32 (if relu ∧ r.1 < 0 then 0 else r.1), r.2, 0, false⟩

/-- ACCOUT (04 R113, R122): CNT accumulators of SRC_A into vector registers from DST on. They are read on the FN24 path where a sum is
one (`State.xaddFn24`), and, where none has a term, where the core sums there. -/
def accoutBody (res : List Nat) (s : State) (f : Firing) (i : AntIns) : State :=
  let set := dSet i.srcA
  let first := dFirst i.srcA
  let g := s.csRead f (s.auxLine f i.aux) 32
  let s := g.used f
  let d := outDesc (ofBytesLE g.bytes)
  let relu := bits i.mode 0 2 == 1
  let useBias := nbit i.mode 3
  let as := (List.range i.cnt).map (fun n => s.accSeen f set (first + n))
  let br := fun n => s.vrSeen f (dReg i.srcB + n / 16)
  let bias := fun n => if useBias then some (lane (br n).1 (n % 16)) else none
  let bp := fun n => useBias && nbit (br n).2 (n % 16)
  let s := match (List.range i.cnt).find? bp with
    | some n => s.consume f (regPlace f (dReg i.srcB + n / 16))
    | none => s
  let bad := as.mapIdx (fun n a => a.faulted || bp n || g.poison || res.elem n)
  let s := (List.range i.cnt).foldl (fun t n =>
    t.setAcc f.tile f.core set (first + n) (t.accAt f.tile f.core set (first + n)).close) s
  let s := s.resFaults f res i.cnt (some d.tensor)
  if as.any (fun a => a.mode == 6) || (as.all (fun a => a.terms == 0) && s.fn24 f) then
    s.putNarrow f d Fmt.int32 (dReg i.dst) [] (as.mapIdx (fun n a => fn24Value relu (bias n) a)) bad
  else
    let (xs, rs) := narrowAll d i.fmtA (as.mapIdx (fun n a => outValue d relu (bias n) a))
    s.putNarrow f d i.fmtA (dReg i.dst) xs rs bad

def execAccout (tile core : Nat) (m : AntMeas) (s : State) : Host.Outcome State Fault Refusal :=
  s.onUnit (coreOk tile core) (s.antRun tile core 1 4 m (accoutBody m.res))

end Sys2Proof.Machine
end

