-- ==== Sys2Proof/Machine/Vector.lean ====
section
/-! DEFINITION. The vector class of Table 3.5 (03 R71; 04 R119, R120, R123). -/

namespace Sys2Proof.Machine

/-- The mask of the lanes that results name. -/
def resMask (res : List Nat) : Nat := natOf 16 res.elem

/-- An FP32 elementwise operation over one or two operands and a third, the destination: a lane computed from a poisoned lane
is poisoned and its consumption reported (07 R201), as is one whose residue check fails (04 R125). -/
def State.vecOp (s : State) (f : Firing) (i : AntIns) (res : List Nat) (useDst : Bool) (op : W32 → W32 → W32 → W32) : State :=
  let a := s.srcLanes f i.srcA
  let b := (a.used f).srcLanes f i.srcB
  let s := b.used f
  let d := dReg i.dst
  let c : Lanes := if useDst then s.srcLanes f i.dst else ⟨s, [], 0, 0⟩
  let s := (c.used f).resFaults f res 16 none
  let rs := (List.range 16).map (fun n => op (a.vals.getD n 0) (b.vals.getD n 0) (c.vals.getD n 0))
  s.putVr f d (ofLanes rs) (Nat.lor (Nat.lor (Nat.lor a.mask b.mask) c.mask) (resMask res))

def vaddBody (res : List Nat) (s : State) (f : Firing) (i : AntIns) : State :=
  s.vecOp f i res false (fun a b _ => f32Add a b)

def execVadd (tile core : Nat) (m : AntMeas) (s : State) : Host.Outcome State Fault Refusal :=
  s.onUnit (coreOk tile core) (s.antRun tile core 2 0 m (vaddBody m.res))

def vmulBody (res : List Nat) (s : State) (f : Firing) (i : AntIns) : State :=
  s.vecOp f i res false (fun a b _ => f32Mul a b)

def execVmul (tile core : Nat) (m : AntMeas) (s : State) : Host.Outcome State Fault Refusal :=
  s.onUnit (coreOk tile core) (s.antRun tile core 2 1 m (vmulBody m.res))

def vmaxBody (res : List Nat) (s : State) (f : Firing) (i : AntIns) : State :=
  s.vecOp f i res false (fun a b _ => f32Pick true a b)

def execVmax (tile core : Nat) (m : AntMeas) (s : State) : Host.Outcome State Fault Refusal :=
  s.onUnit (coreOk tile core) (s.antRun tile core 2 2 m (vmaxBody m.res))

def vminBody (res : List Nat) (s : State) (f : Firing) (i : AntIns) : State :=
  s.vecOp f i res false (fun a b _ => f32Pick false a b)

def execVmin (tile core : Nat) (m : AntMeas) (s : State) : Host.Outcome State Fault Refusal :=
  s.onUnit (coreOk tile core) (s.antRun tile core 2 3 m (vminBody m.res))

/-- VFMA: SRC_A × SRC_B + DST into DST, one rounding; the addend is the destination register, for Table 3.5 names no third source
(log 16). -/
def vfmaBody (res : List Nat) (s : State) (f : Firing) (i : AntIns) : State :=
  s.vecOp f i res true f32Fma

def execVfma (tile core : Nat) (m : AntMeas) (s : State) : Host.Outcome State Fault Refusal :=
  s.onUnit (coreOk tile core) (s.antRun tile core 2 4 m (vfmaBody m.res))

/-- VCMP: the 16-bit mask of the lanes where the comparison holds, into bits [15:0] of DST, whose other bits keep their value
(log 19). The mask stands in lane 0, whose write the residue shadow checks (04 R124); a mark on the lane stays, for the write covers a part
of it. -/
def vcmpBody (res : List Nat) (s : State) (f : Firing) (i : AntIns) : State :=
  let a := s.srcLanes f i.srcA
  let b := (a.used f).srcLanes f i.srcB
  let s := (b.used f).resFaults f res 1 none
  let d := dReg i.dst
  let m := natOf 16 (fun n => f32Cmp (bits i.mode 0 2) (a.vals.getD n 0) (b.vals.getD n 0))
  let old := (s.vr f.tile f.core d).toNat
  let p := s.vrPoison f.tile f.core d
  let p := if a.mask ≠ 0 ∨ b.mask ≠ 0 ∨ res.elem 0 then Nat.lor p 1 else p
  s.putVr f d (BitVec.ofNat 512 (old - old % 65536 + m)) p

def execVcmp (tile core : Nat) (s : State) (m : AntMeas := {}) : Host.Outcome State Fault Refusal :=
  s.onUnit (coreOk tile core) (s.antRun tile core 2 5 m (vcmpBody m.res))

/-- VSEL: lane n of SRC_A where bit n of the mask in DST's low 16 bits is set, otherwise of SRC_B (log 19). -/
def vselBody (res : List Nat) (s : State) (f : Firing) (i : AntIns) : State :=
  let x := s.vrSeen f (dReg i.dst)
  let m := x.1.toNat % 65536
  let pm := x.2 % 2
  let s := if pm ≠ 0 then s.consume f (regPlace f (dReg i.dst)) else s
  let a := s.srcLanes f i.srcA
  let b := (a.used f).srcLanes f i.srcB
  let s := (b.used f).resFaults f res 16 none
  let rs := (List.range 16).map (fun n => if nbit m n then a.vals.getD n 0 else b.vals.getD n 0)
  let p := natOf 16 (fun n => pm != 0 || (if nbit m n then nbit a.mask n else nbit b.mask n))
  s.putVr f (dReg i.dst) (ofLanes rs) (Nat.lor p (resMask res))

def execVsel (tile core : Nat) (s : State) (m : AntMeas := {}) : Host.Outcome State Fault Refusal :=
  s.onUnit (coreOk tile core) (s.antRun tile core 2 6 m (vselBody m.res))

/-- VCVT: elements of SRC_A in format FMT_B narrowed or widened to FMT_A with the descriptor line AUX names (04 R113, R119);
16 elements, or 32 of two registers for MX output. Widening applies no scale: R119 speaks of a scaled value, and no descriptor gives VCVT an
input scale (DESIGN CHOICE, log 27). -/
def vcvtBody (res : List Nat) (s : State) (f : Firing) (i : AntIns) : State :=
  let g := s.csRead f (s.auxLine f i.aux) 32
  let d := outDesc (ofBytesLE g.bytes)
  let n := if d.block = 1 then 32 else 16
  let src := (g.used f).srcBytes f i.srcA 0 0 128
  let codes := elemCodes i.fmtB n src.bytes
  let bad := (List.range n).map (fun e => (elemPlaces i.fmtB e).any (fun b => src.marks.getD b false))
  let s := if bad.any id then src.st.consume f src.at' else src.st
  let (xs, rs) := narrowAll d i.fmtA (codes.map (codeVal i.fmtB))
  (s.resFaults f res n (some d.tensor)).putNarrow f d i.fmtA (dReg i.dst) xs rs
    (bad.mapIdx (fun e b => b || g.poison || res.elem e))

def execVcvt (tile core : Nat) (m : AntMeas) (s : State) : Host.Outcome State Fault Refusal :=
  s.onUnit (coreOk tile core) (s.antRun tile core 2 7 m (vcvtBody m.res))

/-- VRSC: each INT32 lane rescaled by the descriptor of Table 4.6 (04 R123). -/
def vrscBody (res : List Nat) (s : State) (f : Firing) (i : AntIns) : State :=
  let g := s.csRead f (s.auxLine f i.aux) 32
  let w := ofBytesLE g.bytes
  let perLane := nbit w 255
  let gt := if perLane then (g.used f).csRead f (bits w 222 18) 128 else ⟨g.used f, [], [], 0⟩
  let width := if nbit w 252 then 4 else 8
  let hi : Int := 2 ^ (width - 1) - 1
  let lo : Int := if nbit w 253 then -(2 ^ (width - 1)) else -hi
  let zp := toSigned 8 (bits w 214 8)
  let a := (gt.used f).srcLanes f i.srcA
  let ent := fun n => ofBytesLE (slice gt.bytes n 8)
  let rs := a.vals.mapIdx (fun n x =>
    let m := if perLane then bits (ent n) 6 31 else bits w 177 31
    let sh := if perLane then bits (ent n) 0 6 else bits w 208 6
    vrsc x.toInt m sh zp (nbit w 254) lo hi)
  let s := ((a.used f).resFaults f res 16 (some (bits w 240 10))).countNum f.ctx (bits w 240 10) (rs.foldl (fun n x => n + x.2) 0) 0
  let entBad := natOf 16 (fun n => (slice gt.marks n 8).any id)
  s.putVr f (dReg i.dst) (ofLanes (rs.map (fun x => BitVec.ofInt 32 x.1)))
    (if g.poison then 65535 else Nat.lor (Nat.lor a.mask entBad) (resMask res))

def execVrsc (tile core : Nat) (m : AntMeas) (s : State) : Host.Outcome State Fault Refusal :=
  s.onUnit (coreOk tile core) (s.antRun tile core 2 8 m (vrscBody m.res))

end Sys2Proof.Machine
end

