-- ==== Sys2Proof/Machine/Sfu.lean ====
section
/-! DEFINITION. The special-function units (05): calls, engines, results and key-value banks. -/

namespace Sys2Proof.Machine

/-- The parameter set a call names (05 Table 5.2), 256 bits. -/
def State.psetOf (s : State) (t g k p : Nat) : Nat :=
  ofWordsLE ((List.range 8).map (fun i => s.rd (Reg.sfuPset t g k p + 4 * i)))

def dimOf (c : Nat) : Nat := match c with | 0 => 16 | 1 => 32 | _ => 64

structure Pset where
  fn : Nat
  tensor : Nat
  table : Nat
  edge : Bool
  wlog : Int
  nMax : Nat
  d : Nat
  dv : Nat
  kvFmt : Nat
  qFmt : Nat
  x0 : W32
  lo : W32
  hi : W32
  keyFmt : Nat
  desc : Bool
  k : Nat
  deriving DecidableEq, Repr

def pset (w : Nat) : Pset :=
  { fn := bits w 250 6, tensor := bits w 240 10, table := bits w 236 4, edge := nbit w 235, wlog := toSigned 8 (bits w 227 8),
    nMax := bits w 232 8 + 1, d := dimOf (bits w 230 2), dv := dimOf (bits w 228 2),
    kvFmt := bits w 227 1, qFmt := bits w 226 1, x0 := BitVec.ofNat 32 (bits w 96 32),
    lo := BitVec.ofNat 32 (bits w 32 32), hi := BitVec.ofNat 32 (bits w 0 32), keyFmt := bits w 9 2, desc := nbit w 8,
    k := bits w 0 8 + 1 }

/-- Whether a parameter set of function `set` serves a call of function `fn`: KV_LOAD and ATTEND calls on one set of keys name one set
(05 R139), so ATTEND's serves a KV_LOAD (DEDUCED, log 28). -/
def fnFits (fn set : Nat) : Bool := fn == set || (fn == 5 && set == 6)

/-- Functions of Table 5.1. -/
def engineOf (fn : Nat) : Nat := if fn = 0 then 0 else if fn = 1 then 1 else if fn ≤ 4 then 2 else 3

/-- Result flits of a call (05 Table 5.1). -/
def resultFlits (fn cnt : Nat) (p : Pset) : Nat :=
  match fn with
  | 0 => ceilDiv p.k 4
  | 5 => 0
  | 6 => p.dv / 8
  | _ => cnt

/-- L_f (05 Table 5.1). -/
def sfuLatency (fn : Nat) (p : Pset) : Nat :=
  match fn with
  | 0 => 48
  | 1 => 14
  | 2 => 12
  | 3 => 10
  | 4 => 40
  | 5 => 2
  | _ => 20 + ceilDiv (p.nMax * p.d) 256 + ceilDiv (p.nMax * p.dv) 256

/-- The interval of an engine after a call (05 Table 5.1). -/
def sfuInterval (fn cnt : Nat) (p : Pset) : Nat :=
  match fn with
  | 0 => 4
  | 4 => 2 * cnt
  | 5 => 0
  | 6 => max (ceilDiv (p.nMax * p.d) 256) (ceilDiv (p.nMax * p.dv) 256)
  | _ => cnt

/-- What a function gives: its result words, and what it counts and raises. -/
structure SfuVal where
  words : List W32
  sat : Nat
  under : Nat
  nonfinite : Bool
  deriving DecidableEq, Repr

def flitWords (d : BitVec 256) : List W32 := (List.range 8).map (fun i => d.extractLsb' (32 * i) 32)
def ofWords256 (l : List W32) : BitVec 256 := BitVec.ofNat 256 (ofWordsLE l)
def wordsFlits (n : Nat) (l : List W32) : List (BitVec 256) := (List.range n).map (fun i => ofWords256 ((l.drop (8 * i)).take 8))

/-! SORT (05 R141). -/

/-- Whether key a comes strictly before key b ascending. -/
def keyLt (fmt : Nat) (a b : W32) : Bool :=
  match fmt with
  | 0 => if (f32Val a).nan then false else if (f32Val b).nan then true else f32Lt a b
  | 1 => decide (a.toInt < b.toInt)
  | _ => decide (a.toNat < b.toNat)

/-- Inserts an item (key, payload) behind every item that does not come after it: equal keys keep their order. -/
def sortIns (lt : W32 → W32 → Bool) (x : W32 × W32) : List (W32 × W32) → List (W32 × W32)
  | [] => [x]
  | y :: r => if lt x.1 y.1 then x :: y :: r else y :: sortIns lt x r

def sortItems (lt : W32 → W32 → Bool) (l : List (W32 × W32)) : List (W32 × W32) :=
  l.foldl (fun acc x => sortIns lt x acc) []

def pairsOf : List W32 → List (W32 × W32)
  | p :: k :: r => (k, p) :: pairsOf r
  | _ => []

def sortFn (p : Pset) (ws : List W32) : SfuVal :=
  let lt := if p.desc then (fun a b => keyLt p.keyFmt b a) else keyLt p.keyFmt
  let out := (sortItems lt (pairsOf ws)).take p.k
  ⟨out.flatMap (fun e => [e.2, e.1]), 0, 0, false⟩

/-! PWP (05 R142). -/

/-- One fused step that keeps intermediate results in binary32. -/
def fmaRnd (a b c : W32) : W32 := f32Fma a b c

/-- A result beyond the maximum saturates to it and counts SAT. An inner step that overflows goes on as infinity, and a NaN that comes of it
gives 0 as a NaN input does (DESIGN CHOICE, log 28: R142 speaks of the result alone). -/
def satF32 (w : W32) : Narrowed :=
  let v := f32Val w
  if v.nan then ⟨0, 0, 0, true⟩ else if v.inf then ⟨f32Sign v.neg + f32Max, 1, 0, false⟩ else ⟨w.toNat, 0, 0, false⟩

/-- PWP of one item (05 R142). With EDGE = 1 an infinity gives the saturated result of its own sign (DESIGN CHOICE, log 28: R142 names no
sign). -/
def State.pwpOne (s : State) (t g : Nat) (p : Pset) (x : W32) : Narrowed :=
  let v := f32Val x
  let x0 := f32Val p.x0
  if v.nan then ⟨0, 0, 0, true⟩
  else if v.inf then
    (if p.edge then ⟨f32Sign v.neg + f32Max, 1, 0, false⟩ else ⟨(if v.neg then p.lo else p.hi).toNat, 0, 0, false⟩)
  else
    let d := Val.add v (Val.fin (!x0.neg) x0.m x0.e)
    let i := shl d.n (d.e - p.wlog)
    let seg := if i < 0 then 0 else if 255 < i then 255 else i.toNat
    if (i < 0 ∨ 255 < i) ∧ p.edge = false then ⟨(if i < 0 then p.lo else p.hi).toNat, 0, 0, false⟩
    else
      let tt := f32Round (Val.add d (Val.ofInt (-(seg : Int)) p.wlog))
      let a := Reg.pwpTable t g p.table + seg * 16
      let c := fun (j : Nat) => s.rd (a + 4 * j)
      satF32 (fmaRnd (fmaRnd (fmaRnd (c 3) tt (c 2)) tt (c 1)) tt (c 0))

def elementwise (fn : W32 → Narrowed) (ws : List W32) : SfuVal :=
  let rs := ws.map fn
  ⟨rs.map (fun r => BitVec.ofNat 32 r.code), rs.foldl (fun n r => n + r.sat) 0, rs.foldl (fun n r => n + r.under) 0,
   rs.any (·.nonfinite)⟩

/-! SOFTMAX and ATTEND (05 R144, R146). -/

/-- The exact sum of binary32 values, rounded once. -/
def sumF32 (l : List W32) : W32 := f32Round (l.foldl (fun a w => Val.add a (f32Val w)) Val.zero)

def maxF32 (l : List W32) : W32 :=
  match l with
  | [] => 0
  | x :: r => r.foldl (fun a w => if f32Lt a w then w else a) x

def negF32 (w : W32) : W32 := w ^^^ 0x80000000#32

/-- Exponentials against the maximum, their reciprocal sum, the counts of EXP and RECIP, and whether one of them had a NaN input (05
R143). -/
def softParts (xs : List W32) : List W32 × W32 × Nat × Nat × Bool :=
  let m := maxF32 xs
  let es := xs.map (fun x => f32Exp (f32Add x (negF32 m)))
  let ws := es.map (fun r => BitVec.ofNat 32 r.code)
  let r := f32Recip (sumF32 ws)
  (ws, BitVec.ofNat 32 r.code, es.foldl (fun n r => n + r.sat) r.sat, es.foldl (fun n r => n + r.under) r.under,
    es.any (·.nonfinite) || r.nonfinite)

def softmaxFn (xs : List W32) : SfuVal :=
  if xs.any (fun x => (f32Val x).nan || ((f32Val x).inf && !(f32Val x).neg)) then ⟨xs.map (fun _ => 0), 0, 0, true⟩
  else if xs.all (fun x => (f32Val x).inf) then ⟨xs.map (fun _ => 0), 0, 0, false⟩
  else
    let (es, r, sat, under, bad) := softParts xs
    ⟨es.map (fun e => f32Mul e r), sat, under, bad⟩

/-- An FP8 code as it enters a sum: a non-finite code as zero (04 R102). -/
def fp8In (fmt code : Nat) : Val × Bool := let v := elemVal fmt code; if v.isFin then (v, false) else (Val.zero, true)

/-- RNE32 of a binary32 factor times an exact sum. -/
def scaledSum (scale : W32) (l : List Val) : W32 := f32Round (Val.mul (f32Val scale) (l.foldl Val.add Val.zero))

def attendFn (p : Pset) (n : Nat) (kv q : List W8) : SfuVal :=
  let at' := fun (l : List W8) (i : Nat) => (l.getD i 0).toNat
  let qv := (List.range p.d).map (fun k => fp8In p.qFmt (at' q k))
  let row := fun i => (List.range p.d).map (fun k => fp8In p.kvFmt (at' kv (i * p.d + k)))
  let val := fun i j => fp8In p.kvFmt (at' kv (p.nMax * p.d + i * p.dv + j))
  let bad := qv.any (·.2) || (List.range n).any (fun i => (row i).any (·.2) || (List.range p.dv).any (fun j => (val i j).2))
  if n = 0 then ⟨(List.range p.dv).map (fun _ => 0), 0, 0, false⟩
  else
    let ss := (List.range n).map (fun i => scaledSum p.lo (List.zipWith (fun a b => Val.mul a.1 b.1) qv (row i)))
    let (es, r, sat, under, nan) := softParts ss
    let ps := es.map (fun e => f32Mul e r)
    ⟨(List.range p.dv).map (fun j =>
        scaledSum p.hi (ps.mapIdx (fun i w => Val.mul (f32Val w) (val i j).1))), sat, under, bad || nan⟩

/-! Calls. -/

/-- The data of a poisoned flit whose value the spec leaves open (log 13). -/
def openFlit (n : Nat) : BitVec 256 := BitVec.ofNat 256 (ofBytesLE ((List.range 32).map (fun i => Config.poisonByte (32 * n + i))))

/-- A fault of a special-function unit: its code, SFU_FAULTS, and its tensor's FAULTS (05 R148, R149). -/
def State.sfuFault (s : State) (c : SfuCall) (p : Pset) (code : Nat) (tensor : Bool) : State :=
  let s := s.raise code { die := c.tile, unit := c.unit, ctx := c.ctx } (s.eventOf c.tag) (detailC 0 (some p.tensor) c.fn)
  let s := s.bump (Reg.sfu c.tile c.unit + 0xC)
  if tensor then (s.numAdd c.ctx p.tensor 2 1).bumpF (Reg.num c.ctx p.tensor + 12) 24 8 1 else s

/-- The key-value bank of a context that serves event tag `tag` (05 R145). -/
def State.bankOf (s : State) (t g k : Nat) (tag : W8) : Option KvBank :=
  s.ant.kv.find? (fun b => b.tile == t && b.unit == g && b.ctx == k && b.bank == tag.toNat % 2)

/-- An SFU operation consumes poisoned data (07 R201): they were found at its unit (log 28). -/
def State.sfuConsume (s : State) (c : SfuCall) : State :=
  s.raise Code.poisonConsumed { die := c.tile, unit := c.unit, ctx := c.ctx } (s.eventOf c.tag) (detailA (Reg.sfu c.tile c.unit) none 0)

/-- Runs a call's function: the state with its counts and faults, the result flits and their poison mark (05 R141 to R149). A call with NaN
inputs raises and counts ELEM_NONFINITE once, however many (DESIGN CHOICE, log 28: R143 does not say). -/
def State.runCall (s : State) (c : SfuCall) (p : Pset) (residue : Bool) : State × List (BitVec 256) × Bool :=
  let cnt := c.flits.length
  let n := resultFlits c.fn cnt p
  let ws := c.flits.flatMap flitWords
  let s := if c.poison then s.sfuConsume c else s
  let s := if residue then s.sfuFault c p Code.residueMismatch false else s
  if p.fn ≠ c.fn then (s.sfuFault c p Code.sfuDesc false, (List.range n).map openFlit, true)
  else
    let fin := fun (s : State) (v : SfuVal) =>
      let s := s.countNum c.ctx p.tensor v.sat v.under
      let s := if v.nonfinite then s.sfuFault c p Code.elemNonfinite true else s
      (s, wordsFlits n v.words, c.poison || residue || v.nonfinite)
    match c.fn with
    | 0 => fin s (sortFn p ws)
    | 1 => fin s (elementwise (s.pwpOne c.tile c.unit p) ws)
    | 2 => fin s (elementwise f32Exp ws)
    | 3 => fin s (elementwise f32Recip ws)
    | 4 => fin s (softmaxFn ws)
    | _ =>
      match s.bankOf c.tile c.unit c.ctx c.tag with
      | some b =>
        if b.tag ≠ c.tag then
          (s.raise Code.tagSkew { die := c.tile, unit := c.unit, ctx := c.ctx, sub := c.dq } (s.eventOf c.tag)
            (detailQ (queueNo c.tile (s.phys c.tile c.lcore) c.ctx c.dq) c.tag.toNat), (List.range n).map openFlit, true)
        else if p.nMax < b.n then (s.sfuFault c p Code.sfuSetOver false, (List.range n).map openFlit, true)
        else
          let s := if b.poison && !c.poison then s.sfuConsume c else s
          let (s, fl, bad) := fin s (attendFn p b.n b.bytes (ws.flatMap (fun w => bytesLE 4 w.toNat)))
          (s, fl, bad || b.poison)
      | none =>
        (s.raise Code.tagSkew { die := c.tile, unit := c.unit, ctx := c.ctx, sub := c.dq } (s.eventOf c.tag)
          (detailQ (queueNo c.tile (s.phys c.tile c.lcore) c.ctx c.dq) c.tag.toNat), (List.range n).map openFlit, true)

/-- Whether two windows of cycles overlap. -/
def overlap (a n b m : Nat) : Bool := decide (a < b + m ∧ b < a + n ∧ 0 < n ∧ 0 < m)

/-- The reserved entries of a unit (05 Table 5.3): (context, engine, start, flits). -/
def State.sfuRes (s : State) (t g : Nat) : List (Nat × Nat × Nat × Nat) :=
  (List.range 64).filterMap (fun e =>
    let w := ofWordsLE [s.rd (Reg.sfuRes t g e), s.rd (Reg.sfuRes t g e + 4)]
    if nbit w 63 then some (bits w 61 2, bits w 59 2, bits w 43 16, bits w 35 8) else none)

def engineKey (t g e : Nat) : Nat := (t * 4 + g) * 4 + e

/-- The calls of a unit in the order of their start: earlier ready, then lower context, then lower caller (05 R135). That of two calls that
can start now the earlier ready one goes first is the model's (DESIGN CHOICE, log 28: R135 orders those ready in one cycle). -/
def callLt (a b : SfuCall) : Bool :=
  decide (a.readyAt * 4096 + a.ctx * 1024 + a.lcore < b.readyAt * 4096 + b.ctx * 1024 + b.lcore)

/-- The parameter set of a call. -/
def State.psetFor (s : State) (c : SfuCall) : Pset := pset (s.psetOf c.tile c.unit c.ctx c.pset)

/-- The output window of a call that starts in cycle `now`: its first cycle and its length (05 R135). -/
def State.outWin (s : State) (c : SfuCall) (now : Nat) : Nat × Nat :=
  (now + sfuLatency c.fn (s.psetFor c) - 1, resultFlits c.fn c.flits.length (s.psetFor c))

/-- The engine and output windows of a reserved entry relative to its start (05 Table 5.3), for every parameter set that its call may
name: one of the entry's context and engine that gives OUT_LEN results: (engine cycles, L_f). The entry names no function (DEDUCED,
log 28). -/
def State.resWins (s : State) (t g k e len : Nat) : List (Nat × Nat) :=
  ((List.range 16).map (fun n => pset (s.psetOf t g k n))).filterMap (fun p =>
    if engineOf p.fn = e ∧ resultFlits p.fn len p = len then some (sfuInterval p.fn len p, sfuLatency p.fn p) else none)

/-- The strobe of the tick that holds a FAB cycle. -/
def State.strobeBefore (s : State) (now : Nat) : Nat := s.tod.tickFab - ceilDiv (s.tod.tickFab - now) (max 1 s.cTick) * s.cTick

/-- A Survey call waits: its engine cycles or its output window overlap a reserved window of the current or the next tick (05 R136). -/
def State.surveyBlocked (s : State) (c : SfuCall) (now : Nat) : Bool :=
  let (out, n) := s.outWin c now
  !s.ctxTimed c.ctx && (s.sfuRes c.tile c.unit).any (fun (k, e, st, len) =>
    (s.resWins c.tile c.unit k e len).any (fun (busy, lat) =>
      [0, 1].any (fun d =>
        let b := s.strobeBefore now + d * s.cTick + st
        (e == engineOf c.fn && overlap b busy now (sfuInterval c.fn c.flits.length (s.psetFor c))) || overlap (b + lat - 1) len out n)))

/-- Whether a call finds its engine and the output port free in cycle `now` (05 R135). -/
def State.callFree (s : State) (c : SfuCall) (now : Nat) : Bool :=
  let (out, n) := s.outWin c now
  c.complete && decide (c.readyAt ≤ now ∧ SMap.get 0 s.ant.engineAt (engineKey c.tile c.unit (engineOf c.fn)) ≤ now) &&
  !(s.ant.sfuOuts.any (fun o => o.tile == c.tile && o.unit == c.unit && overlap o.at' o.flits.length out n))

/-- Whether no other call that could start in the same cycle and needs the same engine or output cycles comes first (05 R135). -/
def State.isNext (s : State) (c : SfuCall) (now : Nat) : Bool :=
  let (out, n) := s.outWin c now
  !(s.ant.calls.any (fun d => d.tile == c.tile && d.unit == c.unit && callLt d c && s.callFree d now && !s.surveyBlocked d now &&
    (engineOf d.fn == engineOf c.fn || overlap (s.outWin d now).1 (s.outWin d now).2 out n)))

/-- The reserved start that stands for a Timed call which starts in cycle `now` (05 R136): of the entries of its context and engine with
its result count, the last start that has come. A call is never early against its compiled start (DEDUCED, log 28: the spec says no
further which entry is which call's). -/
def State.resStart (s : State) (c : SfuCall) (now : Nat) : Option Nat :=
  let at' := (s.sfuRes c.tile c.unit).flatMap (fun (k, e, st, len) =>
    if k = c.ctx ∧ e = engineOf c.fn ∧ len = resultFlits c.fn c.flits.length (s.psetFor c)
    then (if s.cTick ≤ s.tod.tickFab + st then [s.tod.tickFab + st - s.cTick] else []) ++ [s.tod.tickFab + st] else [])
  (at'.filter (fun x => decide (x ≤ now))).foldl (fun (best : Option Nat) x => some (max x (best.getD 0))) none

/-- The cycles before `now` in which a Survey call could have started but for reserved windows, and are not counted yet (05 R136). -/
def State.surveyWaits (s : State) (c : SfuCall) (now : Nat) : Nat :=
  let from' := max c.readyAt c.waited
  ((List.range (now - from')).filter (fun i => s.callFree c (from' + i) && s.surveyBlocked c (from' + i))).length

/-- SFU_CALL_START (05 R135, R136): the call starts in FAB cycle `now` where its engine and its output window are free; a
Survey call waits where a reserved window of this or the next tick stands against it, and SFU_SURVEY_WAIT counts each cycle of it; a
Timed call past its reserved start counts SFU_CONFLICT. -/
def State.startCall (s : State) (ix : Nat) (c : SfuCall) (now : Nat) (residue : Bool) : State :=
  let p := s.psetFor c
  if !s.callFree c now || !s.isNext c now then s
  else if s.surveyBlocked c now then
    { s.bumpBy (Reg.sfu c.tile c.unit + 8) (s.surveyWaits c (now + 1)) with
      ant.calls := s.ant.calls.mapIdx (fun i x => if i = ix then { x with waited := now + 1 } else x) }
  else
    let s := s.bumpBy (Reg.sfu c.tile c.unit + 8) (s.surveyWaits c now)
    let late := s.ctxTimed c.ctx && (match s.resStart c now with
      | some r => decide (r < now)
      | none => false)
    let s := if late then s.bump (Reg.sfu c.tile c.unit + 4) else s
    let s := s.wrapBy (Reg.sfu c.tile c.unit) 1
    let (s, fl, bad) := s.runCall c p residue
    let o : SfuOut :=
      { tile := c.tile, unit := c.unit, ctx := c.ctx, lcore := c.lcore, dq := c.dq, tag := c.tag,
        at' := now + sfuLatency c.fn p - 1, flits := fl, poison := bad, fires := c.fires }
    { s with
      ant.calls := s.ant.calls.eraseIdx ix,
      ant.sfuOuts := s.ant.sfuOuts.filter (fun o =>
        !(o.tile == c.tile && o.unit == c.unit && o.sent && decide (o.at' + o.flits.length ≤ now))) ++ [o],
      ant.engineAt := SMap.set 0 s.ant.engineAt (engineKey c.tile c.unit (engineOf c.fn)) (now + sfuInterval c.fn c.flits.length p),
      ant.kv := s.ant.kv.map (fun b =>
        if c.fn = 6 ∧ b.tile = c.tile ∧ b.unit = c.unit ∧ b.ctx = c.ctx ∧ b.bank = c.tag.toNat % 2
        then { b with readUntil := now + sfuLatency c.fn p } else b) }

/-- The `slot`-th call of a unit. -/
def State.callAt (s : State) (t g slot : Nat) : Option (Nat × SfuCall) :=
  (((s.ant.calls.mapIdx (fun i c => (i, c))).filter (fun e => e.2.tile == t && e.2.unit == g)).drop slot).head?

def State.sfuStart (s : State) (t g slot cyc : Nat) (residue : Bool) : State :=
  let s := s.atCycle cyc
  match s.callAt t g slot with
  | some (ix, c) => s.startCall ix c (s.tod.tickFab + cyc) residue
  | none => s

def execSfuCallStart (tile unit slot cyc : Nat) (residue : Bool) (s : State) : Host.Outcome State Fault Refusal :=
  s.onUnit (decide (tile < 16 ∧ unit < 4)) (s.sfuStart tile unit slot cyc residue)

/-- The result of a unit that enters the mesh first. -/
def State.firstOut (s : State) (t g : Nat) : Option (Nat × SfuOut) :=
  ((s.ant.sfuOuts.mapIdx (fun i o => (i, o))).filter (fun e => e.2.tile == t && e.2.unit == g && !e.2.sent)).foldl
    (fun (best : Option (Nat × SfuOut)) e => match best with
      | none => some e
      | some b => if e.2.at' < b.2.at' then some e else some b) none

/-- SFU_RESULT (05 R133, R134): the earliest result of a unit enters the mesh, flit by flit. -/
def State.sfuResult (s : State) (t g : Nat) : State :=
  match s.firstOut t g with
  | none => s
  | some (i, o) =>
    let items := o.flits.mapIdx (fun j d =>
      ({ flit := { data := d, tag := o.tag, ctx := o.ctx, dq := o.dq, off := 0, len := 0, last := j + 1 == o.flits.length,
                   poison := o.poison, src := none, fires := o.fires },
         dest := .core t o.lcore, result := true } : MeshItem))
    let s := s.elapse (o.at' - s.tod.fab)
    { s with ant.sfuOuts := s.ant.sfuOuts.set i { o with sent := true }, ant.mesh := s.ant.mesh ++ items }

def execSfuResult (tile unit : Nat) (s : State) : Host.Outcome State Fault Refusal :=
  s.onUnit (decide (tile < 16 ∧ unit < 4)) (s.sfuResult tile unit)

/-- The call a KV_LOAD flit belongs to, as its faults name it. -/
def kvCall (t g ps lc : Nat) (f : Flit) : SfuCall :=
  { tile := t, unit := g, ctx := f.ctx, lcore := lc, fn := 5, pset := ps, dq := f.dq, tag := f.tag, flits := [f.data],
    poison := f.poison, complete := f.last, readyAt := 0, fires := f.fires }

/-- The header flit of a KV_LOAD call starts it: SFU_CALLS counts it, and a parameter set of another function raises SFU_DESC and
poisons the bank (05 R140, R145, R149). -/
def State.kvHeader (s : State) (c : SfuCall) : State × KvBank :=
  let s := s.wrapBy (Reg.sfu c.tile c.unit) 1
  let ok := fnFits 5 (s.psetFor c).fn
  let b : KvBank :=
    { tile := c.tile, unit := c.unit, ctx := c.ctx, bank := c.tag.toNat % 2, tag := c.tag, n := ((c.flits.headD 0).toNat) % 512,
      bytes := [], poison := c.poison || !ok, readUntil := 0, loading := !c.complete, fires := c.fires }
  (if ok then s else s.sfuFault c (s.psetFor c) Code.sfuDesc false, b)

/-- A flit of a KV_LOAD call reaches the buffer port (05 R145): the header flit names the count, the following ones carry the
key and value regions. A bank that a started ATTEND reads makes it wait; that a call was delayed is kept to its last flit. -/
def State.kvFlit (s : State) (t g ps lc : Nat) (f : Flit) : Option State :=
  let c := kvCall t g ps lc f
  match s.bankOf t g f.ctx f.tag with
  | some b =>
    let put := fun (s : State) (n : KvBank) => { s with
      ant.kv := s.ant.kv.map (fun x => if x.tile == t && x.unit == g && x.ctx == f.ctx && x.bank == b.bank then n else x) }
    if s.tod.fab < b.readUntil then none
    else if b.loading ∧ b.tag = f.tag then
      some (put s { b with bytes := b.bytes ++ bytesLE 32 f.data.toNat, loading := !f.last, poison := b.poison || f.poison,
                           delayed := b.delayed && !f.last, fires := b.fires ++ f.fires })
    else some (put (s.kvHeader c).1 { (s.kvHeader c).2 with delayed := b.delayed && !f.last })
  | none => some { (s.kvHeader c).1 with ant.kv := (s.kvHeader c).1.ant.kv ++ [(s.kvHeader c).2] }

/-- A flit that its destination does not accept waits; SFU_CONFLICT counts a KV_LOAD call that an ATTEND's reading delays, once (05
R145). -/
def State.noteWait (s : State) (m : MeshItem) : State :=
  match m.dest with
  | .sfu t g 5 _ _ =>
    match s.bankOf t g m.flit.ctx m.flit.tag with
    | some b =>
      if s.tod.fab < b.readUntil ∧ b.delayed = false then
        { s with ant.kv := s.ant.kv.map (fun x => if x = b then { b with delayed := true } else x) }.bump (Reg.sfu t g + 4)
      else s
    | none => s
  | _ => s

/-- The next KV_LOAD flit bound to a unit arrives; one of a context that its caller's core no longer holds is flushed (06 R158, R162). -/
def State.kvLoad (s : State) (t g : Nat) : State :=
  let hit := fun (m : MeshItem) => match m.dest with
    | .sfu t' g' 5 _ _ => t' == t && g' == g
    | _ => false
  match findIx hit s.ant.mesh with
  | none => s
  | some i =>
    match s.ant.mesh[i]? with
    | none => s
    | some m =>
      match m.dest with
      | .sfu _ _ _ ps lc =>
        if !s.ctxValid t (s.phys t lc) m.flit.ctx then
          { s with ant.mesh := s.ant.mesh.eraseIdx i }.stale t (s.phys t lc) m.flit.ctx m.flit.dq m.flit
        else match s.kvFlit t g ps lc m.flit with
        | some s => { s with ant.mesh := s.ant.mesh.eraseIdx i }
        | none => s.noteWait m
      | _ => s

def execKvLoad (tile unit : Nat) (s : State) : Host.Outcome State Fault Refusal :=
  s.onUnit (decide (tile < 16 ∧ unit < 4)) (s.kvLoad tile unit)

/-- A call flit reaches its unit (05 R129): it joins its call, or opens one where a slot is free. Of the eight slots each context has two
(R138 partitions the buffer; DEDUCED, log 28, that the parts are equal). -/
def State.callFlit (s : State) (t g fn ps lc : Nat) (f : Flit) : Option State :=
  let mine := fun (c : SfuCall) => c.tile == t && c.unit == g && c.ctx == f.ctx && c.lcore == lc && c.fn == fn &&
    c.pset == ps && c.dq == f.dq && c.tag == f.tag && !c.complete
  match findIx mine s.ant.calls with
  | some i =>
    some { s with ant.calls := s.ant.calls.mapIdx (fun j c =>
      if j = i then { c with flits := c.flits ++ [f.data], poison := c.poison || f.poison, complete := f.last,
                             readyAt := s.tod.fab + 1, fires := f.fires ++ c.fires } else c) }
  | none =>
    if 2 ≤ (s.ant.calls.filter (fun c => c.tile == t && c.unit == g && c.ctx == f.ctx)).length then none
    else
      let c : SfuCall :=
        { tile := t, unit := g, ctx := f.ctx, lcore := lc, fn := fn, pset := ps, dq := f.dq, tag := f.tag,
          flits := [f.data], poison := f.poison, complete := f.last, readyAt := s.tod.fab + 1, fires := f.fires }
      some { s with ant.calls := s.ant.calls ++ [c] }

end Sys2Proof.Machine
end

