-- ==== Sys2Proof/Machine/Mesh.lean ====
section
/-! DEFINITION. The tile mesh and the network-on-package (03 R83 to R89; 07 R191 to R196): where a flit arrives, class-T requests at
Store ports and stops, reserved slots, and the credits that go back (06 R154). The model keeps the order of arrivals that its
commands give and no hop counts (log 17). -/

namespace Sys2Proof.Machine

/-! Outputs (02 R44, R53). -/

def Judge.new (t m : Nat) (n : W32) : Judge := ⟨t, m, n, false, false, false⟩

/-- What the monitor has judged of an event. -/
def State.judged (s : State) (t m : Nat) (n : W32) : Judge :=
  (s.clk.judges.find? (fun j => j.tile == t && j.mon == m && j.event == n)).getD (Judge.new t m n)

/-- The FAB cycles from an event's strobe to a cycle of this tick. -/
def State.sinceEvent (s : State) (n : W32) (c : Nat) : Int := tickDiff s.tickId n * (s.cTick : Int) + (c : Int)

/-- The deadline in FAB cycles. -/
def State.deadline (s : State) (t m : Nat) : Nat := s.rdF (Reg.scDeadline t m) 24 8 * s.cTick + s.rdF (Reg.scDeadline t m) 0 16

/-- Whether the deadline cycle of an event has ended by a cycle of this tick. -/
def State.deadlinePast (s : State) (t m : Nat) (n : W32) (c : Nat) : Bool := decide ((s.deadline t m : Int) < s.sinceEvent n c)

/-- The fallback value of an output (02 Table 2.4a), from its fallback entry. -/
def State.fbValue (s : State) (d : OutDecl) : W64 :=
  let fixed : Nat := (s.rd (Reg.fbFixedLo d.ctx d.out)).toNat + (s.rd (Reg.fbFixedHi d.ctx d.out)).toNat * 2 ^ 32
  BitVec.ofNat 64 ((match s.rdF (Reg.fbCfg d.ctx d.out) 30 2 with
    | 0 => 1
    | 1 => 0
    | 2 =>
      (match s.clk.held.find? (fun (e : Nat × Nat × W64) => e.1 == d.ctx && e.2.1 == d.out) with
       | some e => e.2.2.toNat
       | none => fixed)
    | _ => fixed) % 2 ^ d.width)

/-- The latency of an output in FAB cycles (02 R44). -/
def State.latency (s : State) (d : OutDecl) : Nat := d.latT * s.cTick + d.latC

/-- Whether a stage group that an output depends on is late for an event by a cycle of this tick (02 R50, R53). -/
def State.lateFor (s : State) (d : OutDecl) (n : W32) (c : Nat) : Bool :=
  d.deps.any (fun (g : Nat × Nat) =>
    let j := s.judged g.1 g.2 n
    j.late || (!j.completed && s.deadlinePast g.1 g.2 n c))

/-- Whether a fault mark stands at a stage group that an output depends on (04 R126). -/
def State.markedFor (s : State) (d : OutDecl) (n : W32) : Bool :=
  d.deps.any (fun (g : Nat × Nat) => s.clk.failed.any (fun e => e.1 == g.1 && e.2.1 == g.2 && e.2.2.1 == n && decide (e.2.2.2 ≤ s.tod.fab)))

/-- The outputs that the route of a flit feeds, with the lowest bit of each. -/
def State.outsOf (s : State) (x : Src) : List OutDecl :=
  s.clk.outs.filter (fun d => match d.src with
    | some (t, lc, r, _) => d.ctx == x.ctx && t == x.tile && lc == x.core && r == x.route
    | none => false)

/-- The lowest bit of an output in its flit. -/
def outLow (d : OutDecl) : Nat :=
  match d.src with
  | some (_, _, _, b) => b
  | none => 0

/-- The value of an output in a flit or chunk. -/
def outField (d : OutDecl) (f : Flit) : W64 := BitVec.ofNat 64 (bits (f.data.toNat * 2 ^ (32 * f.off)) (outLow d) d.width)

/-- A value reaches an output for its event (02 R53): kept for the hand-off, or, after a hand-off whose fallback a late group
selected, discarded and counted once. -/
def State.reachOut (s : State) (d : OutDecl) (event : W32) (v : W64) (poison : Bool) (fires : List Nat) : State :=
  let me := fun (e : Emitted) => e.k == d.ctx && e.o == d.out && e.event == event
  match s.clk.emitted.find? me with
  | some e =>
    if e.awaits then
      { s with clk.emitted := s.clk.emitted.map (fun x => if me x then { x with awaits := false } else x) }.bump
        (Reg.fbDiscard d.ctx d.out)
    else s
  | none => { s with clk.vals := s.clk.vals ++ [⟨d.ctx, d.out, event, v, poison, fires⟩] }

/-- A flit arrives where outputs are handed off. -/
def State.reachOuts (s : State) (f : Flit) : State :=
  match f.src with
  | some x => (s.outsOf x).foldl (fun t d => t.reachOut d (s.eventOf f.tag) (outField d f) f.poison f.fires) s
  | none => s

/-! Decision lines (03 R87; 12 R326, R331). An output with decision bits is handed off at (T, c) into the DECISION output register, 14
SAMPLE cycles after the combiner cycle of its bits, which enter their line 8 FAB cycles before that. -/

/-- The FAB cycles from a decision line to the DECISION register (02 Table 2.6; 12 R331). -/
def lineLead : Nat := 36

/-- The tick after its event's and the cycle in it in which an output's bits enter their line. -/
def State.lineT (s : State) (d : OutDecl) : Nat := (s.latency d - lineLead) / max 1 s.cTick
def State.lineC (s : State) (d : OutDecl) : Nat := (s.latency d - lineLead) % max 1 s.cTick

/-- The fallback that an output shows for an event whatever its value, and whether as a gap: in a gap tick, for an abandoned event, of a
context in Faulted, and of outputs held (06 R163, R169, Table 6.2; 15 R402; 17 R436). -/
def State.fixedOut (s : State) (d : OutDecl) (n : W32) : Option Bool :=
  let x := s.cx d.ctx
  if x.gaps.elem n then some true
  else if x.abandoned.elem n || s.ctxState d.ctx == Ctx.faulted || (!x.entered.elem n && x.heldOut != 0) then some false
  else none

/-- The bits of an output on a line. -/
def outBits (d : OutDecl) (v : W64) : Nat := v.toNat % 2 ^ d.width * 2 ^ outLow d % 256

/-- Whether an output's bits for an event have entered their line. -/
def State.linedOut (s : State) (d : OutDecl) (n : W32) : Bool := s.clk.lined.elem (d.ctx, d.out, n)

/-- An output's bits enter a line in FAB cycle `f`, once for an event: the value that a flit brings, or the fallback with its flags
(12 R326) where a group it depends on is late by then or marked, or the value is poisoned. -/
def State.lineOut (s : State) (d : OutDecl) (base f : Nat) (n : W32) (v : Option W64) (poison : Bool) : State :=
  let gap := s.fixedOut d n
  let fb := poison || gap.isSome || s.lateFor d n s.cycleNow || s.markedFor d n
  if s.linedOut d n || (v.isNone && !fb) then s
  else
    State.decisionBits { s with clk.lined := s.clk.lined ++ [(d.ctx, d.out, n)] } base (outBits d (if fb then s.fbValue d else v.getD 0)) 0 f n fb
      (gap.getD false)

/-- Whether the cycle in which an output's bits enter their line lies in this tick for an event, with nothing entered and a fallback to
enter. -/
def State.lineDue (s : State) (d : OutDecl) (n : W32) : Bool :=
  d.decision.isSome && s.tickId == n + BitVec.ofNat 32 (s.lineT d) && !s.linedOut d n &&
  ((s.fixedOut d n).isSome || s.lateFor d n (s.lineC d) || s.markedFor d n)

/-- The line stage: the fallback of an event for which no value came enters the line in the cycle of an on-time value (02 R53). What a
group does after that cycle reaches the record of the hand-off alone (DESIGN CHOICE, log 26: R53 does not say how the line learns it). -/
def State.lineStage (s : State) (d : OutDecl) (n : W32) : State :=
  match d.decision with
  | some b =>
    let s := s.atCycle (s.lineC d)
    s.lineOut d b (s.tod.tickFab + s.lineC d) n none false
  | none => s

/-- A flit enters a decision line (03 R87; 12 R326): its bits go to the combiner, those of a declared output as the output shows them. -/
def State.lineFlit (s : State) (f : Flit) (base : Nat) : State :=
  match f.src with
  | some x =>
    let n := s.eventOf f.tag
    let ds := s.outsOf x
    let mine := ds.foldl (fun m d => Nat.lor m (outBits d (BitVec.allOnes 64))) 0
    let bare := Nat.land (f.data.toNat % 256) (255 - mine)
    let s := s.decisionBits base bare (if f.poison then 255 - mine else 0) s.tod.fab n false false
    ds.foldl (fun t d => (t.lineOut d base t.tod.fab n (some (outField d f)) f.poison).reachOut d n (outField d f) f.poison f.fires) s
  | none => s

/-! Store (07 R187, R188). The request flit: the address in [47:0], WRITE in [48], LINES − 1 in [54:49], and for a write the byte
mask in [95:64]; the lines of a write follow as flits (log 18). -/

def reqAddr (d : BitVec 256) : Nat := bits d.toNat 0 48
def reqWrite (d : BitVec 256) : Bool := nbit d.toNat 48
def reqLines (d : BitVec 256) : Nat := bits d.toNat 49 6 + 1
def reqMask (d : BitVec 256) : Nat := bits d.toNat 64 32

/-- Whether an address lies in Store die k. -/
def inStoreDie (k a : Nat) : Bool := regionOf a == .store && (a - 0x100000000) / 0x10000000 == k

/-- A flit back to the queue that a request names. -/
def State.answerFlit (s : State) (q : Flit) (x : Src) (data : BitVec 256) (last poison : Bool) : State :=
  let m : MeshItem :=
    { flit := { data := data, tag := q.tag, ctx := q.ctx, dq := q.dq, off := 0, len := 0, last := last, poison := poison, src := none },
      dest := .core x.tile x.core, result := false }
  { s with ant.mesh := s.ant.mesh ++ [m] }

/-- A poisoned flit of open data to the queue that a request names (07 Table 7.5). -/
def State.answerPoison (s : State) (q : Flit) (x : Src) : State := s.answerFlit q x (openFlit 0) true true

/-- Reads lines of a Store die for a class-T request. -/
def State.storeRead (s : State) (k : Nat) (q : Flit) (x : Src) (ecc : Findings) : State :=
  let a := reqAddr q.data
  let n := reqLines q.data
  (List.range n).foldl (fun t i =>
    let la := a + 32 * i
    if inStoreDie k la && la % 32 == 0 then
      let t := t.found (within ecc la 32) q.pc
      t.answerFlit q x (BitVec.ofNat 256 (t.rdLE la 32)) (i + 1 == n) (t.isPoison la 32)
    else (t.coreFault x.tile x.core x.ctx q.pc la).answerPoison q x) s

/-- Writes a line of a Store die under the byte mask of its request. -/
def State.storeLine (s : State) (k : Nat) (w : OpenWrite) (f : Flit) : State :=
  if inStoreDie k w.addr && w.addr % 32 == 0 then
    (s.beforeWrite false).lineWrite w.addr ((List.range 32).map (fun i => if nbit w.mask i then some (f.data.extractLsb' (8 * i) 8) else none)) f.poison
  else s.coreFault w.src.tile w.src.core w.src.ctx f.pc w.addr

/-- The write in progress that a flit belongs to. -/
def State.openWrite (s : State) (f : Flit) : Option OpenWrite :=
  s.banks.writes.find? (fun w => some w.src == f.src && w.tag == f.tag)

/-- A write takes its data flit: the next goes to the line after, and the last ends it. -/
def State.nextLine (s : State) (w : OpenWrite) (last : Bool) : State :=
  let rest := s.banks.writes.filter (fun v => !(v.src == w.src && v.tag == w.tag))
  { s with banks.writes := if last then rest else rest ++ [{ w with addr := w.addr + 32 }] }

/-- A write request opens a write, whose data flits follow. -/
def State.startWrite (s : State) (x : Src) (f : Flit) (mask : Nat) : State :=
  { s with banks.writes := s.banks.writes ++ [⟨x, f.tag, reqAddr f.data, mask⟩] }

/-- A request, or a data flit of a write in progress, is served at Store die k. -/
def State.storeServe (s : State) (k : Nat) (f : Flit) (ecc : Findings) : State :=
  match f.src, s.openWrite f with
  | none, _ => s
  | some _, some w => (s.storeLine k w f).nextLine w f.last
  | some x, none => if reqWrite f.data then s.startWrite x f (reqMask f.data) else s.storeRead k f x ecc

/-! Pattern stops (08 R220). -/

/-- A request flit reaches a pattern stop: it joins the request of its route and event. -/
def State.patternFlit (s : State) (f : Flit) : State :=
  match f.src with
  | none => s
  | some x =>
    let mine := fun (r : PatReq) => r.tile == x.tile && r.lcore == x.core && r.ctx == x.ctx && r.route == x.route && r.tag == f.tag
    if s.banks.patReqs.any mine then
      { s with banks.patReqs := s.banks.patReqs.map (fun r =>
          if mine r then { r with flits := r.flits ++ [f.data], poison := r.poison || f.poison, fires := r.fires ++ f.fires } else r) }
    else
      let r : PatReq := { tile := x.tile, lcore := x.core, ctx := x.ctx, route := x.route, dq := f.dq, tag := f.tag, flits := [f.data],
                          poison := f.poison, fires := f.fires }
      { s with banks.patReqs := s.banks.patReqs ++ [r] }

/-! Arrival. -/

/-- The router of a NoP stop on a tile: logical core (8g + 3, 15) (03 R88). -/
def stopCore (g : Nat) : Nat := 16 * (8 * g + 3) + 15

/-- A request at an Edge stop (11 R311, R313): a read of another part goes out as a class-T read for a Timed context, whose only target
is remote Store (01 R26), and over class S for a Survey context (01 R25, R28), and so do its writes of whole lines; no other
address has memory there. -/
def State.edgeRequest (s : State) (f : Flit) : State :=
  match f.src, s.openWrite f with
  | none, _ => s
  | some x, some w =>
    (if w.mask = 2 ^ 32 - 1 then s.remoteReq w.addr 32 (some (bytesLE 32 f.data.toNat)) (.core x.tile x.core f.ctx f.dq f.tag) (if f.poison then 1 else 0)
     else s).nextLine w f.last
  | some x, none =>
    let a := reqAddr f.data
    let n := 32 * reqLines f.data
    if reqWrite f.data then
      (if nbit a 47 && !s.ctxTimed f.ctx && reqMask f.data == 2 ^ 32 - 1 then s.startWrite x f (2 ^ 32 - 1)
       else (s.coreFault x.tile x.core x.ctx f.pc a).startWrite x f 0)
    else if !nbit a 47 then (s.coreFault x.tile x.core x.ctx f.pc a).answerPoison f x
    else if !s.ctxTimed f.ctx then s.remoteReq a n none (.core x.tile x.core f.ctx f.dq f.tag)
    else if regionOf (a % 2 ^ 41) == .store then s.treadIssue f x.tile x.core a n
    else (s.coreFault x.tile x.core x.ctx f.pc a).answerPoison f x

/-- A flit arrives at its destination, its slot passed; none: it waits. The credit of a flit that no queue holds goes back at once
(03 R82). A call flit of a context that its caller's core no longer holds is flushed (06 R158, R162). A flit for a tile's stop goes into the queue that it names of the stop's router, logical core (8g + 3, 15) (DESIGN CHOICE, log
27: R88 names the router and no queue). -/
def State.deliver (s : State) (m : MeshItem) (ecc : Findings) : Option State :=
  let f := m.flit
  let free := fun (t : State) => some (if m.req then t else t.giveBack f.credit)
  match m.link with
  | some q => some (s.serveLink q ecc)
  | none =>
  match m.dest with
  | .core t lc => s.arrive t (s.phys t lc) f m.result
  | .sfu t u fn ps lc =>
    if !s.ctxValid t (s.phys t lc) f.ctx then some (s.stale t (s.phys t lc) f.ctx f.dq f)
    else if fn = 5 then s.kvFlit t u ps lc f else s.callFlit t u fn ps lc f
  | .decision _ b => free (s.lineFlit f b)
  | .store _ g => free (s.storeServe g f ecc)
  | .stop n =>
    if n < 64 then s.arrive (n / 4) (s.phys (n / 4) (stopCore (n % 4))) f m.result
    else if n < 80 then free (if m.req then s.edgeRequest f else s.reachOuts f)
    else if n < 96 then free (s.storeServe ((n - 80) / 4) f ecc)
    else if n < 112 then free (s.patternFlit f)
    else free (s.reachOuts f)

/-! Reserved slots (07 R193 to R195). -/

/-- The owner id of tile, context and route (07 R193; log 18). -/
def ownerId (x : Src) : Nat := x.tile * 64 + x.ctx * 16 + x.route

/-- The owner id of the class-T reads of another part (11 R313), past those of tiles (DESIGN CHOICE, log 18: the spec names no owner of a
link's slots). -/
def linkOwner (part : Nat) : Nat := 0x400 + part

/-- The arbiter index of the port or egress that a flit passes (07 R212). -/
def portOf : Dest → Option Nat
  | .store t g => some (0x100 + 16 * g + t)
  | .stop n => some (0x180 + n)
  | _ => none

/-- The die of a Store port or NoP egress. -/
def portDie (p : Nat) : Nat :=
  if p < 0x140 then Die.store ((p - 0x100) / 16)
  else
    let n := p - 0x180
    if n < 64 then n / 4 else if n < 80 then Die.edge ((n - 64) / 4) else if n < 96 then Die.store ((n - 80) / 4)
    else if n < 112 then Die.pattern ((n - 96) / 4) else if n < 114 then Die.hub else Die.warden

/-- The port at which a flit waits for a slot: class T, at a port with reserved slots. -/
def State.slotPort (s : State) (m : MeshItem) : Option (Nat × Nat) :=
  match m.link with
  | some q => ((portOf m.dest).filter (fun p => s.ant.slots.any (fun e => e.2.port == p && e.2.owner == linkOwner q.part))).map
      (fun p => (p, linkOwner q.part))
  | none =>
  match m.flit.src, portOf m.dest with
  | some x, some p =>
    if s.ctxTimed m.flit.ctx && s.ant.slots.any (fun e => e.2.port == p) then some (p, ownerId x) else none
  | _, _ => none

/-- What a request that is not served returns (07 Table 7.5): a poisoned flit for a read; a write is discarded, its data flits with
it. -/
def State.unserved (s : State) (m : MeshItem) : State :=
  let f := m.flit
  let write := match m.dest with
    | .stop n => reqWrite f.data && !(decide (96 ≤ n ∧ n < 112))
    | _ => reqWrite f.data
  match m.link with
  | some q => s.unservedLink q
  | none =>
  match f.src, s.openWrite f with
  | none, _ => s
  | some x, w =>
    if !m.req then s.giveBack f.credit
    else match w with
      | some w => s.nextLine w f.last
      | none => if write then s.startWrite x f 0 else s.answerPoison f x

def State.slotFault (s : State) (code port owner held slot : Nat) (m : MeshItem) : State :=
  s.raise code { die := portDie port, unit := port, ctx := m.flit.ctx } (s.eventOf m.flit.tag) (detailS owner held slot)

/-- A request arrives at its port. Where a slot of its owner has opened in this tick without a request of it, the request comes after its
slot: SLOT_MISSED; otherwise it is held (07 R194, Table 7.5). -/
def State.slotArrive (s : State) (m : MeshItem) (p owner : Nat) : State :=
  let mine := (s.ant.slots.filter (fun e => e.2.port == p && e.2.owner == owner)).map (·.2.slot)
  match s.banks.opened.find? (fun (e : Nat × Nat × Bool) => e.1 == p && e.2.2 && mine.elem e.2.1) with
  | some e =>
    let s := { s with banks.opened := s.banks.opened.map (fun (x : Nat × Nat × Bool) => if x = e then (x.1, x.2.1, false) else x) }
    (s.slotFault Code.slotMissed p owner owner e.2.1 m).unserved m
  | none => { s with ant.requests := s.ant.requests ++ [⟨p, owner, m⟩] }

/-- RESERVED_SLOT (07 Table 7.5): the owner's oldest request is served; those of other owners collide. -/
def State.reservedSlot (s : State) (p sl : Nat) (ecc : Findings) : State :=
  match s.ant.slots.find? (fun e => e.2.port == p && e.2.slot == sl) with
  | none => s
  | some (_, r) =>
    let here := s.ant.requests.filter (fun q => q.port == p)
    let own := here.find? (fun q => q.owner == r.owner)
    let others := here.filter (fun q => q.owner != r.owner)
    let s := { s with banks.opened := s.banks.opened ++ [(p, sl, own.isNone)],
                      ant.requests := s.ant.requests.filter (fun q => q.port != p || q.owner == r.owner) }
    let s := others.foldl (fun t q => (t.slotFault Code.slotCollision p r.owner q.owner sl q.item).unserved q.item) s
    match own with
    | some q =>
      let t := { s with ant.requests := s.ant.requests.erase q }
      (t.deliver q.item ecc).getD s
    | none => s

/-- The ports that may hold reserved slots: the Store ports and the stops but the Warden's, which is class S only (07 Table 7.4). -/
def slotPortOk (p : Nat) : Bool := decide ((0x100 ≤ p ∧ p < 0x140) ∨ (0x180 ≤ p ∧ p < 0x1F2))

def execReservedSlot (port slot : Nat) (ecc : Findings) (s : State) : Host.Outcome State Fault Refusal :=
  s.onUnit (slotPortOk port) (if s.hubOn then s.reservedSlot port slot ecc else s)

/-- The NoP stop of Store that a class-T read of another part comes to: of the die that holds its address, the first (log 18). -/
def linkStop (a : Nat) : Nat := 80 + 4 * ((a - 0x100000000) / 0x10000000 % 4)

/-- TREAD_REQ (11 R313; 01 R26): a class-T remote read waits for the Store slot that the schedule reserves for its part, and is answered from
there; where none is reserved, at once. -/
def execTreadReq (g : Nat) (s : State) (ecc : Findings := []) : Host.Outcome State Fault Refusal :=
  s.onUnit (grpOk g) (s.onMem g 4 true (fun p t =>
    let a := bytesAt p.bytes 0 8 % 2 ^ 41
    let q : LinkRead := ⟨g, wbits p.hdr 52 6, wbits p.hdr 30 8, a, wbits p.hdr 38 6 + 1⟩
    let m : MeshItem := { flit := { data := 0, tag := 0, ctx := 0, dq := 0, off := 0, len := 0, last := true, poison := false, src := none },
                          dest := .stop (linkStop a), result := false, link := some q }
    match t.slotPort m with
    | some (port, owner) => t.slotArrive m port owner
    | none => t.serveLink q ecc))

/-! The mesh. -/

/-- The tile whose routers a flit passes last. -/
def meshTile (m : MeshItem) : Nat :=
  match m.dest with
  | .core t _ => t
  | .store t _ => t
  | .decision t _ => t
  | .sfu t _ _ _ _ => t
  | .stop _ => (m.flit.src.map (·.tile)).getD 0

/-- FLIT_WRITE (03 R84, R85): the `i`-th flit on its way arrives; a Timed one was held back for `held` cycles by others. -/
def State.flitWrite (s : State) (i held : Nat) (ecc : Findings) : State :=
  match s.ant.mesh[i]? with
  | none => s
  | some m =>
    let s := if s.ctxTimed m.flit.ctx then s.bumpBy (Reg.meshConflict (meshTile m)) held else s
    let t := { s with ant.mesh := s.ant.mesh.eraseIdx i }
    match t.slotPort m with
    | some (p, owner) => t.slotArrive m p owner
    | none =>
      match t.deliver m ecc with
      | some u => u
      | none => s.noteWait m

def execFlitWrite (i held : Nat) (s : State) (ecc : Findings := []) : Host.Outcome State Fault Refusal :=
  s.done (if s.hubOn then s.flitWrite i held ecc else s)

/-- CREDIT_RETURN (03 R82, 06 R154): the `i`-th freed credit reaches its route; that of a multicast push counts when every
destination has returned it. A paused Survey context receives none (15 R402, 03 Table 3.11). -/
def State.creditReturn (s : State) (i : Nat) : State :=
  match s.ant.credits[i]? with
  | none => s
  | some x =>
    let c := s.phys x.tile x.core
    if !s.ctxTimed x.ctx && s.surveyPaused x.tile c then s
    else
      let t := { s with ant.credits := s.ant.credits.eraseIdx i }
      let a := Reg.credit x.tile c x.ctx x.route
      let up := fun (u : State) => u.wrF a 0 7 (satAdd 7 (u.rdF a 0 7) 1)
      if x.mid = 0 then up t
      else
        let left := SMap.get 0 t.ant.mcast x.mid
        if left ≤ 1 then up { t with ant.mcast := SMap.set 0 t.ant.mcast x.mid 0 }
        else { t with ant.mcast := SMap.set 0 t.ant.mcast x.mid (left - 1) }

def execCreditReturn (i : Nat) (s : State) : Host.Outcome State Fault Refusal := s.done (if s.hubOn then s.creditReturn i else s)

end Sys2Proof.Machine
end

