-- ==== Sys2Proof/Machine/ShotClock.lean ====
section
/-! DEFINITION. The shot clock (02 R44 to R57): droop stretching, stage-group monitors, output hand-off, fallback and escalation. -/

namespace Sys2Proof.Machine

def monOk (t m : Nat) : Bool := decide (t < 16 ∧ m < 64)

/-! Droop (02 R47, R48). -/

/-- The lag of a tile at a local cycle of this tick, in eighths: the stretches of earlier cycles. -/
def State.lagAt (s : State) (t c : Nat) : Nat :=
  (s.clk.stretches.filter (fun (e : Nat × Nat × Nat) => e.1 == t && decide (e.2.1 < c))).foldl (fun n (e : Nat × Nat × Nat) => n + e.2.2) 0

/-- Whether a local cycle lies at or after the one in which the tile reached the cap. -/
def State.capped (s : State) (t c : Nat) : Bool :=
  let x := SMap.get 0 s.clk.capAt t
  decide (x ≠ 0 ∧ x ≤ c + 1)

/-- DROOP_STRETCH (02 R47): the guard needs `e` eighths in a local cycle; above 16 eighths in the tick the cap is reached instead. -/
def State.droopStretch (s : State) (t c e : Nat) : State :=
  if !bit (s.rd (Reg.avsCfg t)) 30 || SMap.get 0 s.clk.capAt t != 0 ||
     s.clk.stretches.any (fun (x : Nat × Nat × Nat) => x.1 == t && decide (c ≤ x.2.1)) then s
  else
    let s := s.atCycle c
    let lag := SMap.get 0 s.clk.lag t
    if lag + e ≤ 16 then
      let s := { s with clk.stretches := s.clk.stretches ++ [(t, c, e)], clk.lag := SMap.set 0 s.clk.lag t (lag + e) }
      s.wrF (Reg.droopStat t) 0 8 (max (s.rdF (Reg.droopStat t) 0 8) (lag + e))
    else
      let s := { s with clk.capAt := SMap.set 0 s.clk.capAt t (c + 1) }
      (s.bumpF (Reg.droopStat t) 16 16 1).raiseNow Code.droopCap { die := t } 0

def execDroopStretch (tile cycle eighths : Nat) (s : State) : Host.Outcome State Fault Refusal :=
  s.onUnit (decide (tile < 16 ∧ cycle < s.cTick ∧ 1 ≤ eighths ∧ eighths ≤ 8)) (if s.hubOn then s.droopStretch tile cycle eighths else s)

/-! Monitors (02 R49 to R52). -/

def State.setJudge (s : State) (j : Judge) : State :=
  { s with clk.judges := s.clk.judges.filter (fun x => !(x.tile == j.tile && x.mon == j.mon && x.event == j.event)) ++ [j] }

/-- The layout of SC_LAST (02 Table 2.3). -/
def State.scEnc (s : State) (e : Nat) : W32 :=
  let c := max 1 s.cTick
  BitVec.ofNat 32 ((e / (8 * c)) % 256 * 2 ^ 24 + (e % 8) * 2 ^ 16 + (e % (8 * c)) / 8)

/-- The eighths that a register of that layout holds. -/
def State.scDec (s : State) (w : W32) : Nat := (fld w 24 8 * s.cTick + fld w 0 16) * 8 + fld w 16 3

/-- A deadline fault of a monitor for an event: one per monitor and event (02 R51). -/
def State.deadlineFault (s : State) (j : Judge) (code : Nat) (e : Option Nat) : State :=
  if j.faulted then s
  else
    let t := j.tile
    let m := j.mon
    let s := s.setJudge { j with late := true, faulted := true }
    let first := (s.rd (Reg.scLateCount t m)).toNat == 0
    let s := s.bump (Reg.scLateCount t m)
    let s := if first then s.wr (Reg.scFirstLate t m) j.event else s
    let s := s.wr (Reg.scLastLate t m) j.event
    s.raise code { die := t, unit := m, ctx := m / 16, sub := m % 16, mon := m } j.event
      (detailD e (8 * s.deadline t m) (j.event.toNat % 256))

/-- Whether an event is one that monitors judge: in flight and neither a gap nor abandoned. -/
def State.inJudgement (s : State) (m : Nat) (n : W32) : Bool :=
  let c := s.cx (m / 16)
  c.entered.elem n && !c.abandoned.elem n && !c.gaps.elem n

/-- STAGE_GROUP_COMPLETION (02 R50): the group wrote its last output flit for an event in a local cycle of this tick. -/
def State.groupDone (s : State) (t m : Nat) (n : W32) (c : Nat) : State :=
  let j := s.judged t m n
  let x := s.sinceEvent n c
  if !bit (s.rd (Reg.scCtrl t m)) 31 || !s.inJudgement m n || j.completed || decide (x < 0) then s
  else
    let s := s.atCycle c
    let e := 8 * x.toNat + s.lagAt t c
    let s := s.wr (Reg.scLast t m) (s.scEnc e)
    let s := if s.scDec (s.rd (Reg.scWorst t m)) < e then s.wr (Reg.scWorst t m) (s.scEnc e) else s
    let late := j.late || decide (8 * s.deadline t m < e) || s.capped t c
    let j := { j with completed := true, late := late }
    let s := s.setJudge j
    if late then s.deadlineFault j Code.deadlineLate (some e) else s

def execStageGroupCompletion (tile m : Nat) (event : W32) (cycle : Nat) (s : State) : Host.Outcome State Fault Refusal :=
  s.onUnit (monOk tile m && decide (cycle < s.cTick)) (if s.hubOn then s.groupDone tile m event cycle else s)

/-- SC_CTRL.CLR (02 Table 2.3). -/
def State.clearMon (s : State) (t m : Nat) : State :=
  s.wrs [(Reg.scWorst t m, 0), (Reg.scLateCount t m, 0), (Reg.scFirstLate t m, 0), (Reg.scLastLate t m, 0)]

def execScCtrlClr (tile m : Nat) (s : State) : Host.Outcome State Fault Refusal :=
  s.onUnit (monOk tile m) (if s.hubOn then s.clearMon tile m else s)

/-! Outputs (02 R53 to R57). -/

def State.outDecl (s : State) (k o : Nat) : Option OutDecl := s.clk.outs.find? (fun d => d.ctx == k && d.out == o)

/-- The value an on-time output leaves for HOLD_LAST (02 R54). -/
def State.holdValue (s : State) (k o : Nat) (v : W64) : State :=
  { s with clk.held := s.clk.held.filter (fun (e : Nat × Nat × W64) => !(e.1 == k && e.2.1 == o)) ++ [(k, o, v)] }

/-- The escalation window of an output that holds the current tick (02 R55). -/
def State.escWin (s : State) (k o : Nat) : Nat := s.tickId.toNat / 2 ^ s.rdF (Reg.fbCfg k o) 24 5

/-- WIN_COUNT restarts with each window (02 R55). -/
def State.rollWindow (s : State) (k o : Nat) : State :=
  let key := 64 * k + o
  if SMap.get 0 s.clk.winAt key = s.escWin k o + 1 then s
  else { s with clk.winAt := SMap.set 0 s.clk.winAt key (s.escWin k o + 1) }.wrF (Reg.fbWin k o) 0 16 0

/-- ESCALATION_WINDOW_END. -/
def execEscalationWindowEnd (k o : Nat) (s : State) : Host.Outcome State Fault Refusal :=
  s.onUnit (decide (k < 4 ∧ o < 64)) (if s.hubOn then s.rollWindow k o else s)

/-- Counts a fallback of an output for an event, and escalates when more than ESC_N fall in one window (02 R55, Table 2.5).
FB_LAST_TICK takes the TICK_ID of the event (DEDUCED, log 26: Table 2.5 says only the TICK_ID of the last fallback). -/
def State.countFallback (s : State) (k o : Nat) (n : W32) : State :=
  let s := ((s.bump (Reg.fbCount k o)).wr (Reg.fbLastTick k o) n).rollWindow k o
  let w := s.rdF (Reg.fbWin k o) 0 16
  let lim := s.rdF (Reg.fbCfg k o) 0 16
  let s := s.wrF (Reg.fbWin k o) 0 16 (satAdd 16 w 1)
  if lim ≠ 0 ∧ w = lim then
    let s := { s with clk.escalateAt := some (s.clk.escalateAt.getD s.nextStrobe) }
    s.raise Code.fallbackEscalated { die := Die.hub, ctx := k, sub := o } n (satAdd 16 w 1)
  else s

/-- The latency of the last output that depends on a monitor; of the context's latest output where none does (02 R51). -/
def State.lastNeed (s : State) (k t m : Nat) : Nat :=
  let mine := s.clk.outs.filter (fun d => d.ctx == k)
  let deps := mine.filter (fun d => d.deps.elem (t, m))
  (if deps.isEmpty then mine else deps).foldl (fun x d => max x (s.latency d)) 0

/-- DEADLINE_MISSING for the monitors whose last dependent output this is, which have no completion and whose deadline cycle ends before
the hand-off (02 R51). -/
def State.missing (s : State) (d : OutDecl) (n : W32) : State :=
  (s.clk.groups.filter (fun (g : Nat × Nat) => g.2 / 16 == d.ctx)).foldl (fun t (g : Nat × Nat) =>
    let j := t.judged g.1 g.2 n
    if !j.completed && (j.late || decide (t.deadline g.1 g.2 < t.latency d)) && t.inJudgement g.2 n &&
       bit (t.rd (Reg.scCtrl g.1 g.2)) 31 && t.lastNeed d.ctx g.1 g.2 == t.latency d then
      t.deadlineFault j Code.deadlineMissing none
    else t) s

/-- DEADLINE_EXPIRY (02 R50): at the end of the deadline cycle without completion the group is late; where its last dependent output was
handed off before, DEADLINE_MISSING is raised now (R51). -/
def State.deadlineEnd (s : State) (t m : Nat) (n : W32) : State :=
  let j := s.judged t m n
  let d : Int := (s.deadline t m : Int) + 1 - tickDiff s.tickId n * (s.cTick : Int)
  if !bit (s.rd (Reg.scCtrl t m)) 31 || !s.inJudgement m n || j.completed || decide ((s.cTick : Int) < d) then s
  else
    let s := s.atCycle d.toNat
    if s.lastNeed (m / 16) t m ≤ s.deadline t m then s.deadlineFault j Code.deadlineMissing none
    else s.setJudge { j with late := true }

def execDeadlineExpiry (tile m : Nat) (event : W32) (s : State) : Host.Outcome State Fault Refusal :=
  s.onUnit (monOk tile m) (if s.hubOn then s.deadlineEnd tile m event else s)

/-- The tick after its event's and the cycle in it of an output's hand-off. -/
def State.dueT (s : State) (d : OutDecl) : Nat := s.latency d / max 1 s.cTick
def State.dueC (s : State) (d : OutDecl) : Nat := s.latency d % max 1 s.cTick

/-- An output emits: the record of the hand-off with its tick (02 R44, R53; 16 R417). -/
def State.emit (s : State) (d : OutDecl) (n : W32) (v : W64) (fallback gap poison awaits : Bool) : State :=
  { s with
    clk.emitted := s.clk.emitted ++ [⟨d.ctx, d.out, n, n + BitVec.ofNat 32 d.latT, v, fallback, gap, poison, awaits⟩],
    clk.vals := s.clk.vals.filter (fun x => !(x.k == d.ctx && x.o == d.out && x.event == n)) }

/-- Poison found at an output hand-off is consumed (07 R201). -/
def State.consumeOut (s : State) (d : OutDecl) (n : W32) : State :=
  match d.src with
  | some (t, lc, _, _) =>
    let a := Reg.coreBase t (s.phys t lc)
    s.raise Code.poisonConsumed { die := t, unit := s.phys t lc, ctx := d.ctx, sub := d.out } n (detailA a (tensorOf s.ant.tensors a) 0)
  | none => s

/-- The hand-off of an event in flight (02 R53): its value, or the fallback where a group it depends on is late or marked, or the
value is poisoned. A value that no flit brought is open (log 13). -/
def State.handOff (s : State) (d : OutDecl) (n : W32) : State :=
  let late := s.lateFor d n s.cycleNow
  let marked := s.markedFor d n
  let val := s.clk.vals.find? (fun x => x.k == d.ctx && x.o == d.out && x.event == n)
  let bad := (val.map (·.poison)).getD false
  let s := if bad then s.consumeOut d n else s
  let t :=
    if late || marked || bad then
      let s := if late && val.isSome then s.bump (Reg.fbDiscard d.ctx d.out) else s
      let v := s.fbValue d
      (s.countFallback d.ctx d.out n).emit d n v true false (marked || bad) (late && val.isNone)
    else
      match val with
      | some x => (s.holdValue d.ctx d.out x.value).emit d n x.value false false false false
      | none =>
        let (lo, s) := s.fresh
        let (hi, s) := s.fresh
        let v : W64 := BitVec.ofNat 64 ((lo.toNat + hi.toNat * 2 ^ 32) % 2 ^ d.width)
        (s.holdValue d.ctx d.out v).emit d n v false false false false
  t.missing d n

/-- The hand-off stage: in the cycle in which an event is due in this tick an output emits once: the value or fallback of an event that
entered; the fallback alone, flagged as a gap or not, of a gap tick, of an abandoned event, of a context in Faulted (06 Table 6.2), or of
outputs held in Halted or by shedding. -/
def State.handStage (s : State) (d : OutDecl) (n : W32) : State :=
  let k := d.ctx
  let x := s.cx k
  if s.tickId ≠ n + BitVec.ofNat 32 (s.dueT d) ∨ s.clk.emitted.any (fun e => e.k == k && e.o == d.out && e.event == n) then s
  else
    let s := s.atCycle (s.dueC d)
    if x.gaps.elem n then s.emit d n (s.fbValue d) true true false false
    else if x.abandoned.elem n then s.emit d n (s.fbValue d) true false false false
    else if s.ctxState k = Ctx.faulted then (s.countFallback k d.out n).emit d n (s.fbValue d) true false false false
    else if x.entered.elem n then s.handOff d n
    else if x.heldOut ≠ 0 then s.emit d n (s.fbValue d) true false false false
    else s

/-- OUTPUT_HANDOFF (02 R44, R53; 06 R163, R169; 15 R402): the hand-off of an event into the register or word of the output; before it, where
the output has decision bits and one stands out, the entry of its fallback into the decision line. -/
def State.outputHandoff (s : State) (k o : Nat) (n : W32) : State :=
  match s.outDecl k o with
  | none => s
  | some d => if s.lineDue d n then s.lineStage d n else s.handStage d n

def execOutputHandoff (k o : Nat) (event : W32) (s : State) : Host.Outcome State Fault Refusal :=
  s.onUnit (decide (k < 4 ∧ o < 64)) (if s.hubOn then s.outputHandoff k o event else s)

/-- FB_CLR.CLR (02 Table 2.5). -/
def State.clearFb (s : State) (k o : Nat) : State :=
  s.wrs [(Reg.fbCount k o, 0), (Reg.fbLastTick k o, 0), (Reg.fbDiscard k o, 0)]

def execFbClr (k o : Nat) (s : State) : Host.Outcome State Fault Refusal :=
  s.onUnit (decide (k < 4 ∧ o < 64)) (if s.hubOn then s.clearFb k o else s)

end Sys2Proof.Machine
end

