-- ==== Sys2Proof/Machine/RunControl.lean ====
section
/-! DEFINITION. The life of contexts at the strobes (06 R160 to R167; 15 R402 to R405; 17 R436, R437, R440): ARM, START, DRAIN, STOP and
RESUME, Faulted, retirement, Halted, and stages S4 and S5. What falls due at one strobe takes effect in the order of R165, shedding
first, ARM and START after every item, and RESUME last; a row carries out every level up to its own. -/

namespace Sys2Proof.Machine

/-! Shedding (17 Table 17.1). -/

/-- The threshold of a stage on V_BUS in 10 mV. -/
def shedBelow (st : Nat) : Nat := match st with | 1 => 4100 | 2 => 3950 | 3 => 3800 | 4 => 3700 | 5 => 3600 | _ => 3400

/-- The restore level of a stage in 10 mV. -/
def shedBack (st : Nat) : Nat := match st with | 1 => 4250 | 2 => 4100 | 3 => 3950 | 4 => 3850 | _ => 3750

/-- The thermal threshold of a stage in 0.1 °C. -/
def shedHot (st : Nat) : Int := match st with | 1 => 950 | 2 => 970 | 3 => 990 | 4 => 1010 | 5 => 1030 | _ => 1050

/-- The hottest junction temperature in 0.1 °C. -/
def State.tempMax (s : State) : Int := toSigned 16 (s.rdF Reg.tempMax 0 16)

/-- Whether a stage's restore condition holds (17 R439, R441): V_BUS, and for a thermal stage the temperature 3 °C below its
threshold. -/
def State.restorable (s : State) (st : Nat) : Bool :=
  decide (shedBack st ≤ s.rdF Reg.busV 0 16) && (decide (s.rdF Reg.pwrStat 18 3 < st) || decide (s.tempMax ≤ shedHot st - 30))

/-- DETAIL layout P (21 Table 21.1). -/
def State.detailP (s : State) (stage : Nat) (thermal : Bool) : Nat :=
  s.rdF Reg.feedV 16 16 + s.rdF Reg.feedV 0 16 * 2 ^ 16 + s.rdF Reg.busV 0 16 * 2 ^ 32 + stage * 2 ^ 48 +
  (if thermal then 2 ^ 51 else 0) + s.rdF Reg.tempMax 16 8 * 2 ^ 52 + s.rdF Reg.tempMax 0 16 * 2 ^ 60

/-- A code of the power manager. -/
def State.raisePwr (s : State) (code unit stage : Nat) (thermal : Bool) : State :=
  s.raiseNow code { die := Die.warden, unit := unit } (s.detailP stage thermal)

/-- Whether shedding refuses a context (15 R404; 17 R436). -/
def State.shedBlocked (s : State) (k : Nat) : Bool :=
  (decide (4 ≤ s.shedStage) && !(s.cx k).essential) || (decide (5 ≤ s.shedStage) && s.ctxTimed k)

/-- Whether a twin lane in twin mode. -/
def State.twinLane (s : State) (n : Nat) : Bool := decide (136 ≤ n) && bit (s.rd Reg.twinCfg) 31

/-- A lane that S3 keeps (17 R435). -/
def State.keptS3 (s : State) (n : Nat) : Bool :=
  s.laneMode n != 3 && (s.twinLane n ||
    (match s.laneGrp n with
     | some g => s.link.classT.any (fun e => e.2 == g && s.ctxState e.1 != Ctx.empty) || bit (s.rd (Reg.keep (g / 32))) (g % 32)
     | none => false))

/-- A lane that S5 leaves on (17 R437): of the twin link, or of a group that feeds enabled sample channels. -/
def State.keptS5 (s : State) (n : Nat) : Bool :=
  s.twinLane n ||
    (match s.laneGrp n with
     | some g => (List.range 1024).any (fun ch => bit (s.rd (Reg.sch ch)) 31 && s.rdF (Reg.sch ch) 21 6 == g)
     | none => false)

/-- Turns lanes Off in both directions, and keeps which they were. -/
def State.shedLanes (s : State) (kept : Nat → Bool) : State :=
  ((List.range 144).filter (fun n => !kept n && (s.txState n != 0 || s.rxState n != Rx.off))).foldl (fun t n =>
    let t := ((t.settleLane n).rxOff n).setTx n 0
    { t with pwr.offLanes := insertNat n t.pwr.offLanes }) s

/-- The tile array without power (17 R437): core store, instruction RAM and queue RAM are lost, and whatever the cores hold with
them (what lost bytes read as: log 6). -/
def State.loseTiles (s : State) : State :=
  let s := (List.range 4).foldl (fun t k => (t.cx k).cores.foldl (fun u (e : Nat × Nat) =>
    let c := u.phys e.1 e.2
    ((List.range 8).foldl (fun v q => v.wr (Reg.qstat e.1 c k q) 0) u).wr (Reg.ctxStat e.1 c k) 0) t) s
  let s := (List.range 16).foldl (fun t x => t.wr (Reg.scarab x + 0xC) 0) s
  { s with
    mem := s.mem.filter (fun e => decide (0x100000000 ≤ e.1)),
    poison := s.poison.filter (fun a => decide (0x100000000 ≤ a)),
    ant.firings := [], ant.vr := [], ant.vrPoison := [], ant.acc := [], ant.shadows := [], ant.units := [], ant.endAt := [], ant.side := [], ant.mesh := [], ant.credits := [],
    ant.mcast := [], ant.requests := [], ant.calls := [], ant.sfuOuts := [], ant.kv := [], ant.engineAt := [],
    scarab.spilled := [], scarab.blocked := [] }

/-! Contexts. -/

/-- Every physical core a context is loaded on. -/
def State.coresOf (s : State) (k : Nat) : List (Nat × Nat) := (s.cx k).cores.map (fun (e : Nat × Nat) => (e.1, s.phys e.1 e.2))

/-- VALID of a context on every core, and ENABLE of its monitors (06 R160, R162; 02 R49): those of a Survey context stay disabled. -/
def State.setLive (s : State) (k : Nat) (on : Bool) : State :=
  let s := (s.coresOf k).foldl (fun t (e : Nat × Nat) =>
    t.wr (Reg.ctxCfg e.1 e.2 k) (setBit (t.rd (Reg.ctxCfg e.1 e.2 k)) 31 on)) s
  (s.clk.groups.filter (fun (g : Nat × Nat) => g.2 / 16 == k)).foldl (fun t (g : Nat × Nat) =>
    t.wr (Reg.scCtrl g.1 g.2) (setBit (t.rd (Reg.scCtrl g.1 g.2)) 31 (on && s.ctxTimed k))) s

/-- Flushes every queue of a context, ends its firings, frees its partitions of the special-function units and clears VALID and ENABLE
(06 R162). -/
def State.flushCtx (s : State) (k : Nat) (loud : Bool) : State :=
  let s := (s.coresOf k).foldl (fun t (e : Nat × Nat) =>
    (List.range 8).foldl (fun u q => u.qFlush e.1 e.2 k q loud (u.qCount e.1 e.2 k q + 1)) t) s
  { (s.setLive k false) with
    ant.firings := s.ant.firings.filter (fun f => f.ctx != k),
    ant.calls := s.ant.calls.filter (fun c => c.ctx != k), ant.kv := s.ant.kv.filter (fun b => b.ctx != k) }

/-- The events of a context that entered and whose outputs have not all emitted (06 R163). -/
def State.inFlight (s : State) (k : Nat) : List W32 :=
  let c := s.cx k
  c.entered.filter (fun n => !c.abandoned.elem n &&
    s.clk.outs.any (fun d => d.ctx == k && tickReached (n + BitVec.ofNat 32 d.latT) s.tickId &&
      !s.clk.emitted.any (fun e => e.k == k && e.o == d.out && e.event == n)))

/-- Whether STOP, Halted or shedding stops a context. -/
def State.stoppable (s : State) (k : Nat) : Bool :=
  [Ctx.armed, Ctx.running, Ctx.draining, Ctx.faulted].elem (s.ctxState k)

/-- A context is stopped (06 R163): in-flight events abandoned and counted, Retired; Armed returns to Loaded under STOP (15 R404).
`held` is 0 for STOP, 1 in Halted and 2 for shedding, whose outputs go on emitting fallbacks (15 R402; 17 R436). -/
def State.stopOne (s : State) (k held : Nat) : State :=
  let c := s.cx k
  if s.ctxState k = Ctx.armed ∧ held = 0 then s.setCtxState k Ctx.loaded
  else
    let ab := s.inFlight k
    let s := (s.flushCtx k false).bumpBy (Reg.ctxrAbandoned k) ab.length
    let s := s.setCx k { c with abandoned := c.abandoned ++ ab, drainAt := none, faultAt := none, retireAt := none,
                                freedAt := some s.tick.strobes, timedOut := false, holds := [], heldOut := held,
                                passEnd := false, passStart := none }
    (s.wr (Reg.ctxrRetire k) s.tickId).setCtxState k Ctx.retired

/-- Stops contexts; a DRAIN that names one of them completes with SUPERSEDED (06 R165, 15 R387). -/
def State.stopAll (s : State) (ks : List Nat) (held : Nat) : State :=
  let s := (ks.foldl (fun t k => t.stopOne k held) s).derive
  s.complete (fun a => a.opcode == Op.drain && ks.any (fun k => nbit a.mask k)) Status.superseded [(rej Status.superseded).detail]

/-- A context retires (06 R162): the flits that its queues still hold are flushed as STALE_FLIT. -/
def State.retireCtx (s : State) (k : Nat) : State :=
  let s := s.flushCtx k true
  let s := s.setCx k { s.cx k with drainAt := none, faultAt := none, retireAt := none, freedAt := some s.tick.strobes, timedOut := false,
                                   holds := [], heldOut := 0 }
  (s.wr (Reg.ctxrRetire k) s.tickId).setCtxState k Ctx.retired

/-- Completes each DRAIN whose contexts are all Retired, with RETIRE_TICK. -/
def State.finishDrains (s : State) : State :=
  let s := s.derive
  s.complete (fun a => a.opcode == Op.drain && (bitsOf a.mask 4).all (fun k => s.ctxState k == Ctx.retired)) Status.ok [s.tickId]

/-- Whether the tick is a declared drain slot of a context (06 R168). -/
def State.declaredGap (s : State) (k : Nat) (n : W32) : Bool :=
  let w := s.rd (Reg.ctxrGapCfg k)
  bit w 31 && n.toNat % 2 ^ fld w 24 5 == fld w 0 24

/-- The event of the current tick enters a context, or its tick is a gap, declared or held by the Hub (06 R160, R168). The last event that
a pass of a pass chain takes ends it: it drains from the next strobe and retires by R167 (06 R174). -/
def State.enterEvent (s : State) (k : Nat) : State :=
  let c := s.cx k
  let n := s.tickId
  if c.entered.elem n || c.gaps.elem n then s
  else if s.declaredGap k n then
    (s.setCx k { c with gaps := c.gaps ++ [n], holds := c.holds.filter (· != n) }).wrapBy (Reg.ctxrGaps k) 1
  else if c.holds.elem n then
    ((s.setCx k { c with gaps := c.gaps ++ [n], holds := c.holds.filter (· != n), lastHold := some n }).wrapBy (Reg.ctxrGaps k) 1).wrapBy
      (Reg.ctxrHolds k) 1
  else
    let s := s.setCx k { c with entered := c.entered ++ [n], passEvents := c.passEvents + 1 }
    match s.imageOf k with
    | some i =>
      if i.img.passes ≠ 0 ∧ i.img.passEvents ≤ c.passEvents + 1 ∧ s.ctxState k = Ctx.running then
        s.setCx k { s.cx k with drainAt := some (n + 1), passEnd := true }
      else s
    | none => s

/-! The levels of a strobe. -/

/-- The asynchronous commands of an opcode whose strobe has come, in order. -/
def State.dueAsync (s : State) (op : Nat) : List Async := s.host.async.filter (fun a => a.opcode == op && tickReached s.tickId a.tick)

/-- Completes one asynchronous command, with the state that holds afterwards. -/
def State.finish (s : State) (a : Async) (ok : Bool) (payload : List W32) : State :=
  if ok then s.complete (fun b => b == a) Status.ok payload
  else s.complete (fun b => b == a) Status.superseded [(rej Status.superseded).detail]

/-- Stages S4 and S5 at their strobe (17 R437). -/
def State.strongShed (s : State) : State :=
  if s.due s.pwr.strongAt then
    let st := s.shedStage
    let s := { s with pwr.strongAt := none }
    let s := s.stopAll ((List.range 4).filter (fun k => s.ctxTimed k && s.stoppable k && (decide (5 ≤ st) || !(s.cx k).essential))) 2
    if 5 ≤ st then { (s.loseTiles.shedLanes s.keptS5) with pwr.asleep := 255 } else s
  else s

/-- Escalation enters Halted (02 R55, R56; 15 R402): every Timed context stops with its outputs held; an active twin releases (16
R423). -/
def State.doHalted (s : State) : State :=
  if s.hubOn && s.due s.clk.escalateAt then
    let s := { s with clk.escalateAt := none }
    if s.dev.state = .halted then s
    else
      let s := { s with dev.state := .halted }
      let s := if bit (s.rd Reg.twinStat) 28 && bit (s.rd Reg.twinCfg) 31 then { s with twin.releaseAt := some s.tickId } else s
      s.stopAll ((List.range 4).filter (fun k => s.ctxTimed k && s.stoppable k)) 1
  else s

/-- STOP takes effect (06 R163). -/
def State.doStops (s : State) : State :=
  (s.dueAsync Op.stop).foldl (fun t a =>
    let ks := (bitsOf a.mask 4).filter t.stoppable
    (t.stopAll ks 0).finish a (!ks.isEmpty) [t.tickId]) s

/-- The Scarab transition to Faulted (06 R176). -/
def State.doFaulted (s : State) : State :=
  ((List.range 4).foldl (fun t k =>
    if t.due (t.cx k).faultAt then
      let t := t.setCx k { t.cx k with faultAt := none }
      if t.ctxState k = Ctx.running then t.setCtxState k Ctx.faulted else t
    else t) s).derive

/-- The largest T_LAST of a context's chain (06 R164). -/
def State.chainLast (s : State) (k : Nat) : Nat := (s.chainOf (2 ^ k)).foldl (fun m j => max m (s.ctxTLast j)) 0

/-- DRAIN takes effect (06 R161, R162); a context that has become Faulted since retires at the next strobe (Table 6.2). -/
def State.doDrains (s : State) : State :=
  ((List.range 4).foldl (fun t k =>
    let c := t.cx k
    if !t.due c.drainAt then t
    else if t.ctxState k = Ctx.running then
      (t.setCx k { c with retireAt := if t.ctxTimed k then c.drainAt.map (fun d => d + BitVec.ofNat 32 (t.chainLast k)) else none }).setCtxState
        k Ctx.draining
    else if t.ctxState k = Ctx.faulted ∧ c.retireAt = none then t.setCx k { c with retireAt := some t.nextStrobe }
    else t) s).derive

/-- Retirements that fall due (06 R162, R167). -/
def State.doRetirements (s : State) : State :=
  ((List.range 4).foldl (fun t k =>
    if t.due (t.cx k).retireAt && (t.ctxState k == Ctx.draining || t.ctxState k == Ctx.faulted) then t.retireCtx k else t) s).finishDrains

/-- A context starts (06 Table 6.2; 02 R49, R54): Running, VALID and its monitors enabled, no HOLD_LAST value, its first event. -/
def State.startCtx (s : State) (k : Nat) : State :=
  let s := (s.setLive k true).setCtxState k Ctx.running
  let s := (s.wr (Reg.ctxrStart k) s.tickId).wr (Reg.ctxrStop k) 0
  let s := s.setCx k { s.cx k with drainAt := none, faultAt := none, retireAt := none, timedOut := false, heldOut := 0, passEvents := 0 }
  { s with clk.held := s.clk.held.filter (fun (e : Nat × Nat × W64) => e.1 != k) }.enterEvent k

/-- UNLOAD takes effect (06 R160; 09 R243): the slots of an image become Empty and what it held becomes free. -/
def State.doUnloads (s : State) : State :=
  (s.loader.images.foldl (fun t i =>
    if (bitsOf i.mask 4).any (fun k => t.due (t.cx k).unloadAt) then t.freeImage i else t) s).derive

/-- The next pass of a pass chain starts at its strobe (06 R174, Table 6.2): the slots of its image show it. -/
def State.startPasses (s : State) : State :=
  (List.range 4).foldl (fun t k =>
    match (t.cx k).passStart, t.imageOf k with
    | some (d, q), some i =>
      if tickReached t.tickId d ∧ (t.ctxState k = Ctx.loaded ∨ t.ctxState k = Ctx.retired) then
        let t := (bitsOf i.mask 4).foldl (fun u x => u.wrF (Reg.ctxrPass x) 16 16 q) t
        (t.setCx k { t.cx k with shadow := none, passStart := none }).startCtx k
      else t
    | _, _ => t) s

/-- ARM and START in the order in which they were accepted; one that has become impossible is SUPERSEDED (06 R165); before them
the passes of pass chains. -/
def State.doStarts (s : State) : State :=
  (s.host.async.filter (fun a => (a.opcode == Op.arm || a.opcode == Op.start) && tickReached s.tickId a.tick)).foldl (fun t a =>
    let ks := bitsOf a.mask 4
    let can := ks.filter (fun k => if a.opcode = Op.arm then t.ctxState k == Ctx.loaded
                                   else t.ctxState k == Ctx.armed || t.ctxState k == Ctx.retired)
    if t.dev.state == .halted || can.isEmpty || (a.opcode == Op.start && ks.any t.shedBlocked) then t.finish a false []
    else
      let t := can.foldl (fun u k => if a.opcode = Op.arm then u.setCtxState k Ctx.armed else u.startCtx k) t
      t.derive.finish a true [t.tickId]) s.startPasses.derive

/-- RESUME with MODE 0 (15 R402): Halted is left, held outputs are idle, every WIN_COUNT clears. -/
def State.leaveHalted (s : State) : State :=
  let s := { s with dev.state := .idle }.derive
  let s := s.mapCx (List.range 4) (fun c => if c.heldOut = 1 then { c with heldOut := 0 } else c)
  s.clk.outs.foldl (fun t d => t.wrF (Reg.fbWin d.ctx d.out) 0 16 0) s

/-- RESUME with MODE 1 at its strobe (17 R440): S5 and S4 are restored where every held stage's condition holds; after S5 the Hub
rewrites the tiles, and the command stays outstanding until RESUME_REWRITE_DONE. -/
def State.leaveShed (s : State) (a : Async) : State :=
  let st := s.shedStage
  if bit (s.rd Reg.pwrStat) 17 && s.restorable 4 && (decide (st < 5) || s.restorable 5) then
    let s := if 5 ≤ st then s.raisePwr Code.shedRestore 5 5 (decide (5 ≤ s.rdF Reg.pwrStat 18 3)) else s
    let s := s.raisePwr Code.shedRestore 4 4 (decide (4 ≤ s.rdF Reg.pwrStat 18 3))
    let w := s.rd Reg.pwrStat
    let w := setBit (setFld (setFld (setFld w 24 3 3) 21 3 (min 3 (fld w 21 3))) 18 3 (min 3 (fld w 18 3))) 17 false
    let s := { (s.wr Reg.pwrStat w) with pwr.dwellFrom := s.pwr.samples }
    let s := s.mapCx (List.range 4) (fun c => if c.heldOut = 2 then { c with heldOut := 0 } else c)
    if 5 ≤ st then { s with pwr.rewriting := true } else s.finish a true [s.tickId]
  else s.complete (fun b => b == a) Status.shedActive [(rej Status.shedActive st).detail]

/-- RESUME takes effect (15 R402, R405). -/
def State.doResumes (s : State) : State :=
  (s.dueAsync Op.resume).foldl (fun t a =>
    if a.mask = 0 then
      (if t.dev.state = .halted then t.leaveHalted.finish a true [t.tickId] else t.finish a false [])
    else if t.pwr.rewriting then t
    else t.leaveShed a) s

/-- The levels in order; a row carries out those up to its own. -/
def State.runControl (s : State) (last : Nat) : State :=
  let go := fun (i : Nat) (f : State → State) (t : State) => if i ≤ last && t.hubOn then f t else t
  go 7 State.doResumes (go 6 State.doStarts (go 5 State.doUnloads (go 5 State.doRetirements (go 4 State.doDrains (go 3 State.doFaulted
    (go 2 State.doStops (go 1 State.doHalted (go 0 State.strongShed s))))))))

def execShedStrongStrobe (s : State) : Host.Outcome State Fault Refusal := s.done (s.runControl 0)
def execHaltedEntry (s : State) : Host.Outcome State Fault Refusal := s.done (s.runControl 1)
def execStopStrobe (s : State) : Host.Outcome State Fault Refusal := s.done (s.runControl 2)
def execContextFaulted (s : State) : Host.Outcome State Fault Refusal := s.done (s.runControl 3)
def execDrainStrobe (s : State) : Host.Outcome State Fault Refusal := s.done (s.runControl 4)
def execContextRetirement (s : State) : Host.Outcome State Fault Refusal := s.done (s.runControl 5)
def execContextArmed (s : State) : Host.Outcome State Fault Refusal := s.done (s.runControl 6)
def execContextStartStrobe (s : State) : Host.Outcome State Fault Refusal := s.done (s.runControl 6)
def execResumeStrobe (s : State) : Host.Outcome State Fault Refusal := s.done (s.runControl 7)

/-! Survey drains (06 R167). -/

/-- Whether a Survey context is empty and idle: its queues, firings, flits on their way and SFU calls. -/
def State.surveyIdle (s : State) (k : Nat) : Bool :=
  (s.coresOf k).all (fun (e : Nat × Nat) => (List.range 8).all (fun q => s.qCount e.1 e.2 k q == 0)) &&
  !s.ant.firings.any (fun f => f.ctx == k) && !s.ant.calls.any (fun c => c.ctx == k) && !s.ant.sfuOuts.any (fun o => o.ctx == k && !o.sent)

/-- SURVEY_DRAIN_RETIRE: no earlier than strobe D + 1; a chain retires as a whole (06 R164), but for a context of it that has retired. -/
def State.surveyRetire (s : State) (k : Nat) : State :=
  let ks := s.chainOf (2 ^ k)
  let ready := fun (j : Nat) => s.ctxState j == Ctx.draining && !s.ctxTimed j && s.surveyIdle j &&
    (match (s.cx j).drainAt with
     | some d => decide (1 ≤ tickDiff s.tickId d)
     | none => false)
  let gone := fun (j : Nat) => j != k && s.ctxState j == Ctx.retired
  if s.hubOn && ks.all (fun j => ready j || gone j) then ((ks.filter ready).foldl State.retireCtx s).finishDrains else s

def execSurveyDrainRetire (k : Nat) (s : State) : Host.Outcome State Fault Refusal := s.onUnit (decide (k < 4)) (s.surveyRetire k)

/-- DRAIN_TIMEOUT: 2^DRAIN_TO_LOG2 ticks after D the context is to retire at the next strobe. -/
def State.drainLate (s : State) (k : Nat) : State :=
  let c := s.cx k
  match c.drainAt with
  | some d =>
    if s.hubOn && s.ctxState k == Ctx.draining && !s.ctxTimed k && !c.timedOut &&
       decide (2 ^ s.rdF (Reg.ctxrDrainTo k) 0 5 ≤ (s.tickId - d).toNat ∧ s.tickId + 1 ≠ d) then
      let s := s.raiseNow Code.drainTimeout { die := Die.hub, unit := k, ctx := k } 0
      s.mapCx (s.chainOf (2 ^ k)) (fun c => { c with timedOut := true, retireAt := some s.nextStrobe })
    else s
  | none => s

def execDrainTimeout (k : Nat) (s : State) : Host.Outcome State Fault Refusal := s.onUnit (decide (k < 4)) (s.drainLate k)

/-! The commands (15 R404, R405). -/

/-- The context that is not in one of the states a command requires (15 Table 15.12). -/
def State.ctxRej (s : State) (ks states : List Nat) : Option Rej :=
  (ks.find? (fun k => !states.elem (s.ctxState k))).map (fun k => rej Status.ctxState (k + 16 * s.ctxState k))

/-- Whether events may enter (02 R41). -/
def State.tickLocked (s : State) : Bool := !bit (s.rd Reg.tickCfg) 31 || bit (s.rd Reg.tickStatus) 31

/-- The first class-T group of the contexts that is not ready. -/
def State.linkRej (s : State) (ks : List Nat) : Option Rej :=
  (s.link.classT.find? (fun (e : Nat × Nat) => ks.elem e.1 && !s.grpReady e.2)).map (fun e => rej Status.linkNotReady e.2)

def maskOf (ks : List Nat) : Nat := natOf 4 (fun k => ks.elem k)

/-- ARM. -/
def execArm (h : Hdr) (mask : Nat) (s : State) : Host.Outcome State Fault Refusal :=
  s.done (s.serve h Op.arm
    (fun s =>
      let ks := s.chainOf (mask % 16)
      orRej (firstRej [(mask % 16 != 0, rej Status.valueRange 0 0)])
        (orRej (s.ctxRej ks [Ctx.loaded])
          (orRej (firstRej [(s.tickLocked, rej Status.tickNotLocked)])
            (orRej (s.linkRej ks)
              (firstRej [(s.twinState == 4 || !ks.any (fun k => (s.cx k).twin), rej Status.twinRequired)])))))
    (fun s => { st := s, out := [s.nextStrobe], mask := maskOf (s.chainOf (mask % 16)), tick := s.nextStrobe }))

/-- START. -/
def execStart (h : Hdr) (mask : Nat) (d : W32) (s : State) : Host.Outcome State Fault Refusal :=
  s.done (s.serve h Op.start
    (fun s =>
      let ks := s.chainOf (mask % 16)
      orRej (firstRej [(mask % 16 != 0, rej Status.valueRange 0 0)])
        (orRej (s.ctxRej ks [Ctx.armed, Ctx.retired])
          (orRej (firstRej [(s.strobeOk d, rej Status.valueRange 0 1), (s.tickLocked, rej Status.tickNotLocked)])
            (orRej (s.linkRej ks)
              (firstRej [(!ks.any s.shedBlocked, rej Status.shedActive s.shedStage)])))))
    (fun s => { st := s, out := [s.strobeOf d], mask := maskOf (s.chainOf (mask % 16)), tick := s.strobeOf d }))

/-- DRAIN (06 R161): D is final, and CTXR_STOP shows it. -/
def execDrain (h : Hdr) (mask : Nat) (d : W32) (s : State) : Host.Outcome State Fault Refusal :=
  s.done (s.serve h Op.drain
    (fun s =>
      let ks := s.chainOf (mask % 16)
      orRej (firstRej [(mask % 16 != 0, rej Status.valueRange 0 0)])
        (orRej (s.ctxRej ks [Ctx.running, Ctx.faulted])
          (firstRej [ (s.strobeOk d, rej Status.valueRange 0 1)
                    , (!ks.any (fun k => (s.cx k).drainAt.isSome), rej Status.resourceBusy) ])))
    (fun s =>
      let ks := s.chainOf (mask % 16)
      let x := s.strobeOf d
      { st := ks.foldl (fun t k =>
          let t := t.wr (Reg.ctxrStop k) x
          let r := if t.ctxState k = Ctx.faulted then some t.nextStrobe else (t.cx k).retireAt
          t.setCx k { t.cx k with drainAt := some x, retireAt := r }) s,
        out := [x], mask := maskOf ks, tick := x }))

/-- STOP. -/
def execStop (h : Hdr) (mask : Nat) (s : State) : Host.Outcome State Fault Refusal :=
  s.done (s.serve h Op.stop
    (fun s => orRej (firstRej [(mask % 16 != 0, rej Status.valueRange 0 0)])
      (s.ctxRej (s.chainOf (mask % 16)) [Ctx.armed, Ctx.running, Ctx.draining, Ctx.faulted]))
    (fun s => { st := s, out := [s.nextStrobe], mask := maskOf (s.chainOf (mask % 16)), tick := s.nextStrobe }))

/-- RESUME (15 R405; 17 R440). -/
def execResume (h : Hdr) (mode : Nat) (s : State) : Host.Outcome State Fault Refusal :=
  s.done (s.serve h Op.resume
    (fun s =>
      let busy := s.host.async.any (fun a => a.opcode == Op.resume && a.mask == mode % 2)
      if mode % 2 = 0 then firstRej [(s.dev.state == .halted, rej Status.stateIllegal), (!busy, rej Status.resourceBusy)]
      else firstRej [(!busy, rej Status.resourceBusy), (bit (s.rd Reg.pwrStat) 17, rej Status.shedNotHeld)])
    (fun s => { st := s, mask := mode % 2, tick := s.nextStrobe }))

end Sys2Proof.Machine
end

