-- ==== Sys2Proof/Machine/Tick.lean ====
section
/-! DEFINITION. The tick generator (02 R36 to R43): TICK_CONFIG, TICK_ID_SET, TICK_IN, TICK_OUT, and what a strobe itself does. -/

namespace Sys2Proof.Machine

/-- The SAMPLE cycles of a tick. -/
def State.half (s : State) : Nat := max 1 (s.cTick / 2)

def TickSt.clearIn (t : TickSt) : TickSt :=
  { t with expect := none, seen := [], good := 0, slipRun := 0, otherOff := 0, otherRun := 0, everLocked := false }

/-- TICK_CONFIG (02 R36, R37, R39; 16 R411): the generator restarts; TICK_ID stands. With TICK_IN the first captured edge starts it.
TICK_STATUS is cleared with the lock it described (DESIGN CHOICE, log 26: R37 does not say). -/
def execTickConfig (h : Hdr) (source cTick : Nat) (s : State) : Host.Outcome State Fault Refusal :=
  s.done (s.serve h Op.tickConfig
    (fun s => firstRej
      [ (decide (source < 2 ∧ 8 ≤ cTick ∧ cTick ≤ 65534 ∧ cTick % 2 = 0), rej Status.valueRange 0 0)
      , (!bit (s.rd Reg.twinCfg) 31 || decide (40 ≤ cTick), rej Status.valueRange 0 0) ])
    (fun s =>
      let s := (s.wr Reg.tickCfg (BitVec.ofNat 32 (source * 2 ^ 31 + cTick))).wr Reg.tickStatus 0
      { st := { s with tick := { s.tick.clearIn with running := source == 0, nextAt := s.tod.fab + 1 } } }))

/-- TICK_ID_SET (02 R37): the next strobe takes it. -/
def execTickIdSet (h : Hdr) (id : W32) (s : State) : Host.Outcome State Fault Refusal :=
  s.done (s.serve h Op.tickIdSet noCheck (fun s => { st := { s with tick.pendingId := some id } }))

/-! TICK_IN (02 R40). SAMPLE cycles count from reset. -/

def State.tickFlag (s : State) (i : Nat) : Bool := bit (s.rd Reg.tickStatus) i
def State.setTickFlag (s : State) (i : Nat) (b : Bool) : State := s.wr Reg.tickStatus (setBit (s.rd Reg.tickStatus) i b)

/-- A window that is not clean breaks or continues a run on another phase: in the flywheel, one edge in one and the same other cycle;
the 16th raises TICK_IN_PHASE and sets PHASE_DIFF. -/
def State.otherPhase (s : State) (e : Nat) : State :=
  match s.tickFlag 30, s.tick.seen with
  | true, [x] =>
    let off := x - e
    if s.tick.otherRun ≠ 0 ∧ off = s.tick.otherOff then
      let s := { s with tick.otherRun := s.tick.otherRun + 1 }
      if s.tick.otherRun = 16 then (s.setTickFlag 29 true).raiseNow Code.tickInPhase { die := Die.hub } 0 else s
    else { s with tick.otherRun := 1, tick.otherOff := off }.setTickFlag 29 false
  | _, _ => { s with tick.otherRun := 0 }.setTickFlag 29 false

/-- The window that opens at the locked cycle `e` ends. Before the first lock a missing edge restarts the count; after it every
missing edge and every edge elsewhere is a slip. -/
def State.windowEnd (s : State) (e : Nat) : State :=
  let seen := s.tick.seen
  let s :=
    if !s.tick.everLocked then (if seen.elem e then s else { s with tick.good := 0 })
    else if seen = [e] then
      { s with tick.slipRun := 0, tick.good := s.tick.good + 1, tick.otherRun := 0 }.setTickFlag 29 false
    else
      let s := s.bumpBy Reg.tickInSlips ((if seen.elem e then 0 else 1) + (seen.filter (· != e)).length)
      { s.otherPhase e with tick.slipRun := s.tick.slipRun + 1, tick.good := 0 }
  { s with tick.expect := some (e + s.half), tick.seen := [] }

/-- Ends the windows that a SAMPLE cycle lies beyond. -/
def State.closeWindows (s : State) (x : Nat) : Nat → State
  | 0 => s
  | n + 1 =>
    match s.tick.expect with
    | some e => if e + s.half ≤ x then (s.windowEnd e).closeWindows x n else s
    | none => s

/-- An edge captured in SAMPLE cycle `x` fixes the phase: the strobe falls 6 SAMPLE cycles later. -/
def State.fixPhase (s : State) (x : Nat) : State :=
  { s with tick.running := true, tick.expect := some x, tick.seen := [x], tick.good := 1, tick.nextAt := 2 * (x + 6) }

/-- TICK_IN_EDGE: an edge captured in SAMPLE cycle `cyc` of this tick. -/
def State.tickInEdge (s : State) (cyc : Nat) : State :=
  let s := s.atCycle (2 * cyc)
  let x := s.tod.tickFab / 2 + cyc
  let s := s.wrF Reg.tickStatus 0 16 cyc
  match s.tick.expect with
  | none => s.fixPhase x
  | some e0 =>
    let s := s.closeWindows x ((x - e0) / s.half + 1)
    let e := s.tick.expect.getD x
    if s.tick.everLocked then { s with tick.seen := s.tick.seen ++ [x] }
    else if x = e then { s with tick.seen := [x], tick.good := s.tick.good + 1 }
    else s.fixPhase x

def execTickInEdge (cyc : Nat) (s : State) : Host.Outcome State Fault Refusal :=
  s.done (if s.hubOn && bit (s.rd Reg.tickCfg) 31 then s.tickInEdge cyc else s)

/-- TICK_IN_WINDOW_END. -/
def execTickInWindowEnd (s : State) : Host.Outcome State Fault Refusal :=
  s.done (match s.tick.expect with
    | some e => if s.hubOn && bit (s.rd Reg.tickCfg) 31 then (s.atFab (2 * (e + s.half))).windowEnd e else s
    | none => s)

/-- TICK_IN_LOCK: 16 consecutive good edges, or clean windows after a loss. -/
def execTickInLock (s : State) : Host.Outcome State Fault Refusal :=
  s.done (if s.hubOn && bit (s.rd Reg.tickCfg) 31 && !s.tickFlag 31 && decide (16 ≤ s.tick.good) then
    { (s.setTickFlag 31 true).setTickFlag 30 false with tick.everLocked := true, tick.slipRun := 0 }
  else s)

/-- TICK_IN_LOST: 4 consecutive slipped windows. -/
def execTickInLost (s : State) : Host.Outcome State Fault Refusal :=
  s.done (if s.hubOn && s.tickFlag 31 && decide (4 ≤ s.tick.slipRun) then
    State.raiseNow { ((s.setTickFlag 31 false).setTickFlag 30 true) with tick.otherRun := 0 } Code.tickInLost { die := Die.hub } 0
  else s)

/-- TICK_IN_PHASE_TAKE: the strobe moves onto the other phase while no Timed context is active; the edges already captured in the window
of that phase are its own. -/
def State.takePhase (s : State) : State :=
  let off := s.tick.otherOff
  let n := s.tod.tickFab + 2 * off
  let n := if s.tod.fab < n then n else n + s.cTick
  let s := (((s.setTickFlag 31 true).setTickFlag 30 false).setTickFlag 29 false)
  { s with tick.expect := s.tick.expect.map (· + off),
           tick.seen := s.tick.seen.filter (fun x => decide (s.tick.expect.getD 0 + off ≤ x)), tick.slipRun := 0, tick.otherRun := 0, tick.good := 16,
           tick.nextAt := n }

def execTickInPhaseTake (s : State) : Host.Outcome State Fault Refusal :=
  s.done (if s.hubOn && s.tickFlag 29 && !s.timedActive then s.takePhase else s)

/-! TICK_OUT (02 R42). -/

/-- The FAB cycles in which TICK_OUT rises, 4 SAMPLE cycles after a strobe in FAB cycle `f`, and falls, ⌊C_tick / 4⌋ SAMPLE cycles
later. -/
def State.outPulse (s : State) (f : Nat) : Nat × Nat := (f + 8, f + 8 + 2 * (s.cTick / 4))

/-- Whether TICK_OUT is high; it stays low in Safe (02 R37). -/
def State.tickOut (s : State) : Bool := s.hubOn && s.tick.outPulses.any (fun e => decide (e.1 ≤ s.tod.fab ∧ s.tod.fab < e.2))

/-- TICK_OUT_FALL: the earliest pulse ends, where it ends before the next strobe. -/
def execTickOutFall (s : State) : Host.Outcome State Fault Refusal :=
  s.done (match s.tick.outPulses with
    | e :: r => if s.hubOn && s.reach e.2 then { s.atFab e.2 with tick.outPulses := r } else s
    | [] => s)

/-! The strobe. -/

/-- What the ending tick still owed: pulses and records of its cycles, and the hand-offs due in it (12 R327, R329; 02 R44). -/
def State.endTick (s : State) : State :=
  let s := (List.range s.fe.pulses.length).foldl (fun t _ => t.combinerPulse) s
  let s := s.clk.outs.foldl (fun t d =>
    let n := t.tickId - BitVec.ofNat 32 (t.lineT d)
    if t.lineDue d n then t.lineStage d n else t) s
  let s := (List.range s.fe.pulses.length).foldl (fun t _ => t.combinerPulse) s
  let s := s.clk.outs.foldl (fun t d => t.handStage d (t.tickId - BitVec.ofNat 32 (t.dueT d))) s
  let s := (List.range s.fe.pulses.length).foldl (fun t _ => t.combinerPulse) s
  let s := (List.range s.fe.forming.length).foldl (fun t _ => t.triggerRecord) s
  if s.dev.state = .halted then { s with evidence := s.evidence ++ [(0, s.tickId)] } else s

/-- Whether a tick lies more than 256 ticks back: nothing of it is in flight any more (02 R44, R55). -/
def State.old (s : State) (n : W32) : Bool := decide (256 < tickDiff s.tickId n)

/-- Drops what belongs to ticks that lie further back than any latency, and what of the front end's an earlier count of the ticks left ahead. -/
def State.prune (s : State) : State :=
  let young := fun (n : W32) => !s.old n
  let past := fun (n : W32) => decide (0 ≤ tickDiff s.tickId n) && !s.old n
  let s := { s with
    clk.judges := s.clk.judges.filter (fun j => young j.event),
    clk.failed := s.clk.failed.filter (fun (e : Nat × Nat × W32 × Nat) => young e.2.2.1),
    clk.vals := s.clk.vals.filter (fun v => young v.event),
    clk.emitted := s.clk.emitted.filter (fun e => young e.tick),
    clk.lined := s.clk.lined.filter (fun (e : Nat × Nat × W32) => young e.2.2) }
  let s := s.mapCx (List.range 4) (fun c =>
    { c with entered := c.entered.filter young, gaps := c.gaps.filter young, abandoned := c.abandoned.filter young })
  let s := { s with
    evidence := s.evidence.filter (fun (e : Nat × W32) => young e.2),
    link.frames := s.link.frames.filter (fun f => young f.tick),
    link.events := s.link.events.filter (fun e => young e.tick) }
  { s with
    fe.records := s.fe.records.filter (fun (e : W32 × TrigRec) => past e.1),
    fe.summaries := s.fe.summaries.filter (fun (e : W32 × W32 × Nat) => past e.1),
    fe.strobes := s.fe.strobes.filter (fun (e : W32 × Nat) => past e.1),
    twin.tapped := s.twin.tapped.filter (fun (e : W32 × Nat × BitVec 256 × W32 × Bool) => young e.1) }

/-- Whether something that falls due at this strobe takes a Running context out of Running (06 R165; 17 R437). -/
def State.leaving (s : State) (k : Nat) : Bool :=
  let c := s.cx k
  (s.dueAsync Op.stop).any (fun a => nbit a.mask k) || s.due c.drainAt || s.due c.faultAt ||
  (s.ctxTimed k && s.due s.clk.escalateAt) ||
  (s.ctxTimed k && s.due s.pwr.strongAt && (decide (5 ≤ s.shedStage) || !c.essential))

/-- Drops the findings that lie in no window of the current tick, whatever RES_LOG2 says (03 R90): the longest has 2^31 ticks. -/
def State.substWindows (s : State) : State :=
  let young := fun (e : Nat × List W32) => (e.1, e.2.filter (fun n => n.toNat / 2 ^ 31 == s.tickId.toNat / 2 ^ 31))
  let trim := fun (m : SMap (List W32)) => (m.map young).filter (fun e => !e.2.isEmpty)
  { s with subst.resWin := trim s.subst.resWin, subst.canWin := trim s.subst.canWin }

/-- TICK_STROBE (02 R37, R42, R47, R55; 06 R160, R168; 15 R400): TICK_ID takes its next value, the tiles resynchronise, the event of
the tick enters every context that stays Running, and what starts with a tick starts. -/
def State.strobe (s : State) : State :=
  let s := s.endTick
  let n := s.tick.pendingId.getD (s.tickId + 1)
  let s := s.atFab s.tick.nextAt
  let s := if s.tick.pendingId.isSome then s.newCount else s
  let s := { (s.wr Reg.tickId n) with
    tod.tickFab := s.tick.nextAt, tick.nextAt := s.tick.nextAt + s.cTick, tick.pendingId := none, tick.strobes := s.tick.strobes + 1,
    tick.outPulses := s.tick.outPulses.filter (fun (e : Nat × Nat) => decide (s.tick.nextAt < e.2)) ++ [s.outPulse s.tick.nextAt] }
  let s := { s with clk.lag := [], clk.stretches := [], clk.capAt := [], banks.opened := [],
                    fe.strobes := s.fe.strobes ++ [(n, s.todIn 0)] }
  let s := (List.range 4).foldl (fun t k => if t.ctxState k == Ctx.running && !t.leaving k then t.enterEvent k else t) s
  let s := s.clk.outs.foldl (fun t d => t.rollWindow d.ctx d.out) s
  s.substWindows.derive.fastControl.busStrobe.prune

def execTickStrobe (s : State) : Host.Outcome State Fault Refusal :=
  s.done (if s.hubOn && s.tick.running then s.strobe else s)

end Sys2Proof.Machine
end

