-- ==== Sys2Proof/Machine/LoadCheck.lean ====
section
/-! DEFINITION. The checks of COMMIT, steps 1 to 10 of Table 9.9 (09 R251), with their detail words. -/

namespace Sys2Proof.Machine

/-- A refusal of the loader: CHECK, section type and index (09 R251). -/
def lrej (status step sect ix : Nat) : Rej :=
  let d := step * 2 ^ 24 + sect * 2 ^ 16 + ix % 65536
  ⟨status, d / 65536, d % 65536⟩

/-- ALLOC_OVER of a resource of Table 6.5 (1 CYCLES to 7 LANE_BW) in a context. -/
def overRej (res ctx : Nat) : Rej := lrej Status.allocOver 9 (res * 16 + ctx % 4 * 4) 0

/-- The first of several checks that refuses. -/
def firstSome : List (Option Rej) → Option Rej
  | [] => none
  | some r :: _ => some r
  | none :: rest => firstSome rest

/-- Refuses at the first entry that breaks a rule. -/
def badAt {α : Type} (status step sect : Nat) (l : List α) (ok : α → Bool) : Option Rej :=
  (findIx (fun a => !ok a) l).map (lrej status step sect)

/-- Refuses unless a condition holds. -/
def unlessOk (ok : Bool) (r : Rej) : Option Rej := if ok then none else some r

/-- Whether no two entries of a list are in a relation. -/
def noPair {α : Type} (bad : α → α → Bool) : List α → Bool
  | [] => true
  | a :: r => !r.any (bad a) && noPair bad r

namespace Sec
def target := 1
def blobs := 2
def queues := 3
def slots := 4
def allocs := 5
def relocs := 7
def patches := 8
def manifest := 9
def fallbacks := 10
def table := 0xFE
def signature := 0xFF
end Sec

/-! Header fields (09 Table 9.2). -/

def State.imgTimed (s : State) (b : Nat) : Bool := nbit (s.imgW b 0x20) 27
def State.imgMask (s : State) (b : Nat) : Nat := bits (s.imgW b 0x20) 28 4
def State.imgPers (s : State) (b : Nat) : Nat := bits (s.imgW b 0x20) 25 2

/-! Step 1. -/

def chkReceived (g : Staged) : Option Rej :=
  unlessOk ((g.got.foldl (fun n (e : Nat × Nat) => n + (e.2 - e.1)) 0) == g.len) (lrej Status.loadSequence 1 0 0)

/-! Step 2 (09 R234, R235, R238, R244, R247). -/

def State.headerOk (s : State) (g : Staged) : Bool :=
  let w := s.imgW g.base
  let len := w 8
  decide (w 0 = 0x314B5055 ∧ w 4 / 65536 = 1 ∧ 256 ≤ len ∧ len ≤ 0x80000000 ∧ len % 32 = 0 ∧ len = g.len ∧ w 0xC % 16 = 0) &&
  decide (1 ≤ w 0x10 % 65536 ∧ w 0x10 % 65536 ≤ 256 ∧ w 0xC + 16 * (w 0x10 % 65536) ≤ len) &&
  decide (w 0x10 / 65536 = 0 ∧ w 0x1C / 65536 = 0 ∧ bits (w 0x20) 0 18 = 0 ∧ bits (w 0x20) 25 2 ≠ 3 ∧ bits (w 0x20) 28 4 ≠ 0) &&
  (List.range 20).all (fun i => w (0x30 + 4 * i) == 0)

/-- The sections of Table 9.4 are types 1 to 13. -/
def knownType (t : Nat) : Bool := decide (1 ≤ t ∧ t ≤ 13)

/-- The written sections of Table 9.4. -/
def writtenType (t : Nat) : Bool := [2, 3, 4, 5, 0xA, 0xC, 0xD].elem t

/-- One section-table entry, given the entries before it. -/
def State.sectOk (s : State) (g : Staged) (before : List Sect) (x : Sect) : Bool :=
  let first := s.imgW g.base 0xC + 16 * (s.imgW g.base 0x10 % 65536)
  x.rsvd == 0 && (knownType x.ty || x.opt) && x.off % 32 == 0 &&
  decide (first ≤ x.off ∧ x.off + x.len + 128 ≤ g.len) &&
  before.all (fun y => y.ty != x.ty && !rangesMeet (y.off, y.len) (x.off, x.len)) &&
  (crc32 (s.rdBytes (imgAddr g.base x.off) x.len)).toNat == x.crc

def State.badSect (s : State) (g : Staged) (before : List Sect) : List Sect → Option Rej
  | [] => none
  | x :: r => if s.sectOk g before x then s.badSect g (before ++ [x]) r else some (lrej Status.imgFormat 2 Sec.table before.length)

/-- The sections an image must have. -/
def needed (timed : Bool) : List Nat := [1, 2, 3, 5, 6, 0xB] ++ (if timed then [4, 9, 0xA] else [])

/-- Whether the word at LOC lies in a written section. -/
def inWritten (l : List Sect) (loc : Nat) : Bool :=
  loc % 8 == 0 && l.any (fun x => writtenType x.ty && decide (x.off ≤ loc ∧ loc + 8 ≤ x.off + x.len))

def relocForm (l : List Sect) (r : Reloc) : Bool :=
  decide (r.lsb + r.width ≤ 64 ∧ r.kind ≤ 4) && inWritten l r.loc && (r.kind != 4 || r.ref == 0) &&
  (r.kind != 3 || decide (r.addend < 2 ^ 41))

def patchForm (l : List Sect) (p : PatchEnt) : Bool :=
  decide (p.lsb + p.width ≤ 64 ∧ p.kind ≤ 4) && inWritten l p.loc && p.rsvd == 0 && (p.kind == 4 || p.seg == 0) &&
  (p.kind != 2 || p.width == 32) && (p.kind != 3 || p.width == 8)

/-- Whether two fields cover one bit: byte offset of the word, lowest bit and width. -/
def coverBit (a b : Nat × Nat × Nat) : Bool := rangesMeet (8 * a.1 + a.2.1, a.2.2) (8 * b.1 + b.2.1, b.2.2)

/-- The entries of one PATCH_ID agree. -/
def agree (a b : PatchEnt) : Bool :=
  a.pid != b.pid || (a.kind == b.kind && a.seg == b.seg && a.alignLog2 == b.alignLog2 && a.lo == b.lo && a.hi == b.hi)

/-- The first entry that covers a bit of an earlier one, by position in the two sections together. -/
def firstOverlap (seen : List (Nat × Nat × Nat)) : List (Nat × Nat × Nat) → Option Nat
  | [] => none
  | a :: r => if seen.any (coverBit a) then some seen.length else firstOverlap (seen ++ [a]) r

def State.chkEntries (s : State) (g : Staged) : Option Rej :=
  let l := s.sects g.base
  let rs := s.relocs g.base
  let ps := s.patchEnts g.base
  let fs := rs.map (fun r => (r.loc, r.lsb, r.width)) ++ ps.map (fun p => (p.loc, p.lsb, p.width))
  firstSome
    [ unlessOk (l.all (fun x => (x.ty != 7 || x.len % 16 == 0))) (lrej Status.imgFormat 2 Sec.relocs 0)
    , unlessOk (l.all (fun x => (x.ty != 8 || x.len % 32 == 0))) (lrej Status.imgFormat 2 Sec.patches 0)
    , badAt Status.imgFormat 2 Sec.relocs rs (relocForm l)
    , badAt Status.imgFormat 2 Sec.patches ps (fun p => patchForm l p && ps.all (agree p))
    , (firstOverlap [] fs).map (fun i => if i < rs.length then lrej Status.imgFormat 2 Sec.relocs i
                                         else lrej Status.imgFormat 2 Sec.patches (i - rs.length)) ]

/-! Reserved bits (09 R251 step 2; 00 R13): those of each word the loader writes. -/

/-- The bits of a parameter set that its function does not use (05 R139, Table 5.2). -/
def psetReserved (w : Nat) : Nat :=
  let used := match bits w 250 6 with
    | 0 => 2 ^ 256 - 2 ^ 240 + 2047
    | 1 => 2 ^ 256 - 2 ^ 227 + (2 ^ 128 - 2 ^ 96) + (2 ^ 64 - 1)
    | 5 => 2 ^ 256 - 2 ^ 227
    | 6 => 2 ^ 256 - 2 ^ 226 + (2 ^ 64 - 1)
    | _ => 2 ^ 256 - 2 ^ 240
  Nat.land w (2 ^ 256 - 1 - used)

/-- The registers that SLOT_SCHEDULE, ALLOCATIONS and QUEUE_TABLES set: SFU parameter sets, reservations and tables, spill areas, pattern
tables and lookup routes, class-T field entries (11 R297). -/
def loaderReg (a : Nat) : Bool :=
  let o := a % 0x10000000
  if a < 0x100000000 then
    (regRow a).isSome && ((decide (0xF030000 ≤ o ∧ o < 0xF0B0000) && decide (0x100 ≤ (o - 0xF030000) % 0x20000)) ||
      o == 0xF0B0004 || o == 0xF0B0008)
  else decide (Reg.pt 0 ≤ a ∧ a < Reg.pt 64) || (decide (Reg.pr 0 ≤ a ∧ a < Reg.pr 256) && a % 16 == 0) ||
    (decide (Reg.fieldEnt 0 ≤ a ∧ a < Reg.fieldEnt 1024) && decide (a % 32 < 16))

/-- The parameter sets an image sets: tile, unit, context and number. -/
def psetsOf (img : Contents) : List (Nat × Nat × Nat × Nat) :=
  (img.regInit.filterMap (fun (e : Nat × W32) =>
    let o := (e.1 % 0x10000000 - 0xF030000) % 0x20000
    if e.1 < 0x100000000 ∧ 0xF030000 ≤ e.1 % 0x10000000 ∧ e.1 % 0x10000000 < 0xF0B0000 ∧ 0x100 ≤ o ∧ o < 0x900 then
      some (e.1 / 0x10000000, (e.1 % 0x10000000 - 0xF030000) / 0x20000, (o - 0x100) / 0x200, (o - 0x100) % 0x200 / 0x20)
    else none)).eraseDups

/-- A register value of the image's SLOT_SCHEDULE and ALLOCATIONS. -/
def imgReg (img : Contents) (a : Nat) : W32 := ((img.regInit.find? (fun (e : Nat × W32) => e.1 == a)).map (fun (e : Nat × W32) => e.2)).getD 0

def imgPset (img : Contents) (t g k p : Nat) : Nat :=
  ofWordsLE ((List.range 8).map (fun i => imgReg img (Reg.sfuPset t g k p + 4 * i)))

/-- The reserved bits of a segment descriptor are zero (09 Table 9.5). -/
def State.segForm (s : State) (g : Staged) (n : Nat) : Bool :=
  let a := g.img.segOff + 16 * n
  bits (s.imgW g.base a) 28 3 == 0 && bits (s.imgW g.base (a + 4)) 0 19 == 0

/-- Whether a context register of a blob lies in QUEUE_TABLES: QALLOC and routes (09 Table 9.4). -/
def isQueueReg (o : Nat) : Bool := decide ((0x40 ≤ o ∧ o < 0x60) ∨ (0x80 ≤ o ∧ o < 0xC0))

/-- The entries of QUEUE_TABLES among the context registers of an image, in order. -/
def queueRegs (img : Contents) : List (Nat × W32) := img.blobs.flatMap (fun b => b.regs.filter (fun (e : Nat × W32) => isQueueReg e.1))

/-- Whether a register lies in SLOT_SCHEDULE: SFU_RES entries (09 Table 9.4). -/
def isSlotReg (a : Nat) : Bool :=
  decide (a < 0x100000000 ∧ 0xF030000 ≤ a % 0x10000000 ∧ a % 0x10000000 < 0xF0B0000) &&
  decide (0x1000 ≤ (a % 0x10000000 - 0xF030000) % 0x20000 ∧ (a % 0x10000000 - 0xF030000) % 0x20000 < 0x1200)

def slotRegs (img : Contents) : List (Nat × W32) := img.regInit.filter (fun (e : Nat × W32) => isSlotReg e.1)
def allocRegs (img : Contents) : List (Nat × W32) := img.regInit.filter (fun (e : Nat × W32) => !isSlotReg e.1)

def State.chkReserved (s : State) (g : Staged) : Option Rej :=
  let img := g.img
  let bad := fun {α : Type} (sect : Nat) (l : List α) (ok : α → Bool) => badAt Status.imgFormat 2 sect l ok
  firstSome
    [ bad Sec.blobs img.blobs (fun b => b.regs.all (fun (e : Nat × W32) => isQueueReg e.1 || Nat.land e.2.toNat (ctxReserved e.1) == 0))
    , bad Sec.queues (queueRegs img) (fun (e : Nat × W32) => Nat.land e.2.toNat (ctxReserved e.1) == 0)
    , bad Sec.slots (slotRegs img) (fun (e : Nat × W32) => Nat.land e.2.toNat (regReserved e.1) == 0)
    , bad Sec.allocs (allocRegs img) (fun (e : Nat × W32) => Nat.land e.2.toNat (regReserved e.1) == 0)
    , bad Sec.allocs (psetsOf img) (fun (e : Nat × Nat × Nat × Nat) => psetReserved (imgPset img e.1 e.2.1 e.2.2.1 e.2.2.2) == 0)
    , bad Sec.allocs (List.range img.segCount) (s.segForm g) ]

def State.chkFormat (s : State) (g : Staged) : Option Rej :=
  let sig := g.len - 128
  orRej (unlessOk (s.headerOk g) (lrej Status.imgFormat 2 0 0))
    (orRej (s.badSect g [] (s.sects g.base))
      (orRej (((needed (s.imgTimed g.base)).find? (fun t => (s.sectOf g.base t).isNone)).map (fun t => lrej Status.imgFormat 2 t 0))
        (orRej (unlessOk ((List.range 24).all (fun i => s.rdB (imgAddr g.base (sig + 0x68 + i)) == 0)) (lrej Status.imgFormat 2 Sec.signature 0))
          (orRej (s.chkEntries g) (s.chkReserved g)))))

/-! Step 3 (09 R238). -/

/-- The owner signature: ALG 1, and the ECDSA P-384 signature over the SHA-384 digest of all bytes before the block verifies under the
key provisioned in KEY_SLOT. -/
def State.chkSignature (s : State) (g : Staged) : Option Rej :=
  let o := g.len - 128
  let num := fun (off : Nat) => ofBytesBE (s.rdBytes (imgAddr g.base (o + off)) 48)
  unlessOk (match (s.owners.getD (s.imgW g.base o) { key := none, counter := 0 }).key with
    | some key => s.imgW g.base (o + 4) == 1 && ecdsaOk key (sha384 (s.rdBytes (imgAddr g.base 0) o)) (num 8) (num 0x38)
    | none => false) (lrej Status.imgSignature 3 Sec.signature 0)

/-! Step 4 (09 R251; 11 R313, R314; 16 R416). -/

/-- Whether an image names other parts. -/
def State.namesParts (s : State) (base : Nat) : Bool := (s.relocs base).any (fun r => r.kind == 2 || r.kind == 3)

/-- MESH_M1 against the mesh routes. -/
def State.meshOk (s : State) (g : Staged) : Bool :=
  let m1 := bits (s.imgW g.base 0x20) 18 6
  let routes := ((List.range 64).filter (fun d => d != s.dev.partId && bit (s.rd (Reg.meshRoute d)) 31)).length
  if s.namesParts g.base then s.imgPers g.base != 1 && !s.dev.concentrator && decide (m1 + 1 ≤ routes) else m1 == 0

/-- A class-T group: every lane in fixed-latency mode at its declared rate, DECL_SKEW as declared, and RT_MEAS within the declared
round trip. -/
def State.classTOk (s : State) (c : ClassTGroup) : Bool :=
  let ls := s.grpLanes c.group
  !ls.isEmpty && ls.all (fun n => s.laneMode n == 2 && s.laneRate n == c.rate) && s.declSkew c.group == c.declSkew &&
  (match c.roundTrip with
   | some rt => decide (s.rdF (Reg.rtMeas c.group) 0 16 ≤ rt)
   | none => true)

/-- The class-T field entries that an image sets (11 R297). -/
def fieldsSet (img : Contents) : List Nat :=
  ((img.regInit.filter (fun (e : Nat × W32) => decide (Reg.fieldEnt 0 ≤ e.1 ∧ e.1 < Reg.fieldEnt 1024))).map
    (fun (e : Nat × W32) => (e.1 - Reg.fieldEnt 0) / 32)).eraseDups

/-- The relay capacity of the twin link: the blocks of its 7 data lanes in a tick, less one row (16 R416). -/
def State.relayRoom (s : State) : Nat :=
  let bt := blockTime (s.grpRate 63)
  7 * (s.cTick * bt.2 / bt.1) - 7

/-- A register of a blob by its offset (03 Table 3.6). -/
def blobReg (b : CoreBlob) (off : Nat) : Nat := (((b.regs.find? (fun (e : Nat × W32) => e.1 == off)).map (fun (e : Nat × W32) => e.2)).getD 0).toNat

def blobTimed (b : CoreBlob) : Bool := nbit (blobReg b 0) 30
/-- A byte of a blob's core-store image. -/
def blobByte (b : CoreBlob) (a : Nat) : W8 := ((b.store.find? (fun (e : Nat × W8) => e.1 == a)).map (fun (e : Nat × W8) => e.2)).getD 0

/-- Whether a route goes to a Store die or an Edge stop (03 Table 3.8). -/
def toStore (w : Nat) : Bool := bits w 28 3 == 3 || (bits w 28 3 == 2 && decide (64 ≤ bits w 16 9 ∧ bits w 16 9 < 96))

/-- The offsets in core store of the lines that a blob's SREQs and QPUSHes send to Store or an Edge stop, in order (log 18). -/
def reqLines' (b : CoreBlob) : List (List Nat) :=
  b.iram.filterMap (fun (e : Nat × BitVec 128) =>
    let i := antIns e.2.toNat
    if i.cls = 3 ∧ (i.op = 1 ∨ i.op = 3) ∧ dKind i.srcA = Kind.store ∧ toStore (blobReg b (0x80 + 4 * bits i.aux 0 4)) ∧
       (i.op = 3 ∨ bits i.aux 8 3 = 0) then
      some ((List.range i.cnt).map (fun n => dAddr i.srcA + 32 * i.step * n)) else none)

/-- Whether an address lies in HBM, of this part or another (01 R26). -/
def inHbm (a : Nat) : Bool := regionOf a == .hbm || (nbit a 47 && regionOf (a % 2 ^ 41) == .hbm)

/-- The first word of a request line of a Timed blob: as compiled, with relocations and patch values (09 R244, R247). -/
def State.headWord (s : State) (g : Staged) (b : CoreBlob) (o : Nat) : Nat :=
  let here := Reg.coreBase b.tile (16 * b.row + b.col) + o
  (s.imgFields g.base g.bases g.parts g.patches).foldl (fun w f =>
    match placeOf g.img f.1 with
    | some (.word a p) => if a = here ∧ p = b.pass then putBits w f.2.1 f.2.2.1 f.2.2.2 else w
    | _ => w) (ofBytesLE ((List.range 8).map (fun n => blobByte b (o + n))))

/-- The requests among the lines of one instruction: up to the first write, whose data the rest are. -/
def reqsOf : List Nat → List Nat
  | [] => []
  | w :: r => if nbit w 48 then [w] else w :: reqsOf r

/-- No class-T transfer that a blob's core store names goes to HBM (01 R26). -/
def State.hbmFree (s : State) (g : Staged) (b : CoreBlob) : Bool :=
  !blobTimed b || (reqLines' b).all (fun l => (reqsOf (l.map (s.headWord g b))).all (fun w => !inHbm (w % 2 ^ 48)))

/-- No class-T request that a blob's core store names goes to a part more than one hop away: the group that the mesh route names is one
whose link partner is that part (11 R313). -/
def State.oneHop (s : State) (g : Staged) (b : CoreBlob) : Bool :=
  !blobTimed b || (reqLines' b).all (fun l => (reqsOf (l.map (s.headWord g b))).all (fun w =>
    let p := w / 2 ^ 41 % 64
    !nbit w 47 || (s.routeTo p).all (fun gr => s.partnerOf gr == p)))

def State.chkTarget (s : State) (g : Staged) : Option Rej :=
  let b := g.base
  let p := s.imgPers b
  let relayed := s.relayPrimary || s.relayStandby
  firstSome
    [ unlessOk (s.imgW b 0x14 == 0xF048) (lrej Status.imgTarget 4 0 0)
    , unlessOk (p == 0 || (p == 1) == s.dev.concentrator) (lrej Status.imgTarget 4 0 0)
    , unlessOk (!nbit (s.imgW b 0x20) 24 || bit (s.rd Reg.twinCfg) 31) (lrej Status.imgTarget 4 0 0)
    , unlessOk (s.meshOk g) (lrej Status.imgTarget 4 0 0)
    , unlessOk ((bitsOf (s.imgMask b) 4).all (fun k => s.ctxState k == Ctx.empty)) (lrej Status.imgTarget 4 0 0)
    , badAt Status.imgTarget 4 Sec.target g.img.classT s.classTOk
    , badAt Status.imgTarget 4 Sec.queues (fieldsSet g.img) (fun f =>
        let w := (imgReg g.img (Reg.fieldEnt f)).toNat
        !nbit w 31 || !nbit w 30 || g.img.classT.any (fun c => c.group == bits w 23 6))
    , badAt Status.imgTarget 4 Sec.blobs g.img.blobs (s.oneHop g)
    , unlessOk (!relayed || decide (g.img.relayBlocks ≤ s.relayRoom ∧ 2 * g.img.relayBlocks ≤ 8192)) (lrej Status.imgTarget 4 Sec.target 0) ]

/-! Step 5 (02 R38). -/

def State.chkTick (s : State) (g : Staged) : Option Rej :=
  unlessOk (!s.imgTimed g.base || s.imgW g.base 0x1C % 65536 == s.cTick) (lrej Status.tickMismatch 5 0 0)

/-! Step 6: instructions (03 R68 to R72; 04 R100, R101, R105, R113, R123; 05 R131, R139). -/

/-- The operations of Table 3.5. -/
def opDefinedAnt (i : AntIns) : Bool :=
  match i.cls with
  | 0 => decide (i.op < 4)
  | 1 => decide (i.op < 5)
  | 2 => decide (i.op < 9)
  | 3 => decide (i.op < 4)
  | 4 => i.op == 0
  | 5 => decide (i.op < 3)
  | _ => false

/-- A descriptor without reserved codes (03 Table 3.3). -/
def descOk (d : Nat) : Bool :=
  let v := d % 2 ^ 21
  match dKind d with
  | 0 => v == 0
  | 1 => decide (v < 0x30000) && v % 32 == 0
  | 2 => decide (v < 32)
  | 3 => decide (v < 256)
  | 4 => decide (v < 8)
  | 5 => true
  | _ => false

def isElemFloat (f : Nat) : Bool := decide (f ≤ 4) || f == 7

def blobLo (b : CoreBlob) : Nat := bits (blobReg b 0x14) 0 18
def blobHi (b : CoreBlob) : Nat := bits (blobReg b 0x18) 0 18
def blobSlot (b : CoreBlob) : Nat × Nat := (blobReg b 4 % 65536, blobReg b 4 / 65536)

/-- The descriptor line that AUX names, as the image initialises it (04 R106). -/
def blobLine (b : CoreBlob) (aux : Nat) : Nat := ofBytesLE ((List.range 32).map (fun i => blobByte b (blobLo b + 32 * aux + i)))

/-- A LUT of finite codes (04 R101). -/
def lutOk (d : Nat) : Bool :=
  (List.range 16).all (fun i => (elemVal (bits d 79 1) (bits d (128 + 8 * i) 8)).isFin)

/-- The loops of a blob: the instructions of the body and the trips (03 R72). -/
def blobLoops (b : CoreBlob) : List (Nat × Nat × Nat) :=
  b.iram.filterMap (fun (e : Nat × BitVec 128) =>
    let i := antIns e.2.toNat
    if i.cls = 5 ∧ i.op = 1 then some (e.1 + 1, e.1 + 1 + bits i.aux 0 6, i.cnt) else none)

/-- The loops around an instruction that do not hold the one at `clr`. -/
def loopsAround (b : CoreBlob) (pc : Nat) (clr : Option Nat) : List (Nat × Nat × Nat) :=
  let holds := fun (l : Nat × Nat × Nat) (x : Nat) => decide (l.1 ≤ x ∧ x ≤ l.2.1)
  (blobLoops b).filter (fun l => holds l pc && !(clr.any (holds l)))

/-- The accumulators that a DOT or OUTP sums into and the terms it adds to each (03 Table 3.5; 04 R103). -/
def dotOuts (i : AntIns) : Nat := if i.op = 1 then 2 ^ bits i.mode 0 2 else 64
def dotTerms (i : AntIns) : Nat :=
  let four := (i.fmtA == Fmt.e2m1 || i.fmtA == Fmt.int4) && (i.fmtB == Fmt.e2m1 || i.fmtB == Fmt.int4)
  (if four then 2 else 1) * (if i.op = 1 then 64 / dotOuts i else 1) * i.cnt

/-- Whether an accumulator lies in a range of one set. -/
def accIn (d n : Nat) (x : Nat) : Bool := dSet d == dSet x && decide (dFirst d ≤ dFirst x ∧ dFirst x < dFirst d + n)

/-- The ACCCLR before an instruction that clears an accumulator. -/
def lastClear (b : CoreBlob) (pc x : Nat) : Option Nat :=
  (b.iram.filter (fun (e : Nat × BitVec 128) =>
    let i := antIns e.2.toNat
    decide (e.1 < pc) && i.cls == 1 && i.op == 0 && accIn i.dst (bits i.aux 0 6 + 1) x)).foldl
      (fun m (e : Nat × BitVec 128) => some (max (m.getD 0) e.1)) none

/-- The DOT and OUTP instructions that sum into an accumulator and stand behind the one at `clr`. -/
def dotsInto (b : CoreBlob) (clr : Option Nat) (x : Nat) : List (Nat × AntIns) :=
  b.iram.filterMap (fun (e : Nat × BitVec 128) =>
    let i := antIns e.2.toNat
    if clr.all (fun c => decide (c < e.1)) ∧ i.cls = 1 ∧ (i.op = 1 ∨ i.op = 2) ∧ accIn i.dst (dotOuts i) x then some (e.1, i) else none)

/-- Those before an instruction, since the accumulator was cleared. -/
def dotsBefore (b : CoreBlob) (pc x : Nat) : List (Nat × AntIns) := (dotsInto b (lastClear b pc x) x).filter (fun e => decide (e.1 < pc))

/-- The terms that an accumulator holds at each run of the DOT or OUTP at `pc` since it was cleared: those before it, and for each loop
around it the terms that a pass of the body adds, for every pass before (04 R106; 03 R72). -/
def dotStarts (b : CoreBlob) (pc x : Nat) : List Nat :=
  let clr := lastClear b pc x
  let around := loopsAround b pc clr
  let dots := dotsInto b clr x
  let inside := fun (l : Nat × Nat × Nat) (y : Nat) => decide (l.1 ≤ y ∧ y ≤ l.2.1)
  let trips := fun (ls : List (Nat × Nat × Nat)) => ls.foldl (fun n l => n * l.2.2) 1
  let base := (dots.filter (fun e => decide (e.1 < pc))).foldl (fun n e =>
    n + dotTerms e.2 * trips ((loopsAround b e.1 clr).filter (fun l => !inside l pc))) 0
  let each := fun (l : Nat × Nat × Nat) => (dots.filter (fun e => inside l e.1)).foldl (fun n e =>
    n + dotTerms e.2 * trips ((loopsAround b e.1 clr).filter (fun m => m != l && decide (l.1 ≤ m.1 ∧ m.2.1 ≤ l.2.1)))) 0
  around.foldl (fun ss l => ss.flatMap (fun n => (List.range l.2.2).map (fun i => n + i * each l))) [base]

/-- DOT and OUTP: operand formats, and the input descriptor with the scales of the blocks whose first term it adds, in the row of each
accumulator (04 R100 to R106). -/
def dotOk (b : CoreBlob) (pc : Nat) (i : AntIns) : Bool :=
  let sm := bits i.mode 2 2
  let d := blobLine b i.aux
  let usesLut := i.fmtA == 7 || i.fmtB == 7
  let scaled := sm == 1 || sm == 2
  let bs := if sm = 1 then 32 else 16
  let blocks := (dotStarts b pc i.dst).flatMap (fun n =>
    (List.range (ceilDiv (n + dotTerms i) bs - ceilDiv n bs)).map (fun j => ceilDiv n bs + j))
  !(isInt i.fmtA && isElemFloat i.fmtB) && !(isElemFloat i.fmtA && isInt i.fmtB) &&
  (sm != 3 || (i.fmtA == 5 && i.fmtB == 5)) &&
  (!(usesLut || scaled) || bits d 0 79 == 0) && (!usesLut || lutOk d) &&
  (!scaled || blocks.all (fun j => blobByte b (bits d 110 18 + j) != 0xFF &&
    (List.range (dotOuts i)).all (fun o => blobByte b (bits d 92 18 + o * bits d 80 12 + j) != 0xFF)))

/-- An FP32 code that is normal: not zero, subnormal, infinite or NaN. -/
def f32Normal (w : Nat) : Bool := decide (0 < bits w 23 8 ∧ bits w 23 8 < 255)

/-- Whether the sums of an ACCOUT's accumulators are on the FN24 path: the last DOT or OUTP before it into its first one has scale mode 3,
or, where there is none, what the core sums comes of such (04 R121; `fn24Of`). -/
def sumsFn24 (img : Contents) (b : CoreBlob) (pc : Nat) (i : AntIns) : Bool :=
  let last := (dotsBefore b pc i.srcA).foldl (fun (m : Option (Nat × AntIns)) e => match m with
    | some x => if x.1 < e.1 then some e else m
    | none => some e) none
  match last with
  | some e => bits e.2.mode 2 2 == 3
  | none => fn24Of img b

/-- ACCOUT and VCVT with their output descriptor (04 R101, R113, R122). -/
def outOk (img : Contents) (b : CoreBlob) (pc : Nat) (i : AntIns) (accout : Bool) : Bool :=
  let d := blobLine b i.aux
  let blk := bits d 204 2
  i.fmtA != 7 && blk != 3 && bits d 200 2 == 0 && bits d 0 190 == 0 && (!accout || (f32Normal (bits d 224 32) && decide (bits i.mode 0 2 < 2))) &&
  (blk == 0 || decide (i.fmtA < 8)) && (!(accout && sumsFn24 img b pc i) || (blk == 0 && i.fmtA == 9)) &&
  (blk != 1 || (if accout then dFirst i.srcA % 32 == 0 && i.cnt % 32 == 0 else dKind i.srcA == Kind.vreg && dReg i.srcA % 2 == 0)) &&
  (blk != 2 || !accout || (dFirst i.srcA % 16 == 0 && i.cnt % 16 == 0))

/-- M and S of a rescale (04 R123). -/
def rescOk (m sh : Nat) : Bool := nbit m 30 && decide (sh ≤ 47)

/-- VRSC with its rescale descriptor and lane table. -/
def vrscOk (b : CoreBlob) (i : AntIns) : Bool :=
  let d := blobLine b i.aux
  let zp := toSigned 8 (bits d 214 8)
  let hi : Int := if nbit d 252 then 7 else 127
  let lo : Int := if nbit d 253 then -hi - 1 else -hi
  let ent := fun (j : Nat) => ofBytesLE ((List.range 8).map (fun n => blobByte b (bits d 222 18 + 8 * j + n)))
  bits d 250 2 == 0 && bits d 0 177 == 0 && decide (lo ≤ zp ∧ zp ≤ hi) && rescOk (bits d 177 31) (bits d 208 6) &&
  (!nbit d 255 || (List.range 16).all (fun j => rescOk (bits (ent j) 6 31) (bits (ent j) 0 6) && bits (ent j) 37 27 == 0))

/-- The range of CNT of a call (05 Table 5.1). -/
def cntOk (fn cnt : Nat) (p : Pset) : Bool :=
  match fn with
  | 4 => decide (cnt ≤ 32)
  | 5 => cnt == 1 + ceilDiv (p.nMax * (p.d + p.dv)) 32
  | 6 => cnt == ceilDiv p.d 32
  | _ => decide (cnt ≤ 64)

/-- SFUC (05 R131, R139). -/
def sfucOk (img : Contents) (b : CoreBlob) (i : AntIns) : Bool :=
  let fn := bits i.aux 2 6
  let p := pset (imgPset img b.tile (bits i.aux 0 2) b.ctx (bits i.aux 8 4))
  decide (fn < 7) && dKind i.dst == Kind.queue && cntOk fn i.cnt p && fnFits fn p.fn &&
  decide (resultFlits fn i.cnt p ≤ bits (blobReg b (0x40 + 4 * dQueue i.dst)) 0 7) && (fn != 0 || decide (p.k ≤ 4 * i.cnt))

/-- One instruction of a blob. -/
def insOk (img : Contents) (b : CoreBlob) (pc : Nat) (w : BitVec 128) : Bool :=
  let i := antIns w.toNat
  opDefinedAnt i && decide (i.fmtA ≤ 9 ∧ i.fmtB ≤ 9) && descOk i.dst && descOk i.srcA && descOk i.srcB &&
  (match i.cls, i.op with
   | 1, 1 => dotOk b pc i
   | 1, 2 => dotOk b pc i
   | 1, 4 => outOk img b pc i true
   | 2, 5 => decide (i.mode < 4)
   | 2, 7 => outOk img b pc i false
   | 2, 8 => vrscOk b i
   | 4, 0 => sfucOk img b i
   | _, _ => true)

/-- Loops nest two deep, and no body holds END or a third level (03 R72). -/
def loopsOk (b : CoreBlob) : Bool :=
  let at' := fun (op : Nat) => (b.iram.filter (fun (e : Nat × BitVec 128) => (antIns e.2.toNat).cls == 5 && (antIns e.2.toNat).op == op))
  let loops := (at' 1).map (fun (e : Nat × BitVec 128) => (e.1, bits e.2.toNat 0 6 + 1))
  let depth := fun (pc : Nat) => (loops.filter (fun (l : Nat × Nat) => decide (l.1 < pc ∧ pc ≤ l.1 + l.2))).length
  loops.all (fun (l : Nat × Nat) => decide (depth l.1 < 2)) && (at' 2).all (fun (e : Nat × BitVec 128) => depth e.1 == 0)

/-- A route entry (03 Table 3.8; 12 R326); a KIND that is reserved is refused in an entry that is not in use as well (00 R13). -/
def routeOk (w : Nat) : Bool :=
  decide (bits w 28 3 ≤ 4) && (!nbit w 31 || (decide (bits w 7 7 ≤ 64) && (bits w 28 3 != 4 || bits w 16 3 == 0)))

/-- A queue allocation entry (03 Table 3.7). -/
def qallocOk (w : Nat) : Bool := !nbit w 31 || decide (1 ≤ bits w 0 7 ∧ bits w 0 7 ≤ 64)

/-- A blob: its place, registers and instructions (03 R68, R72, R78; 06 R150). -/
def blobOk (img : Contents) (timed : Bool) (mask : Nat) (b : CoreBlob) : Bool :=
  decide (b.tile < 16 ∧ b.row < 32 ∧ b.col < 16 ∧ b.ctx < 4) && nbit mask b.ctx &&
  b.regs.all (fun (e : Nat × W32) => ctxRegs.elem e.1) && b.store.all (fun (e : Nat × W8) => decide (e.1 < 0x30000)) &&
  b.iram.all (fun (e : Nat × BitVec 128) => decide (e.1 < 512) && insOk img b e.1 e.2) && loopsOk b &&
  blobTimed b == timed &&
  (timed || blobReg b 8 % 65536 != 0)

/-- An entry of QUEUE_TABLES by its register's offset. -/
def queueRegOk (o w : Nat) : Bool := if o < 0x60 then qallocOk w else routeOk w

/-- The blobs of the committed images whose contexts have not retired: a Retired context holds no queues and no reservations (06 R162). -/
def State.heldBlobs (s : State) : List CoreBlob :=
  s.loader.images.flatMap (fun i => i.img.blobs.filter (fun b => s.ctxState b.ctx != Ctx.retired))

def sameCore (a b : CoreBlob) : Bool := a.tile == b.tile && a.row == b.row && a.col == b.col

/-- Two Timed slots that overlap on a core (03 R78). -/
def slotsMeet (a b : CoreBlob) : Bool :=
  sameCore a b && blobTimed a && blobTimed b && a.ctx != b.ctx &&
  decide ((blobSlot a).1 ≤ (blobSlot b).2 ∧ (blobSlot b).1 ≤ (blobSlot a).2)

/-- The decision bits a blob's routes name, as lowest bits (12 R326). -/
def blobBits (b : CoreBlob) : List Nat :=
  (List.range 16).filterMap (fun r =>
    let w := blobReg b (0x80 + 4 * r)
    if nbit w 31 && bits w 28 3 == 4 then some (bits w 16 8) else none)

/-! Step 6: parameter sets, tables and routes. -/

def f32Finite (w : W32) : Bool := decide (fld w 23 8 < 255)

/-- An FP32 code that is finite, in units of 2^-149. -/
def f32Units (w : W32) : Int :=
  let m : Nat := if fld w 23 8 = 0 then fld w 0 23 else (2 ^ 23 + fld w 0 23) * 2 ^ (fld w 23 8 - 1)
  if bit w 31 then -(m : Int) else m

/-- A parameter set (05 R139); X0 + 256 × 2^WLOG2 is judged exactly against the FP32 range. -/
def psetOk (w : Nat) : Bool :=
  let p := pset w
  match p.fn with
  | 0 => decide (p.keyFmt < 3)
  | 1 => decide (-24 ≤ p.wlog ∧ p.wlog ≤ 24) && f32Finite p.x0 && f32Finite p.lo && f32Finite p.hi &&
         decide ((f32Units p.x0 + ((2 ^ (p.wlog + 157).toNat : Nat) : Int)).natAbs ≤ (2 ^ 24 - 1) * 2 ^ 253)
  | 2 => true
  | 3 => true
  | 4 => true
  | 5 => bits w 230 2 != 3 && bits w 228 2 != 3 && decide (p.nMax * (p.d + p.dv) ≤ 16384)
  | 6 => bits w 230 2 != 3 && bits w 228 2 != 3 && decide (p.nMax * (p.d + p.dv) ≤ 16384) &&
         f32Normal p.lo.toNat && f32Normal p.hi.toNat
  | _ => false

/-- A table descriptor's fields (08 Table 8.2). -/
def State.tableOk (s : State) (n : Nat) : Bool :=
  let half := fun (j : Nat) =>
    let h := s.rd (Reg.pt n + 4 + 4 * j)
    if s.ptMode n = 1 then decide (fld h 23 3 ≤ 6) else decide (fld h 23 3 ≤ 5 ∧ fld h 4 5 ≤ 18)
  s.ptMode n != 3 && !s.ptPend n && half 0 && (s.ptMode n == 1 || half 1) &&
  (s.ptMode n != 1 || decide (1 ≤ s.ptEntries n ∧ s.ptEntries n ≤ 4194304))

/-- A lookup route (08 R219). -/
def State.lookupOk (s : State) (r : Nat) : Bool :=
  let w := s.rd (Reg.pr r)
  let keys := fld w 19 6 + 1
  let maj := fld w 15 4 + 1
  !bit w 31 || (s.ptEn (fld w 25 6) && decide (1 ≤ fld w 7 8 ∧ 2 * fld w 7 8 ≤ s.cTick) &&
    (s.ptMode (fld w 25 6) != 2 || decide (keys ≤ 16)) && decide (maj ≤ keys))

/-! Step 6: contexts and latencies (02 R44 to R46; 06 R168, R171). -/

/-- The ends of a context's section slots on the cores of a tile; of an unsectioned context, the end of the tick (02 R45). -/
def State.slotEnds (s : State) (img : Contents) (k t : Nat) : List Nat :=
  match img.ctxs.find? (fun c => c.ctx == k && popcount c.chainMask 4 != 1) with
  | some _ => (img.blobs.filter (fun b => b.ctx == k && b.tile == t)).map (fun b => (blobSlot b).2)
  | none => [s.cTick - 1]

/-- The first slot of a context wherever it lies. -/
def ctxSlots (img : Contents) (k : Nat) : List (Nat × Nat) := (img.blobs.filter (fun b => b.ctx == k)).map blobSlot

/-- The section slots of a Timed context: the whole tick of one without sections (03 R78), one slot on every core of a section (06 R171). -/
def State.ctxSlotsOk (s : State) (img : Contents) (c : CtxDecl) : Bool :=
  let l := ctxSlots img c.ctx
  l.all (fun (e : Nat × Nat) => decide (e.1 ≤ e.2 ∧ e.2 < s.cTick)) && l.all (fun e => e == l.headD (0, 0)) &&
  (popcount c.chainMask 4 != 1 || l.all (fun e => e == (0, s.cTick - 1)))

/-- A context of TARGET: its place in its chain, drain slots and margin, and for a Timed one the last cycle it uses in every tile where it
has cores (02 R45). -/
def State.ctxOk (s : State) (img : Contents) (timed : Bool) (mask : Nat) (c : CtxDecl) : Bool :=
  decide (c.ctx < 4) && nbit mask c.ctx && nbit c.chainMask c.ctx && Nat.land c.chainMask mask == c.chainMask &&
  (img.ctxs.filter (fun d => d.ctx == c.ctx)).length == 1 && decide (c.chainPos < popcount c.chainMask 4) &&
  (!c.dsEn || (decide (1 ≤ c.dsLog2 ∧ c.dsLog2 ≤ 24) && decide (c.dsPhase < 2 ^ c.dsLog2))) && decide (c.tLast < 256) &&
  (!timed ||
    (decide (2 ≤ c.margin) && s.ctxSlotsOk img c &&
     img.blobs.all (fun b => b.ctx != c.ctx || c.lastCycle.any (fun (e : Nat × Nat) => e.1 == b.tile)) &&
     c.lastCycle.all (fun (e : Nat × Nat) => (s.slotEnds img c.ctx e.1).all (fun x => decide (e.2 + c.margin ≤ x))) &&
     img.ctxs.all (fun d => !(nbit c.chainMask d.ctx && decide (c.chainPos < d.chainPos)) ||
       (ctxSlots img c.ctx).all (fun (a : Nat × Nat) => (ctxSlots img d.ctx).all (fun (b : Nat × Nat) => decide (a.2 < b.1))))))

/-- A latency within its limits (02 R44). -/
def State.latOk (s : State) (t c : Nat) : Bool := decide (c < s.cTick ∧ t * s.cTick + c ≤ 255 * s.cTick)

/-- A path vector of 14 four-bit counts (09 R249). -/
def pathOk (p : List Nat) : Bool := p.length == 14 && p.all (fun n => decide (n < 16))

def marginOf (img : Contents) (k : Nat) : Nat := ((img.ctxs.find? (fun c => c.ctx == k)).map (·.margin)).getD 0

/-- A stage group (02 R45, R46): its completion within its slot less the margin, and its deadline a margin later. -/
def State.groupOk (s : State) (img : Contents) (mask : Nat) (g : GroupDecl) : Bool :=
  decide (g.tile < 16 ∧ g.group < 16 ∧ g.ctx < 4) && nbit mask g.ctx && pathOk g.path && s.latOk g.nomT g.nomC && s.latOk g.dlT g.dlC &&
  (img.groups.filter (fun x => x.tile == g.tile && x.ctx == g.ctx && x.group == g.group)).length == 1 &&
  (s.slotEnds img g.ctx g.tile).all (fun x => decide (g.nomC + marginOf img g.ctx ≤ x)) &&
  decide (g.nomT * s.cTick + g.nomC + marginOf img g.ctx ≤ g.dlT * s.cTick + g.dlC)

/-- The first decision bit that the route of an output names. -/
def outLine (img : Contents) (d : OutDecl) : Option Nat :=
  d.src.bind (fun (x : Nat × Nat × Nat × Nat) =>
    (img.blobs.find? (fun b => b.ctx == d.ctx && b.tile == x.1 && 16 * b.row + b.col == x.2.1)).bind (fun b =>
      let w := blobReg b (0x80 + 4 * x.2.2.1)
      if nbit w 31 && bits w 28 3 == 4 then some (bits w 16 8) else none))

/-- An output (02 R44; 12 R326): a decision output is that of its route, and its bits, which enter their line after the event's strobe,
arrive on a SAMPLE edge. -/
def State.outputOk (s : State) (img : Contents) (mask : Nat) (d : OutDecl) : Bool :=
  decide (d.ctx < 4 ∧ d.out < 64 ∧ 1 ≤ d.width ∧ d.width ≤ 64) && nbit mask d.ctx && s.latOk d.latT d.latC &&
  (img.outputs.filter (fun x => x.ctx == d.ctx && x.out == d.out)).length == 1 && d.decision == outLine img d &&
  (d.decision.isNone || (d.latC % 2 == 0 && decide (lineLead ≤ s.latency d)))

/-- A balance entry (09 R249). -/
def balOk (mask : Nat) (b : BalDecl) : Bool :=
  decide (b.ctx < 4) && nbit mask b.ctx && pathOk b.path && decide (1 ≤ b.dMin ∧ b.dMin ≤ b.d ∧ b.d ≤ b.dMax ∧ b.dMax ≤ 4096)

/-- A segment descriptor's fields (09 Table 9.5): size, alignment, and initial contents within the segment and INIT_DATA. -/
def State.segOk (s : State) (g : Staged) (n : Nat) : Bool :=
  let d := s.segAt g.base g.img n
  decide (1 ≤ d.size256 ∧ d.size256 ≤ 150994944 ∧ 8 ≤ d.alignLog2) &&
  d.initOff.all (fun o => decide (d.initLen ≤ 256 * d.size256) &&
    (s.sectOf g.base 0xD).any (fun x => decide (o + d.initLen ≤ x.len)))

/-- The descriptors are those of at most 1,024 segments in ALLOCATIONS; initial contents of Store lie in INIT_DATA and in Store. -/
def State.segsPlaced (s : State) (g : Staged) : Bool :=
  decide (g.img.segCount ≤ 1024) &&
  (s.sectOf g.base 5).any (fun x => g.img.segCount == 0 || decide (x.off ≤ g.img.segOff ∧ g.img.segOff + 16 * g.img.segCount ≤ x.off + x.len)) &&
  g.img.storeInit.all (fun (e : Nat × Nat × Nat) =>
    decide (0x100000000 ≤ e.1 ∧ e.1 + e.2.2 ≤ 0x140000000) && (s.sectOf g.base 0xD).any (fun x => decide (e.2.1 + e.2.2 ≤ x.len)))

/-- The rows that a frame of a stream needs for its fields (11 R294). -/
def State.streamRows (s : State) (g st : Nat) : Nat :=
  let n := 8 * (s.dataLanes g).length
  (s.fieldsOf g st).foldl (fun m f => max m (ceilDiv (s.rdF (Reg.fieldEnt f) 0 15 + s.rdF (Reg.fieldEnt f + 4) 27 5 + 1) n)) 1

/-- The deadlines, in FAB cycles, of the groups of an image that a field reaches. -/
def State.fieldDeadlines (s : State) (img : Contents) (f : Nat) : List Nat :=
  let w := s.rd (Reg.fieldEnt f + 4)
  let t := fld w 20 7 / 4
  let cores := if bit w 10 then ((img.trees.filter (fun x => x.tile == t && x.id == fld w 11 8)).flatMap (fun x => bitsOf x.mask 512))
               else [fld w 11 9]
  img.groups.filterMap (fun g =>
    if g.tile = t ∧ img.blobs.any (fun b => b.tile == t && b.ctx == g.ctx && cores.elem (16 * b.row + b.col) && bits (blobReg b 0) 16 4 == g.group)
    then some (g.dlT * s.cTick + g.dlC) else none)

/-- A class-T field entry: an entry of its own with CLASS_T, in its ranges, and a stream whose trailer's delivery plus 16 cycles lies no later
than the deadlines of the groups it reaches (11 R297, R299). `u` is the state with the image's entries. -/
def State.fieldEntOk (s u : State) (img : Contents) (f : Nat) : Bool :=
  let w := u.rd (Reg.fieldEnt f)
  let g := fld w 23 6
  let st := fld w 15 8
  let bt := blockTime (u.grpRate g)
  !bit (s.rd (Reg.fieldEnt f)) 31 && bit w 31 && bit w 30 && u.mayTakeIn g && fieldOk w (u.rd (Reg.fieldEnt f + 4)) (u.rd (Reg.fieldEnt f + 8)) &&
  (u.expected g st).all (fun e => (u.fieldDeadlines img f).all (fun d =>
    decide (e * (bt.2 : Int) + ((u.streamRows g st + 1 : Nat) : Int) * (bt.1 : Int) + 16 * (bt.2 : Int) ≤ (d : Int) * (bt.2 : Int))))

def State.chkFields (s : State) (g : Staged) : Option Rej :=
  let img := g.img
  let timed := s.imgTimed g.base
  let mask := s.imgMask g.base
  let u := s.wrs img.regInit
  let routes := (List.range 256).filter (fun r => img.regInit.any (fun (e : Nat × W32) => e.1 == Reg.pr r))
  let bad := fun {α : Type} (sect : Nat) (l : List α) (ok : α → Bool) => badAt Status.fieldRange 6 sect l ok
  let all := img.blobs ++ s.heldBlobs
  firstSome
    [ unlessOk ((bitsOf mask 4).all (fun k => img.ctxs.any (fun c => c.ctx == k))) (lrej Status.fieldRange 6 Sec.target 0)
    , bad Sec.target img.ctxs (s.ctxOk img timed mask)
    , bad Sec.blobs img.blobs (blobOk img timed mask)
    , bad Sec.queues (queueRegs img) (fun (e : Nat × W32) => queueRegOk e.1 e.2.toNat)
    , bad Sec.blobs img.blobs (fun b => !all.any (slotsMeet b))
    , unlessOk (noPair (fun (a b : Nat) => a == b) (all.flatMap blobBits)) (lrej Status.fieldRange 6 Sec.queues 0)
    , bad Sec.blobs img.blobs (s.hbmFree g)
    , bad Sec.slots (slotRegs img) (fun (e : Nat × W32) => loaderReg e.1)
    , bad Sec.allocs (allocRegs img) (fun (e : Nat × W32) => loaderReg e.1 && (e.1 % 0x10000000 != 0xF0B0004 || decide (0x100000000 ≤ e.1) ||
        e.2.toNat % 32 == 0))
    , bad Sec.allocs (psetsOf img) (fun (e : Nat × Nat × Nat × Nat) =>
        nbit mask e.2.2.1 && psetOk (imgPset img e.1 e.2.1 e.2.2.1 e.2.2.2))
    , bad Sec.queues (fieldsSet img) (s.fieldEntOk u img)
    , unlessOk (s.segsPlaced g) (lrej Status.fieldRange 6 Sec.allocs 0)
    , bad Sec.allocs (List.range img.segCount) (s.segOk g)
    , bad Sec.allocs (tablesOf img) u.tableOk
    , bad Sec.allocs routes u.lookupOk
    , unlessOk (img.passes == 0 || decide (1 ≤ img.passEvents ∧ img.passEvents ≤ 65536 ∧ img.passes < 65536))
        (lrej Status.fieldRange 6 Sec.target 0)
    , bad Sec.manifest img.groups (s.groupOk img mask)
    , bad Sec.manifest img.outputs (s.outputOk img mask)
    , bad Sec.manifest img.balances (balOk mask) ]

/-! Step 7 (02 R54, R55). -/

/-- A fallback entry: its restriction, its escalation fields, and the stage groups it depends on. -/
def fallbackOk (img : Contents) (d : OutDecl) : Bool :=
  decide (d.fbKind < 4 ∧ d.escN < 65536 ∧ d.escLog2 < 32) && (decide (2 ≤ d.fbKind) || d.width == 1) &&
  (decide (d.fbKind < 2) || decide (d.fixed.toNat < 2 ^ d.width)) &&
  d.deps.all (fun (e : Nat × Nat) => e.2 / 16 == d.ctx && img.groups.any (fun g => g.tile == e.1 && 16 * g.ctx + g.group == e.2))

def chkFallbacks (g : Staged) : Option Rej :=
  badAt Status.fallbackInvalid 7 Sec.fallbacks g.img.outputs (fallbackOk g.img)

/-! Step 8 (09 R246). -/

/-- Whether a segment has its base. -/
def Staged.resolved (g : Staged) (n : Nat) : Bool := g.bases.any (fun (e : Nat × Nat) => e.1 == n)

def State.chkRelocs (s : State) (g : Staged) : Option Rej :=
  firstSome
    [ badAt Status.relocFault 8 Sec.relocs (s.relocs g.base) (fun r =>
        match relocValue g.base g.bases g.parts r with
        | some v => decide (0 ≤ v ∧ v < (2 ^ r.width : Nat))
        | none => false)
    , badAt Status.relocFault 8 Sec.patches (s.patchEnts g.base) (fun p => p.kind != 4 || (g.resolved p.seg &&
        (g.patches.find? (fun (e : Nat × W64) => e.1 == p.pid)).all (fun e => decide (SMap.get 0 g.bases p.seg + e.2.toNat < 2 ^ p.width))))
    , badAt Status.relocFault 8 Sec.allocs (List.range g.img.segCount) (fun n =>
        (s.segAt g.base g.img n).initOff.isNone || g.resolved n) ]

/-! Step 9 (03 R80; 06 R160, R172, R175, R183; 07 R193; 08 R217, R229; 13 R334). -/

/-- The enabled queues of a blob: base and depth. -/
def blobQueues (b : CoreBlob) : List (Nat × Nat) :=
  (List.range 8).filterMap (fun q =>
    let w := blobReg b (0x40 + 4 * q)
    if nbit w 31 then some (bits w 16 9, bits w 0 7) else none)

/-- NEED within DEPTH, and BASE + DEPTH within the queue RAM (03 R80). A NEED of a queue that is not enabled is refused, as of a queue
without depth (DESIGN CHOICE, log 36: R80 names NEED greater than DEPTH). -/
def queuesFit (b : CoreBlob) : Bool :=
  (blobQueues b).all (fun (e : Nat × Nat) => decide (e.1 + e.2 ≤ 512)) && disjoint (blobQueues b) &&
  (List.range 8).all (fun q =>
    let w := blobReg b (0x40 + 4 * q)
    let need := bits (blobReg b (0xC + 4 * (q / 4))) (8 * (q % 4)) 8
    need == 0 || (nbit w 31 && decide (need ≤ bits w 0 7)))

/-- Queues of two blobs that overlap on a core. Blobs of two passes take turns. -/
def queuesMeet (a b : CoreBlob) : Bool :=
  sameCore a b && a.ctx != b.ctx && (blobQueues a).any (fun q => (blobQueues b).any (rangesMeet q))

/-- Bounds of two contexts that overlap on a core, chains apart (06 R160, R172). -/
def boundsMeet (img : Contents) (a b : CoreBlob) : Bool :=
  let chain := ((img.ctxs.find? (fun c => c.ctx == a.ctx)).map (·.chainMask)).getD 0
  sameCore a b && a.ctx != b.ctx && !nbit chain b.ctx && decide (blobLo a < blobHi b ∧ blobLo b < blobHi a)

/-- The spill areas that an image gives the Scarab engines of its tiles (06 Table 6.4). -/
def spillAreas (img : Contents) : List (Nat × Nat) :=
  (List.range 16).filterMap (fun t =>
    let n := (imgReg img (Reg.scarab t + 8)).toNat % 2 ^ 24
    if n = 0 then none else some ((imgReg img (Reg.scarab t + 4)).toNat, 32 * n))

/-- The Store ranges and spill areas of an image. -/
def storeOf (img : Contents) : List (Nat × Nat) := img.storeRanges.map (fun (e : Nat × Nat × Bool) => (e.1, e.2.1)) ++ spillAreas img

/-- The Store ranges of the committed images. -/
def State.heldStore (s : State) : List (Nat × Nat) := s.loader.images.flatMap (fun i => storeOf i.img)

/-- The registers that committed images set. -/
def State.heldRegs (s : State) : List Nat := s.loader.images.flatMap (fun i => i.img.regInit.map (fun (e : Nat × W32) => e.1))

/-- The configured acquisition areas (13 R334). -/
def State.acqAreas (s : State) : List (Nat × Nat) :=
  ((List.range 64).filter (fun g => bit (s.rd (Reg.acq g)) 31)).map s.acqArea

/-- Whether the Store ranges and spill areas of an image fit (06 Table 6.5): in Store, apart from each other and from those held; only a
pre-trigger ring may hold an acquisition area; initial contents lie in them, and no tile's spill area is another image's. -/
def State.storeFits (s : State) (img : Contents) : Bool :=
  let rs := storeOf img
  rs.all (fun (e : Nat × Nat) => decide (e.1 + e.2 ≤ 2 ^ 30)) && disjoint rs && rs.all (fun r => !s.heldStore.any (rangesMeet r)) &&
  img.storeRanges.all (fun (e : Nat × Nat × Bool) => e.2.2 || !s.acqAreas.any (rangesMeet (e.1, e.2.1))) &&
  (spillAreas img).all (fun r => !s.acqAreas.any (rangesMeet r)) &&
  img.storeInit.all (fun (e : Nat × Nat × Nat) => rs.any (fun r => decide (0x100000000 + r.1 ≤ e.1 ∧ e.1 + e.2.2 ≤ 0x100000000 + r.1 + r.2))) &&
  img.regInit.all (fun (e : Nat × W32) => !(decide (e.1 < 0x100000000) && decide (0xF0B0000 ≤ e.1 % 0x10000000)) ||
    !s.heldRegs.elem e.1)

/-- A tree of an image: its id is no other's in its tile (03 R86). -/
def State.treesFit (s : State) (img : Contents) : Bool :=
  let key := fun (x : Tree) => (x.tile, x.id)
  noPair (fun a b => key a == key b) img.trees && img.trees.all (fun x => !s.ant.trees.any (fun e => key e.2 == key x))

/-- The slots of a port in a frame: NoP cycles, the flit positions of both directions of a Store port (07 R192), or the block positions of a
link group's TX in a tick (11 R313). -/
def State.slotLimit (s : State) (p : Nat) : Nat :=
  if linkPort 0 ≤ p then s.tickBlocks ((s.grpLanes (p - linkPort 0)).headD 0) else if p < 0x180 then 4 * s.cTick else 3 * s.cTick / 2

def State.slotsFit (s : State) (img : Contents) : Bool :=
  let key := fun (x : SlotRes) => (x.port, x.slot)
  let held := s.ant.slots.map (fun (e : Nat × SlotRes) => key e.2)
  img.slots.all (fun x => (slotPortOk x.port || decide (linkPort 0 ≤ x.port ∧ x.port < linkPort 64)) && decide (x.slot < s.slotLimit x.port) && !held.elem (key x)) &&
  noPair (fun (a b : SlotRes) => key a == key b) img.slots

/-- The lookup slots of an image: each within the frame, and none twice in a frame, among routes or images (07 R193; 08 R221). -/
def State.patSlotsFit (s : State) (img : Contents) : Bool :=
  let key := fun (x : PatSlot) => (x.bank, x.frame)
  let held := s.banks.patSlots.map (fun (e : Nat × PatSlot) => key e.2)
  img.patSlots.all (fun x => decide (x.bank < 64 ∧ 2 * x.frame < s.cTick) && !held.elem (key x)) &&
  noPair (fun (a b : PatSlot) => key a == key b) img.patSlots

/-- Whether a register belongs to a PWP table of a special-function unit (05 Table 5.3). -/
def isPwp (a : Nat) : Bool :=
  decide (a < 0x100000000 ∧ 0xF030000 ≤ a % 0x10000000 ∧ a % 0x10000000 < 0xF0B0000) && decide (0x10000 ≤ (a % 0x10000000 - 0xF030000) % 0x20000)

/-- SFU reservations and PWP tables: an entry or a table that another image uses, or two calls of one engine in one cycle; those of a Retired context are free. -/
def State.sfuFits (s : State) (img : Contents) : Bool :=
  let u := s.wrs img.regInit
  let isRes := fun (a : Nat) => decide (a < 0x100000000) && decide (0xF030000 ≤ a % 0x10000000 ∧ a % 0x10000000 < 0xF0B0000) &&
    decide (0x1000 ≤ (a % 0x10000000 - 0xF030000) % 0x20000 ∧ (a % 0x10000000 - 0xF030000) % 0x20000 < 0x1200) && a % 8 == 4
  let es := img.regInit.filter (fun (e : Nat × W32) => isRes e.1 && bit e.2 31)
  let free := fun (k : Nat) => s.ctxState k == Ctx.retired
  es.all (fun (e : Nat × W32) => !bit (s.rd e.1) 31 || free (s.rdF e.1 29 2)) &&
  img.regInit.all (fun (e : Nat × W32) => !isPwp e.1 || !s.heldRegs.elem e.1) &&
  (List.range 64).all (fun tu =>
    !es.any (fun (e : Nat × W32) => e.1 / 0x10000000 == tu / 4 && (e.1 % 0x10000000 - 0xF030000) / 0x20000 == tu % 4) ||
    noPair (fun (a b : Nat × Nat × Nat × Nat) => a.2.1 == b.2.1 && a.2.2.1 == b.2.2.1)
      ((u.sfuRes (tu / 4) (tu % 4)).filter (fun (e : Nat × Nat × Nat × Nat) => !free e.1)))

/-! Cycles per firing and lane bandwidth (06 Table 6.5). -/

/-- The cycles of a firing from its first instruction to END, without waits for banks (03 R72, R74): `units` holds when each unit is free.
None where END is not reached within the fuel. -/
def firingCycles (ins : Nat → AntIns) : Nat → Nat → List LoopSt → Nat → List Nat → Option Nat
  | 0, _, _, _, _ => none
  | fuel + 1, pc, ls, clk, units =>
    let i := ins pc
    if i.cls = 5 ∧ i.op = 2 then some (clk + 1)
    else
      let t := if i.cls < 5 then max clk (units.getD i.cls 0) else clk
      let n := issueCycles i
      let ls := if i.cls = 5 ∧ i.op = 1 then { first := pc + 1, last := pc + 1 + bits i.aux 0 6, left := i.cnt - 1 : LoopSt } :: ls else ls
      let nx := if i.cls = 5 ∧ i.op = 1 then (pc + 1, ls) else nextPc pc ls
      if i.cls < 5 then firingCycles ins fuel (nx.1 % 512) nx.2 (t + 1) (units.set i.cls (t + n))
      else firingCycles ins fuel (nx.1 % 512) nx.2 (clk + n) units

/-- A Timed blob's firing fits its slot less the margin (06 Table 6.5 CYCLES). -/
def State.cyclesFit (s : State) (img : Contents) (b : CoreBlob) : Bool :=
  !blobTimed b ||
    (let at' := fun (pc : Nat) => antIns (((b.iram.find? (fun (e : Nat × BitVec 128) => e.1 == pc)).map (fun (e : Nat × BitVec 128) => e.2)).getD 0).toNat
     let room := (blobSlot b).2 + 1 - (blobSlot b).1 - marginOf img b.ctx
     (firingCycles at' (min room s.cTick + 1) (bits (blobReg b 0) 0 9) [] 0 [0, 0, 0, 0, 0]).any (fun n => decide (n ≤ room)))

/-- The class-T streams fit their lanes: the blocks of their frames in a tick (06 Table 6.5 LANE_BW; 11 R293). -/
def State.lanesFit (s : State) (img : Contents) : Bool :=
  let u := s.wrs img.regInit
  let streams := (((List.range 1024).filter (fun f => bit (u.rd (Reg.fieldEnt f)) 31 && bit (u.rd (Reg.fieldEnt f)) 30)).map
    (fun f => (u.rdF (Reg.fieldEnt f) 23 6, u.rdF (Reg.fieldEnt f) 15 8))).eraseDups
  (fieldsSet img).isEmpty || (streams.map (·.1)).eraseDups.all (fun g =>
    let bt := blockTime (u.grpRate g)
    let blocks := (streams.filter (fun (e : Nat × Nat) => e.1 == g)).foldl (fun n (e : Nat × Nat) => n + u.streamRows g e.2 + 2) 0
    decide (blocks * bt.1 ≤ s.cTick * bt.2))

def rangeIn (r : Nat × Nat × Nat × Nat) : Bool := decide (r.1 + r.2.1 ≤ 64 ∧ r.2.2.1 + r.2.2.2 ≤ 16384)

/-- Whether two ranges of pattern tables overlap. -/
def tablesMeet (a b : Nat × Nat × Nat × Nat) : Bool :=
  rangesMeet (a.1, a.2.1) (b.1, b.2.1) && rangesMeet (a.2.2.1, a.2.2.2) (b.2.2.1, b.2.2.2)

/-- Places the patterns of an image in image order (08 R229): keyed pairs by the procedure, indexed values at their index. -/
def State.placePatterns (s : State) : List PatKv → Option State
  | [] => some s
  | e :: r =>
    if s.ptMode e.table = 1 then
      if e.key.toNat < s.ptEntries e.table then
        (s.patPut (s.indexAddr e.table 0 e.key.toNat) 0 e.value.toNat false).placePatterns r
      else none
    else
      match s.place e.table 0 e.key.toNat e.value with
      | some t => t.placePatterns r
      | none => none

/-- Pattern tables: free numbers, ranges within the banks and apart, keyed halves on disjoint sub-banks (08 R217), free route numbers,
and a place for every key. -/
def State.patternFits (s : State) (img : Contents) (fs : List PatKv) : Bool :=
  let u := s.wrs img.regInit
  let ts := tablesOf img
  let rs := ts.flatMap u.tableRanges
  let held := ((List.range 64).filter (fun n => s.ptEn n)).flatMap s.tableRanges
  let halves := fun (n : Nat) =>
    let a := u.tableRange n 0 0
    let b := u.tableRange n 1 0
    u.ptMode n == 1 || !rangesMeet (a.1, a.2.1) (b.1, b.2.1)
  img.regInit.all (fun (e : Nat × W32) => !decide (Reg.pt 0 ≤ e.1 ∧ e.1 < Reg.pt 64) || ts.elem ((e.1 - Reg.pt 0) / 32)) &&
  ts.all (fun n => !s.ptEn n && halves n) && rs.all rangeIn && noPair tablesMeet rs && rs.all (fun r => !held.any (tablesMeet r)) &&
  (List.range 256).all (fun r => !img.regInit.any (fun (e : Nat × W32) => e.1 == Reg.pr r) || !bit (s.rd (Reg.pr r)) 31) &&
  img.patterns.all (fun e => ts.elem e.table) && (u.placePatterns fs).isSome

def State.chkAllocs (s : State) (g : Staged) : Option Rej :=
  let img := g.img
  let all := img.blobs ++ s.heldBlobs
  let k0 := (bitsOf (s.imgMask g.base) 4).headD 0
  let each := fun (res : Nat) (ok : CoreBlob → Bool) => (img.blobs.find? (fun b => !ok b)).map (fun b => overRej res b.ctx)
  firstSome
    [ each 1 (s.cyclesFit img)
    , unlessOk (!(s.imgTimed g.base && img.passes != 0)) (overRej 1 k0)
    , unlessOk (s.sfuFits img) (overRej 1 k0)
    , each 2 (fun b => decide (blobLo b ≤ blobHi b ∧ blobHi b ≤ 0x30000))
    , each 2 (fun b => !all.any (boundsMeet img b))
    , each 3 queuesFit
    , each 3 (fun b => !all.any (queuesMeet b))
    , unlessOk (s.treesFit img) (overRej 3 k0)
    , unlessOk (s.storeFits img) (overRej 4 k0)
    , unlessOk (s.slotsFit img) (overRej 5 k0)
    , unlessOk (s.patSlotsFit img) (overRej 6 k0)
    , unlessOk (s.patternFits img img.patterns) (overRej 6 k0)
    , unlessOk (s.lanesFit img) (overRej 7 k0) ]

/-! Step 10 (02 R64, R65; 09 R250). -/

/-- A stage group as moved: NOMINAL and DEADLINE in FAB cycles from the input strobe. -/
def State.moved (s : State) (sig : Nat) (g : GroupDecl) : Int × Int :=
  let d := s.deltaOf sig g.path
  (((g.nomT * s.cTick + g.nomC : Nat) : Int) + d, ((g.dlT * s.cTick + g.dlC : Nat) : Int) + d)

/-- The NOMINAL of a group within its tick. -/
def State.inTick (s : State) (n : Int) : Int := n % (s.cTick : Int)

/-- What a context still uses in a tile after the latest of its groups there completes; 0 for a group that another outlasts. -/
def State.tail (s : State) (img : Contents) (g : GroupDecl) : Int :=
  let c := fun (x : GroupDecl) => s.inTick (x.nomT * s.cTick + x.nomC : Nat)
  if img.groups.any (fun x => x.tile == g.tile && x.ctx == g.ctx && decide (c g < c x)) then 0
  else match (img.ctxs.find? (fun d => d.ctx == g.ctx)).bind (fun d => d.lastCycle.find? (fun (e : Nat × Nat) => e.1 == g.tile)) with
    | some e => max 0 ((e.2 : Int) - c g)
    | none => 0

/-- A moved group keeps the limits of a latency, and the margin at the end of its slot (02 R45, R65): one that moves later does not pass it
into the next slot or tick. A group that does not move is as compiled. -/
def State.movedOk (s : State) (sig : Nat) (img : Contents) (g : GroupDecl) : Bool :=
  let m := s.moved sig g
  let d := s.deltaOf sig g.path
  let c : Int := if 0 < d then (g.nomC : Int) + d else s.inTick m.1
  d == 0 ||
  (decide (0 ≤ m.1 ∧ m.2 < (256 * s.cTick : Nat)) &&
   (s.slotEnds img g.ctx g.tile).all (fun x => decide (c + s.tail img g + (marginOf img g.ctx : Int) ≤ (x : Int))))

def State.chkLatency (s : State) (g : Staged) : Option Rej :=
  let sig := s.imgSig g.base
  if sig == s.sigId then none
  else firstSome
    [ unlessOk (signature sig).isSome (lrej Status.latencyMismatch 10 0 0)
    , badAt Status.latencyMismatch 10 Sec.manifest g.img.balances (fun b =>
        let d := s.balance sig b
        decide ((b.dMin : Int) ≤ d ∧ d ≤ (b.dMax : Int)))
    , badAt Status.latencyMismatch 10 Sec.manifest g.img.groups (s.movedOk sig g.img) ]

/-! Step 11: the staged copy is readable (09 R242). -/

def State.chkMedia (s : State) (g : Staged) : Option Rej :=
  unlessOk (!s.poison.any (fun a => decide (imgAddr g.base 0 ≤ a ∧ a < imgAddr g.base g.len))) (lrej Status.loadMedia 11 0 0)

/-- A staged image with its records as relocations and patch values leave them. -/
def State.filled (s : State) (g : Staged) : Staged := { g with img := imgWith g.img (s.imgFields g.base g.bases g.parts g.patches) }

/-- The checks of COMMIT in order, each over the whole image before the next begins (09 R251). -/
def State.commitChecks (s : State) (g : Staged) : Option Rej :=
  let x := s.filled g
  orRej (chkReceived g) (orRej (s.chkFormat g) (orRej (s.chkSignature g) (orRej (s.chkTarget x) (orRej (s.chkTick g)
    (orRej (s.chkFields x) (orRej (chkFallbacks x) (orRej (s.chkRelocs g) (orRej (s.chkAllocs x) (orRej (s.chkLatency x)
      (s.chkMedia g))))))))))

end Sys2Proof.Machine
end

