-- ==== Sys2Proof/Machine/Loader.lean ====
section
/-! DEFINITION. The loader's commands (09): staging, relocation and patching, COMMIT with its write-out, UNLOAD and LOAD_INFO; the
readout streams' ACQ_STREAM (13 R352), which minds the segments of images; and the passes of a Survey pass chain (06 R174). -/

namespace Sys2Proof.Machine

/-! Staging (09 R240, R241). -/

/-- The lowest offset in the loader region where `len` bytes fit beside ranges held. -/
def fitAt (held : List (Nat × Nat)) (len : Nat) : Option Nat :=
  let cands := 0 :: held.map (fun (e : Nat × Nat) => (e.1 + e.2 + 31) / 32 * 32)
  (sortBy (fun (a b : Nat) => decide (a ≤ b)) cands).find? (fun o => decide (o + len ≤ 0x200000000) && !held.any (rangesMeet (o, len)))

def State.heldImages (s : State) : List (Nat × Nat) := s.loader.images.map (fun i => (i.base, i.len))

def State.committing (s : State) : Bool :=
  match s.loader.staged with
  | some g => g.committing
  | none => false

/-- The staged image under a handle, while it does not commit. -/
def State.stagedUnder (s : State) (handle : Nat) : Option Staged := s.loader.staged.filter (fun g => g.handle == handle)

/-- LOAD_SEQUENCE where no image is staged under a handle, LOADER_BUSY while it commits (09 R241; 15 R388). -/
def State.stagedRej (s : State) (handle step : Nat) : Option Rej :=
  firstRej [ ((s.stagedUnder handle).isSome, lrej Status.loadSequence step 0 0), (!s.committing, lrej Status.loaderBusy 0 0 0) ]

/-- Whether the stack of the loader region is in self-refresh: what reads or writes the region waits (07 R190). -/
def State.loaderAsleep (s : State) : Bool := nbit s.pwr.asleep 7

/-- Whether an access is a chunk that waits for that stack. -/
def isChunkWait (e : HostReq × Nat) : Bool :=
  match e.1.who with
  | .command _ _ op => op == Op.loadChunk
  | _ => false

/-- The ranges of a staged image that have come, or wait to be written. -/
def State.gotOrWait (s : State) (g : Staged) : List (Nat × Nat) :=
  g.got ++ ((s.host.waits.filter isChunkWait).map (fun e => (e.1.addr - imgAddr g.base 0, e.1.addr - imgAddr g.base 0 + e.1.n)))

/-- The chunks that wait go with their image, each with LOAD_SEQUENCE. -/
def State.dropChunks (s : State) : State :=
  (s.host.waits.filter isChunkWait).foldl (fun t e =>
    match e.1.who with
    | .command tr tag op => t.reply tr tag op false Status.loadSequence [(lrej Status.loadSequence 0 0 0).detail]
    | _ => t) { s with host.waits := s.host.waits.filter (fun e => !isChunkWait e) }

def State.setStaged (s : State) (g : Staged) : State := { s with loader.staged := some g }

/-- LOAD_BEGIN. -/
def execLoadBegin (h : Hdr) (len : Nat) (img : Contents) (s : State) : Host.Outcome State Fault Refusal :=
  s.done (s.serve h Op.loadBegin
    (fun s => firstRej [ (!s.committing, lrej Status.loaderBusy 0 0 0)
                       , ((fitAt s.heldImages len).isSome, lrej Status.loadNoSpace 0 0 0) ])
    (fun s =>
      let n := s.loader.nextHandle
      let g : Staged := { handle := n, base := (fitAt s.heldImages len).getD 0, len := len, got := [], img := img, bases := [], parts := [],
                          patches := [], committing := false, validAt := none }
      { st := { s.dropChunks with loader.staged := some g, loader.nextHandle := n % (2 ^ 32 - 1) + 1 },
        out := [BitVec.ofNat 32 n, if s.loader.staged.isSome then 1 else 0] }))

/-- LOAD_CHUNK. Where the stack of the loader region is in self-refresh it waits, and its reply with it (07 R190). -/
def execLoadChunk (h : Hdr) (handle off : Nat) (bytes : List W8) (s : State) : Host.Outcome State Fault Refusal :=
  s.done (s.serve h Op.loadChunk
    (fun s => orRej
      (firstRej [ (off % 32 == 0, rej Status.valueRange 0 1), (decide (32 ≤ bytes.length ∧ bytes.length ≤ 16352), rej Status.valueRange 0 2) ])
      (orRej (s.stagedRej handle 0)
        (match s.stagedUnder handle with
         | some g => unlessOk (decide (off + bytes.length ≤ g.len) &&
             !(s.gotOrWait g).any (fun (e : Nat × Nat) => rangesMeet (e.1, e.2 - e.1) (off, bytes.length))) (lrej Status.loadSequence 0 0 0)
         | none => none)))
    (fun s =>
      match s.stagedUnder handle with
      | some g =>
        if s.loaderAsleep then
          { st := s.access { addr := imgAddr g.base off, n := bytes.length, data := some bytes,
                             who := .command h.transport h.tag Op.loadChunk } 0, late := true }
        else { st := (s.memWrite (imgAddr g.base off) bytes false).setStaged { g with got := g.got ++ [(off, off + bytes.length)] } }
      | none => { st := s }))

/-! Relocation (09 R245). -/

/-- Whether bytes of a staged image have been received; the chunks do not overlap (09 R241). -/
def Staged.has (g : Staged) (off len : Nat) : Bool :=
  g.got.foldl (fun n (e : Nat × Nat) => n + (min e.2 (off + len) - max e.1 off)) 0 == len

/-- Whether the descriptor of a segment has been received. -/
def Staged.hasSeg (g : Staged) (n : Nat) : Bool := g.has (g.img.segOff + 16 * n) 16

/-- The range of a segment of an image at its base. -/
def State.segRange (s : State) (base : Nat) (img : Contents) (e : Nat × Nat) : Nat × Nat := (e.2, (s.segAt base img e.1).size256 * 256)

/-- The segments of the committed images and of a staged one but for segment `n`. -/
def State.segRanges (s : State) (g : Staged) (n : Nat) : List (Nat × Nat) :=
  s.loader.images.flatMap (fun i => i.bases.map (s.segRange i.base i.img)) ++
  (g.bases.filter (fun (e : Nat × Nat) => e.1 != n)).map (s.segRange g.base g.img)

/-- Whether a segment may lie at a base: aligned, within one allowed stack, clear of the loader region and other segments. -/
def State.baseOk (s : State) (g : Staged) (n base : Nat) : Bool :=
  let d := s.segAt g.base g.img n
  let size := d.size256 * 256
  decide (0x10000000000 ≤ base ∧ base + size ≤ 0x14800000000) && base % 2 ^ d.alignLog2 == 0 &&
  stackOf base == stackOf (base + size - 1) && nbit d.stackMask (stackOf base) &&
  !rangesMeet (base, size) (0x14600000000, 0x200000000) && !(s.segRanges g n).any (rangesMeet (base, size))

def alignUp (a k : Nat) : Nat := (a + 2 ^ k - 1) / 2 ^ k * 2 ^ k

/-- The lowest base in the lowest-numbered allowed stack that holds the segment. -/
def State.autoBase (s : State) (g : Staged) (n : Nat) : Option Nat :=
  let d := s.segAt g.base g.img n
  let used := s.segRanges g n
  ((bitsOf d.stackMask 8).filterMap (fun h =>
    let lo := 0x10000000000 + h * 0x900000000
    let cands := (lo :: used.map (fun (e : Nat × Nat) => e.1 + e.2)).map (fun a => alignUp a d.alignLog2)
    (sortBy (fun (a b : Nat) => decide (a ≤ b)) cands).find? (fun b => decide (lo ≤ b) && stackOf b == h && s.baseOk g n b))).head?

/-- One entry of RELOCATE. That of a segment whose descriptor has not been received is refused (DESIGN CHOICE, log 32). -/
def State.relocOne (s : State) (g : Staged) (e : RelocEnt) : Option Staged :=
  if e.isPart then
    if e.index < 64 ∧ e.value < 64 ∧ e.value ≠ s.dev.partId then some { g with parts := SMap.ins e.index e.value (SMap.del e.index g.parts) }
    else none
  else if e.index < g.img.segCount ∧ g.hasSeg e.index then
    let base := if e.value = 0 then s.autoBase g e.index else if s.baseOk g e.index e.value then some e.value else none
    base.map (fun b => { g with bases := SMap.ins e.index b (SMap.del e.index g.bases) })
  else none

def State.relocAll (s : State) (g : Staged) : List RelocEnt → Option Staged
  | [] => some g
  | e :: r =>
    match s.relocOne g e with
    | some x => s.relocAll x r
    | none => none

/-- RELOCATE: all entries or none. -/
def execRelocate (h : Hdr) (handle : Nat) (ents : List RelocEnt) (s : State) : Host.Outcome State Fault Refusal :=
  s.done (s.serve h Op.relocate
    (fun s => orRej (unlessOk (decide (1 ≤ ents.length ∧ ents.length ≤ 1024)) (rej Status.valueRange 0 1))
      (orRej (s.stagedRej handle 0)
        (match s.stagedUnder handle with
         | some g => unlessOk (s.relocAll g ents).isSome (lrej Status.relocFault 0 0 0)
         | none => none)))
    (fun s =>
      match (s.stagedUnder handle).bind (fun g => s.relocAll g ents) with
      | some g => { st := s.setStaged g }
      | none => { st := s }))

/-! Patching (09 R247, R248). -/

/-- The order of two FP32 codes that are not NaN, as their totally ordered integers. -/
def f32Ord (v : Nat) : Int := if nbit v 31 then -((v % 2 ^ 31 : Nat) : Int) else (v : Int)

/-- Whether a value may be written at a patch point: within LO to HI in the point's interpretation, fitting its width, and what its
kind asks, given the size of the segment it names and that segment's base. -/
def patchOk (size base : Nat) (p : PatchEnt) (v : Nat) : Bool :=
  match p.kind with
  | 1 =>
    let x := toSigned 64 v
    decide (toSigned 64 p.lo ≤ x ∧ x ≤ toSigned 64 p.hi) && decide (-(2 ^ (p.width - 1) : Int) ≤ x ∧ x < (2 ^ (p.width - 1) : Int))
  | 2 => decide (v < 2 ^ 32) && decide (bits v 23 8 < 255) &&
         decide (f32Ord (p.lo % 2 ^ 32) ≤ f32Ord v ∧ f32Ord v ≤ f32Ord (p.hi % 2 ^ 32))
  | 3 => decide (v < 255 ∧ p.lo ≤ v ∧ v ≤ p.hi)
  | 4 => decide (p.lo ≤ v ∧ v ≤ p.hi) && v % 2 ^ p.alignLog2 == 0 && decide (v < size ∧ base + v < 2 ^ p.width)
  | _ => decide (p.lo ≤ v ∧ v ≤ p.hi ∧ v < 2 ^ p.width)

/-- PATCH_RANGE unless the point exists and takes the value; the detail word names its first entry. -/
def State.patchRej (s : State) (base : Nat) (img : Contents) (bases : SMap Nat) (pid v : Nat) : Option Rej :=
  let ps := s.patchEnts base
  match findIx (fun (p : PatchEnt) => p.pid == pid) ps with
  | some i => unlessOk (match ps[i]? with
      | some p => patchOk ((s.segAt base img p.seg).size256 * 256) (SMap.get 0 bases p.seg) p v
      | none => false) (lrej Status.patchRange 0 Sec.patches i)
  | none => some (lrej Status.patchRange 0 Sec.patches 0)

/-- PATCH_RANGE for a staged image whose header, section table, patch points, or segment that the point names, have not been received
(DESIGN CHOICE, log 32), or as `patchRej`. -/
def State.stagedPatchRej (s : State) (g : Staged) (pid v : Nat) : Option Rej :=
  let here := g.has 0 0x14 && g.has (s.imgW g.base 0xC) (16 * (s.imgW g.base 0x10 % 65536)) &&
    (s.sectOf g.base 8).any (fun x => g.has x.off x.len) &&
    (s.patchEnts g.base).all (fun p => p.pid != pid || p.kind != 4 || g.hasSeg p.seg)
  if here then s.patchRej g.base g.img g.bases pid v else some (lrej Status.patchRange 0 Sec.patches 0)

def setPatch (l : List (Nat × W64)) (pid : Nat) (v : W64) : List (Nat × W64) :=
  l.filter (fun (e : Nat × W64) => e.1 != pid) ++ [(pid, v)]

/-- The pass that an image's slots show (06 R174). -/
def State.passNow (s : State) (mask : Nat) : Nat := s.rdF (Reg.ctxrPass ((bitsOf mask 4).headD 0)) 16 16

/-- Takes a pair out of its table. -/
def State.unplace (s : State) (e : PatKv) : State :=
  if s.ptMode e.table = 1 then s
  else match s.findKey e.table 0 e.key.toNat with
    | some a => s.patPut a 0 0 false
    | none => s

/-- Writes one patch value of a committed image (09 R248) at every entry of its point: where the words of the image went, in the pass that
runs and any loaded ahead, in the bytes of INIT_DATA, in its tables, and in the pairs of PATTERN_CONTENTS, which are placed anew. -/
def State.writePatch (s : State) (i : Image) (pid : Nat) (v : W64) : State :=
  let base := fun (p : PatchEnt) => if p.kind = 4 then SMap.get 0 i.bases p.seg + v.toNat else v.toNat
  let fs := ((s.patchEnts i.base).filter (fun p => p.pid == pid)).map (fun p => (p.loc, p.lsb, p.width, base p))
  let old := imgWith i.img (s.imgFields i.base i.bases i.parts i.patches)
  let ps := setPatch i.patches pid v
  let new := imgWith i.img (s.imgFields i.base i.bases i.parts ps)
  let moved := (List.zip old.patterns new.patterns).filter (fun (e : PatKv × PatKv) => e.1 != e.2)
  let live := fun (p : Nat) => p == s.passNow i.mask || (bitsOf i.mask 4).any (fun k => (s.cx k).shadow == some p)
  let s := (s.putFields i.img s.placeAt' (fun _ p => live p) fs).putInits i.base i.img i.bases fs
  let s := moved.foldl (fun t (e : PatKv × PatKv) => t.unplace e.1) s
  let s := (s.placePatterns (moved.map (fun (e : PatKv × PatKv) => e.2))).getD s
  State.putTables { s with loader.images := s.loader.images.map (fun x => if x.handle = i.handle then { x with patches := ps } else x) } i.handle new

/-- Whether every context of an image is Loaded or Retired. -/
def State.atRest (s : State) (mask : Nat) : Bool :=
  (bitsOf mask 4).all (fun k => s.ctxState k == Ctx.loaded || s.ctxState k == Ctx.retired)

/-- PATCH of the staged image, recorded for the write-out, or of a committed one, written at once. -/
def execPatch (h : Hdr) (slot : Option Nat) (handle pid : Nat) (v : W64) (s : State) : Host.Outcome State Fault Refusal :=
  s.done (s.serve h Op.patch
    (fun s =>
      match slot with
      | none => orRej (s.stagedRej handle 0)
          (match s.stagedUnder handle with
           | some g => s.stagedPatchRej g pid v.toNat
           | none => none)
      | some k =>
        match s.imageOf k with
        | some i => orRej (unlessOk (s.atRest i.mask) (rej Status.stateIllegal)) (s.patchRej i.base i.img i.bases pid v.toNat)
        | none => some (rej Status.stateIllegal))
    (fun s =>
      match slot with
      | none =>
        match s.stagedUnder handle with
        | some g => { st := s.setStaged { g with patches := setPatch g.patches pid v } }
        | none => { st := s }
      | some k =>
        match s.imageOf k with
        | some i => { st := s.writePatch i pid v }
        | none => { st := s }))

/-! COMMIT (09 R242, R243). -/

/-- COMMIT: the checks and the write-out follow. -/
def execCommit (h : Hdr) (handle : Nat) (s : State) : Host.Outcome State Fault Refusal :=
  s.done (s.serve h Op.commit (fun s => s.stagedRej handle 1)
    (fun s =>
      match s.stagedUnder handle with
      | some g => { st := s.setStaged { g with committing := true }, mask := s.imgMask g.base }
      | none => { st := s }))

/-- Writes the blobs of a pass, their credits set and their queues empty (03 R82). -/
def State.writePass (s : State) (sig : Nat) (img : Contents) (pass : Nat) : State :=
  (img.blobs.filter (fun b => b.pass == pass)).foldl (fun t b =>
    let c := t.phys b.tile (16 * b.row + b.col)
    let t := t.writeBlob sig img b c false (fun _ => false)
    let t := (List.range 8).foldl (fun u q => u.wr (Reg.qstat b.tile c b.ctx q) 0) t
    (List.range 16).foldl (fun u r =>
      let w := u.rd (Reg.route b.tile c b.ctx r)
      u.wr (Reg.credit b.tile c b.ctx r) (if bit w 31 then BitVec.ofNat 32 (fld w 0 7) else 0)) t) s

/-- The word of a stage group's NOMINAL or DEADLINE (02 Table 2.3). -/
def State.monWord (s : State) (x : Int) : W32 :=
  BitVec.ofNat 32 (x.toNat / s.cTick % 256 * 2 ^ 24 + x.toNat % s.cTick)

/-- Monitors and fallback entries (02 R49, R57). -/
def State.writeClock (s : State) (sig : Nat) (img : Contents) : State :=
  let s := img.groups.foldl (fun t g =>
    let m := 16 * g.ctx + g.group
    let v := t.moved sig g
    (t.wr (Reg.scNominal g.tile m) (t.monWord v.1)).wr (Reg.scDeadline g.tile m) (t.monWord v.2)) s
  img.outputs.foldl (fun t d =>
    ((t.wr (Reg.fbCfg d.ctx d.out) (BitVec.ofNat 32 (d.fbKind * 2 ^ 30 + 2 ^ 29 + d.escLog2 * 2 ^ 24 + d.escN))).wr
      (Reg.fbFixedLo d.ctx d.out) (d.fixed.extractLsb' 0 32)).wr (Reg.fbFixedHi d.ctx d.out) (d.fixed.extractLsb' 32 32)) s

/-- Writes an image out: everything but VALID (09 R242). -/
def State.writeOut (s : State) (g : Staged) : State :=
  let sig := s.imgSig g.base
  let ks := bitsOf (s.imgMask g.base) 4
  let fs := s.imgFields g.base g.bases g.parts g.patches
  let img := imgWith g.img fs
  let s := (s.wrs img.regInit).writePass sig img 0
  let s := (s.writeInit g.base img g.bases).writeClock sig img
  let s := (s.putFields img s.placeAt' (fun _ p => p == 0) fs).putInits g.base img g.bases fs
  let s := (s.placePatterns img.patterns).getD s
  let s := img.classT.foldl (fun t c =>
    match c.roundTrip with
    | some rt => { t with link.groups := SMap.set GroupSt.init t.link.groups c.group { (SMap.get GroupSt.init t.link.groups c.group) with declRt := some rt } }
    | none => t) s
  let s := s.putTables g.handle img
  { s with
    ant.tensors := s.ant.tensors ++ img.tensors.map (fun (x : Nat × Nat × Nat) => (g.handle, x)),
    banks.patRoutes := s.banks.patRoutes ++ img.patRoutes.map (fun (x : Nat × Nat × Nat × Nat × Nat) => (g.handle, x)),
    link.classT := s.link.classT ++ ks.flatMap (fun k => img.classT.map (fun c => (k, c.group))) }

/-- The number of the strobe at which VALID is set: the next one, and no earlier than two after that which freed a slot (09 R243). -/
def State.validStrobe (s : State) (mask : Nat) : Nat :=
  (bitsOf mask 4).foldl (fun m k => match (s.cx k).freedAt with
    | some f => max m (f + 2)
    | none => m) (s.tick.strobes + 1)

/-- COMMIT_WRITE_OUT: the checks in order, then the write-out. A refusal leaves the device as it was and the image staged. Slots that an
UNLOAD is about to free, and stacks in self-refresh that it reads or writes (07 R190), are waited for; `ecc` says what the codes find in
the staged bytes. -/
def State.commitWriteOut (s : State) (ecc : Findings) : State :=
  match s.loader.staged with
  | none => s
  | some g =>
    let mask := s.imgMask g.base
    if !g.committing || g.validAt.isSome || (bitsOf mask 4).any (fun k => (s.cx k).unloadAt.isSome) || s.loaderAsleep ||
        (s.initRuns g.base g.img g.bases).any (fun (r : Nat × Nat × Nat) => s.asleepIn r.1 r.2.2) then s
    else
      let s := s.found (within ecc (imgAddr g.base 0) g.len) Req.loader
      match s.commitChecks g with
      | some r =>
        ((s.noteRej Op.commit r).setStaged { g with committing := false }).complete (fun a => a.opcode == Op.commit) r.status [r.detail]
      | none => (s.writeOut g).setStaged { g with validAt := some (s.validStrobe mask) }

def execCommitWriteOut (s : State) (ecc : Findings := []) : Host.Outcome State Fault Refusal :=
  s.done (if s.hubOn then s.commitWriteOut ecc else s)

/-- The logical cores of a context in a pass. -/
def coresIn (img : Contents) (k pass : Nat) : List (Nat × Nat) :=
  ((img.blobs.filter (fun b => b.ctx == k && b.pass == pass)).map (fun b => (b.tile, 16 * b.row + b.col))).eraseDups

/-- A context of a committed image becomes Loaded (06 R160, R166). -/
def State.loadCtx (s : State) (g : Staged) (timed twin : Bool) (c : CtxDecl) : State :=
  let k := c.ctx
  let s := s.setCx k { CtxRun.none' with image := some g.handle, essential := c.essential, margin := c.margin, chainMask := c.chainMask,
                                         twin := twin, cores := coresIn g.img k 0, lastHold := (s.cx k).lastHold }
  let s := s.wrs
    [ (Reg.ctxrState k, BitVec.ofNat 32 (Ctx.loaded * 2 ^ 29 + (if timed then 2 ^ 28 else 0) + c.chainPos % 4 * 2 ^ 26 +
        (popcount c.chainMask 4 - 1) % 4 * 2 ^ 24 + c.tLast % 256 * 2 ^ 16))
    , (Reg.ctxrStart k, 0), (Reg.ctxrStop k, 0)
    , (Reg.ctxrGapCfg k, BitVec.ofNat 32 ((if c.dsEn then 2 ^ 31 else 0) + c.dsLog2 % 32 * 2 ^ 24 + c.dsPhase % 2 ^ 24))
    , (Reg.ctxrPass k, BitVec.ofNat 32 (g.img.passes % 65536)) ]
  s.setLive k true

/-- COMMIT_VALID (09 R242): VALID on every core at one strobe; the contexts are Loaded. -/
def State.commitValid (s : State) : State :=
  match s.loader.staged with
  | none => s
  | some g =>
    if !g.validAt.any (fun n => decide (n ≤ s.tick.strobes)) then s
    else
      let mask := s.imgMask g.base
      let timed := s.imgTimed g.base
      let twin := nbit (s.imgW g.base 0x20) 24
      let i : Image := { handle := g.handle, base := g.base, len := g.len, mask := mask, img := g.img, bases := g.bases, parts := g.parts,
                         patches := g.patches }
      let s := { s with
        loader.staged := none, loader.images := s.loader.images ++ [i],
        clk.outs := s.clk.outs ++ g.img.outputs,
        clk.groups := s.clk.groups ++ g.img.groups.map (fun (x : GroupDecl) => (x.tile, 16 * x.ctx + x.group)),
        twin.taps := s.twin.taps ++ g.img.taps }
      let s := (g.img.ctxs.foldl (fun t c => t.loadCtx g timed twin c) s).derive
      s.complete (fun a => a.opcode == Op.commit) Status.ok []

def execCommitValid (s : State) : Host.Outcome State Fault Refusal := s.done (if s.hubOn then s.commitValid else s)

/-! UNLOAD (09 R241, R243). -/

/-- The slots of the images that hold a slot of a mask. -/
def State.imagesOf (s : State) (mask : Nat) : List Nat :=
  (List.range 4).filter (fun k => s.loader.images.any (fun i => Nat.land i.mask mask != 0 && nbit i.mask k))

/-- UNLOAD: a staged image is discarded; the images of named slots leave at the next strobe. -/
def execUnload (h : Hdr) (handle : Option Nat) (mask : Nat) (s : State) : Host.Outcome State Fault Refusal :=
  s.done (s.serve h Op.unload
    (fun s =>
      match handle with
      | some n => s.stagedRej n 0
      | none =>
        let m := mask % 16
        firstRej
          [ (m != 0, rej Status.valueRange 0 0)
          , (!(s.committing && (s.loader.staged.any (fun g => Nat.land (s.imgMask g.base) m != 0))), lrej Status.loaderBusy 0 0 0)
          , (s.atRest m && s.atRest (maskOf (s.imagesOf m)), rej Status.stateIllegal) ])
    (fun s =>
      match handle with
      | some _ => { st := { s.dropChunks with loader.staged := none } }
      | none => { st := s.mapCx (s.imagesOf (mask % 16)) (fun c => { c with unloadAt := some s.nextStrobe, heldOut := 0 }) }))

/-! LOAD_INFO (15 Table 15.9a). -/

/-- The value that a patch point holds: as written, or the image's bits at its first entry (09 R247). -/
def State.patchValue (s : State) (i : Image) (p : PatchEnt) : W64 :=
  match i.patches.find? (fun (e : Nat × W64) => e.1 == p.pid) with
  | some e => e.2
  | none => BitVec.ofNat 64 (bits (s.rdLE (imgAddr i.base p.loc) 8) p.lsb p.width)

/-- The first entry of each patch point. -/
def points (l : List PatchEnt) : List PatchEnt :=
  l.foldl (fun acc (p : PatchEnt) => if acc.any (fun (q : PatchEnt) => q.pid == p.pid) then acc else acc ++ [p]) []

def lowHigh (v : Nat) : List W32 := [BitVec.ofNat 32 v, BitVec.ofNat 32 (v / 2 ^ 32)]

/-- The re-padded values of the manifest by image offset: the words of NOMINAL and DEADLINE, and D′ (09 R250). -/
def State.repadded (s : State) (i : Image) : List (Nat × W32) :=
  let sig := s.imgSig i.base
  if sig = s.sigId then []
  else
    i.img.groups.flatMap (fun g => [(g.nomLoc, s.monWord (s.moved sig g).1), (g.dlLoc, s.monWord (s.moved sig g).2)]) ++
    i.img.balances.map (fun b => (b.loc, BitVec.ofNat 32 (s.balance sig b).toNat))

/-- The words of a section from an offset: the image's bytes, re-padded values in place of those the image gives. -/
def State.sectWords (s : State) (i : Image) (sect off room : Nat) : List W32 :=
  match s.sectOf i.base sect with
  | none => []
  | some x =>
    let re := if sect = 9 then s.repadded i else []
    (List.range (min room (ceilDiv (x.len - off) 4))).map (fun j =>
      let o := x.off + off + 4 * j
      match re.find? (fun (e : Nat × W32) => e.1 == o) with
      | some e => e.2
      | none => BitVec.ofNat 32 (s.rdLE (imgAddr i.base o) 4))

/-- LOAD_INFO. -/
def execLoadInfo (h : Hdr) (slot sect off : Nat) (s : State) : Host.Outcome State Fault Refusal :=
  s.done (s.serve h Op.loadInfo
    (fun s => orRej (firstRej [(decide (slot < 4 ∧ sect < 4), rej Status.valueRange 0 0), (off % 4 == 0, rej Status.valueRange 0 1)])
      (unlessOk (s.imageOf slot).isSome (rej Status.ctxState (slot + 16 * s.ctxState slot))))
    (fun s =>
      match s.imageOf slot with
      | none => { st := s }
      | some i =>
        let segs := i.img.segCount
        let parts := if s.namesParts i.base then bits (s.imgW i.base 0x20) 18 6 + 1 else 0
        let ps := points (s.patchEnts i.base)
        let head := lowHigh (s.imgUid i.base) ++ [BitVec.ofNat 32 (s.imgSig i.base), BitVec.ofNat 32 s.sigId, BitVec.ofNat 32 segs] ++
          (List.range segs).flatMap (fun n => lowHigh (SMap.get 0 i.bases n)) ++
          (BitVec.ofNat 32 parts :: (List.range parts).map (fun n => BitVec.ofNat 32 (SMap.get 0 i.parts n))) ++
          (BitVec.ofNat 32 ps.length :: ps.flatMap (fun p => BitVec.ofNat 32 p.pid :: lowHigh (s.patchValue i p).toNat))
        { st := s, out := head ++ (if sect = 0 then [] else s.sectWords i ([0, 6, 9, 0xB].getD sect 0) off (4092 - head.length)) }))

/-! Readout streams (13 R347, R352). -/

/-- Every segment that has a base. -/
def State.allSegs (s : State) : List (Nat × Nat) :=
  s.loader.images.flatMap (fun i => i.bases.map (s.segRange i.base i.img)) ++
  (match s.loader.staged with
   | some g => g.bases.map (s.segRange g.base g.img)
   | none => [])

/-- ACQ_STREAM: Table 13.8 except STR_RD. -/
def execAcqStream (h : Hdr) (st : Nat) (cfg : StrCfg) (s : State) : Host.Outcome State Fault Refusal :=
  s.done (s.serve h Op.acqStream
    (fun s => firstRej
      [ (decide (st < 16 ∧ cfg.dest < 3 ∧ cfg.group < 64 ∧ cfg.strStream < 256 ∧ cfg.size4k < 2 ^ 32) && cfg.base % 4096 == 0 &&
          cfg.shadow % 8 == 0, rej Status.valueRange)
      , (!cfg.en || cfg.dest == 2 || decide (1 ≤ cfg.size4k), rej Status.valueRange)
      , (!cfg.en || cfg.dest != 0 || strClear cfg s.allSegs, rej Status.valueRange)
      , (!cfg.en || cfg.dest != 2 || bit (s.rd (Reg.grpCfg cfg.group)) 31, rej Status.valueRange) ])
    (fun s =>
      let a := Reg.str st
      { st := s.wrs
          [ (a, BitVec.ofNat 32 ((if cfg.en then 2 ^ 31 else 0) + cfg.dest * 2 ^ 29 + cfg.group * 2 ^ 23 + cfg.strStream * 2 ^ 15))
          , (a + 4, BitVec.ofNat 32 cfg.base), (a + 8, BitVec.ofNat 32 (cfg.base / 2 ^ 32)), (a + 0xC, BitVec.ofNat 32 cfg.size4k)
          , (a + 0x10, BitVec.ofNat 32 cfg.shadow), (a + 0x14, BitVec.ofNat 32 (cfg.shadow / 2 ^ 32)), (a + 0x18, 0) ] }))

/-! Pass chains (06 R174). -/

/-- The slot that a pass of an image runs in. -/
def passSlot (img : Contents) (p k : Nat) : Nat := ((img.blobs.find? (fun b => b.pass == p)).map (fun b => b.ctx)).getD k

/-- Writes a pass into its slot, which shows that it holds it. -/
def State.loadPass (s : State) (i : Image) (p k : Nat) (ecc : Findings) : State :=
  let s := s.found (within ecc (imgAddr i.base 0) i.len) Req.reconf
  let j := passSlot i.img p k
  let s := (s.writePass (s.imgSig i.base) i.img p).putFields i.img s.placeAt' (fun _ q => q == p) (s.imgFields i.base i.bases i.parts i.patches)
  s.setCx j { s.cx j with cores := coresIn i.img j p, shadow := some p }

/-- Shadow loading: a pass is written into its slot while another runs, where that slot is another and free. -/
def State.shadowPass (s : State) (i : Image) (p k : Nat) (ecc : Findings) : State :=
  let j := passSlot i.img p k
  if j = k ∨ (s.cx j).shadow = some p ∨ ¬(s.ctxState j = Ctx.loaded ∨ s.ctxState j = Ctx.retired) ∨ s.loaderAsleep then s
  else s.loadPass i p k ecc

/-- PASS_SWITCH: what the reconfiguration engine does next for the pass in slot `k`. While it runs, the next pass is loaded into a free
slot; a running pass that has taken events and is idle takes no more from the next strobe on and retires by R167; once it has, the next
pass is loaded, if it is not, and starts at the next strobe. A load waits for a loader region in self-refresh (07 R190). -/
def State.passSwitch (s : State) (k : Nat) (ecc : Findings) : State :=
  match s.imageOf k with
  | none => s
  | some i =>
    let n := i.img.passes
    let p := s.passNow i.mask
    if n = 0 || s.ctxTimed k then s
    else if s.ctxState k = Ctx.running then
      let s := s.shadowPass i ((p + 1) % n) k ecc
      if 1 ≤ (s.cx k).passEvents ∧ s.surveyIdle k ∧ (s.cx k).drainAt = none then
        s.setCx k { s.cx k with drainAt := some s.nextStrobe, passEnd := true }
      else s
    else if s.ctxState k = Ctx.retired ∧ (s.cx k).passEnd then
      let q := (p + 1) % n
      let j := passSlot i.img q k
      if (s.cx j).shadow ≠ some q ∧ s.loaderAsleep then s
      else
        let s := s.setCx k { s.cx k with passEnd := false }
        let s := if (s.cx j).shadow = some q then s else s.loadPass i q k ecc
        s.setCx j { s.cx j with passStart := some (s.nextStrobe, q) }
    else s

def execPassSwitch (k : Nat) (s : State) (ecc : Findings := []) : Host.Outcome State Fault Refusal :=
  s.onUnit (decide (k < 4)) (if s.hubOn then s.passSwitch k ecc else s)

end Sys2Proof.Machine
end

