-- ==== Sys2Proof/Machine/Pattern.lean ====
section
/-! DEFINITION. The pattern banks (08): tables and their places, lookups of a route in its window, results, generations, cuckoo
placement, and the pattern-table commands. -/

namespace Sys2Proof.Machine

/-! Lookups (08 R220 to R227). -/

/-- The statistics of a table: 0 LOOKUPS, 1 HITS, 2 TRUNC, 3 RANGE. -/
def State.statBump (s : State) (n i by' : Nat) : State :=
  { s with banks.patStats := SMap.set 0 s.banks.patStats (4 * n + i) (satAdd 32 (SMap.get 0 s.banks.patStats (4 * n + i)) by') }

/-- The generation an event sees (08 R227). -/
def State.genOf (s : State) (n : Nat) (event : W32) : Nat :=
  if s.ptDbuf n && s.ptPend n && tickReached event (s.ptSwitch n) then 1 - s.ptActive n else s.ptActive n

/-- A key of a request with its VALID bit: KEY0 before KEY1, in flit order (08 R220). -/
def keysOf (flits : List (BitVec 256)) : List (Bool × Nat) :=
  flits.flatMap (fun (f : BitVec 256) => [(nbit f.toNat 192, bits f.toNat 0 96), (nbit f.toNat 193, bits f.toNat 96 96)])

/-- What became of a key: its status (0 miss, 1 hit, 2 not valid, 3 truncated, 4 out of range), its value, and whether an
uncorrectable entry poisons its result. -/
structure KeyRes where
  status : Nat
  value : W64
  poison : Bool
  deriving DecidableEq, Repr

/-- The engine on its way through the keys: state, slots left (sub-bank, cycle), results so far. -/
structure Looking where
  st : State
  slots : List (Nat × Nat)
  res : List KeyRes

/-- The earliest unused slot in a sub-bank. -/
def slotIn (slots : List (Nat × Nat)) (bank : Nat) : Option (Nat × Nat) :=
  (sortBy (fun (a b : Nat × Nat) => decide (a.2 ≤ b.2)) slots).find? (fun e => e.1 == bank)

/-- The slots of every access a key needs, or none where one finds none (08 R221). -/
def takeSlots (slots : List (Nat × Nat)) : List Nat → Option (List (Nat × Nat))
  | [] => some slots
  | b :: r =>
    match slotIn slots b with
    | some e => takeSlots (slots.erase e) r
    | none => none

/-- Reads the entries an access finds (07 R198, R199; 08 R215). -/
def State.readEntries (s : State) (as : List Nat) (ecc : Findings) (requester : Nat) : State :=
  as.foldl (fun t a => t.readEntry a requester ecc) s

/-- A truncated key: counted, and reported for the first of a window (08 R224). -/
def State.truncKey (s : State) (r n die : Nat) (event : W32) : State :=
  (((s.bump (Reg.pr r + 8)).statBump n 2 1).raise Code.patTruncated { die := die, unit := r } event 0)

/-- Serves one key of a request of route `r` on table `n` (08 R221, R225, R226). -/
def Looking.key (l : Looking) (r n gen die : Nat) (event : W32) (ecc : Findings) (e : Bool × Nat) : Looking :=
  let s := l.st
  let put := fun (t : State) (sl : List (Nat × Nat)) (x : KeyRes) => ({ st := t, slots := sl, res := l.res ++ [x] } : Looking)
  let indexed := s.ptMode n == 1
  let ix := e.2 % 2 ^ 23
  if !e.1 then put s l.slots ⟨2, 0, false⟩
  else if indexed && decide (s.ptEntries n ≤ ix) then
    put ((s.bump (Reg.pr r + 0xC)).statBump n 3 1) l.slots ⟨4, 0, false⟩
  else
    let needs := if indexed then [s.patBank n 0 ix] else [s.patBank n 0 (s.bucket n 0 e.2), s.patBank n 1 (s.bucket n 1 e.2)]
    match takeSlots l.slots needs with
    | none => put (s.truncKey r n die event) l.slots ⟨3, 0, false⟩
    | some rest =>
      let s := (s.wrapBy (Reg.pr r + 4) 1).statBump n 0 1
      if indexed then
        let a := s.indexAddr n gen ix
        let t := s.readEntries [a] ecc r
        put (t.statBump n 1 1) rest ⟨1, s.entValue a, t.isPoisonAt a⟩
      else
        let ways := s.waysOf n gen e.2
        let t := s.readEntries ways ecc r
        match ways.find? (fun a => !t.isPoisonAt a && t.entValid a && t.entKey a == e.2) with
        | some a => put (t.statBump n 1 1) rest ⟨1, t.entValue a, false⟩
        | none => put t rest ⟨0, 0, ways.any t.isPoisonAt⟩

/-- The result flits of a keyed or indexed route (08 Table 8.4), with their poison marks. -/
def pairFlits (trunc : Bool) : List KeyRes → List (BitVec 256 × Bool)
  | a :: b :: r =>
    (BitVec.ofNat 256 (a.value.toNat + b.value.toNat * 2 ^ 64 + a.status * 2 ^ 128 + b.status * 2 ^ 131 +
        (if trunc then 2 ^ 134 else 0)), a.poison || b.poison) :: pairFlits trunc r
  | _ => []

/-- The result flit of a match-count route (08 R223, Table 8.5). -/
def countFlit (maj : Nat) (res : List KeyRes) : BitVec 256 × Bool :=
  let hits := res.filter (fun x => x.status == 1)
  let served := res.filter (fun x => x.status == 0 || x.status == 1)
  let mask := natOf 64 (fun p => decide (maj ≤ (hits.filter (fun x => nbit x.value.toNat p)).length))
  (BitVec.ofNat 256 (mask + served.length * 2 ^ 128 + hits.length * 2 ^ 136 +
      (if res.any (fun x => x.status == 3) then 2 ^ 144 else 0)), res.any (·.poison))

/-- The lookup route that a core's route feeds (08 R219, log 5). -/
def State.lookupOf (s : State) (q : PatReq) : Option Nat :=
  (s.banks.patRoutes.find? (fun (e : Nat × Nat × Nat × Nat × Nat × Nat) =>
    e.2.1 == q.tile && e.2.2.1 == q.lcore && e.2.2.2.1 == q.ctx && e.2.2.2.2.1 == q.route)).map (·.2.2.2.2.2)

/-- The pattern die of the stop a request goes to. -/
def State.stopDie (s : State) (q : PatReq) : Nat :=
  Die.pattern ((fld (s.rd (Reg.route q.tile (s.phys q.tile q.lcore) q.ctx q.route)) 16 9 - 96) / 4)

/-- The cycles from a request's last flit to its first result flit: L_pat of Table 2.6, and two for each further PAT cycle of the window
(08 R222). -/
def State.patDelay (s : State) (win : Nat) : Nat := (((signature s.sigId).getD []).getD 13 0) + 2 * (win - 1)

/-- PAT_REQUEST (08 R220 to R227): the `i`-th request is complete, its last flit having left the quadrant router of its caller in FAB
cycle `cyc` of the tick, and its keys are served in its window; `ecc` says what the codes find in the entries (log 9). A poisoned
request poisons its results (07 R200). -/
def State.patRequest (s : State) (i : Nat) (ecc : Findings) (cyc : Nat) : State :=
  match s.banks.patReqs[i]? with
  | none => s
  | some q =>
    match s.lookupOf q with
    | none => s
    | some r =>
      let cfg := s.rd (Reg.pr r)
      let keys := fld cfg 19 6 + 1
      if !bit cfg 31 || decide (q.flits.length < ceilDiv keys 2) then s
      else
        let n := fld cfg 25 6
        let event := s.eventOf q.tag
        let s := { s with banks.patReqs := s.banks.patReqs.eraseIdx i }
        let slots := (s.banks.patSlots.filter (fun (e : Nat × PatSlot) => e.2.route == r && decide (e.2.cycle < fld cfg 7 8))).map
          (fun (e : Nat × PatSlot) => (e.2.bank, e.2.cycle))
        let all := keysOf (q.flits.take (ceilDiv keys 2))
        let all := all.mapIdx (fun j (e : Bool × Nat) => (e.1 && decide (j < keys), e.2))
        let l := all.foldl (fun (l : Looking) e => l.key r n (s.genOf n event) (s.stopDie q) event ecc e) ⟨s, slots, []⟩
        let out := if s.ptMode n = 2 then [countFlit (fld cfg 15 4 + 1) l.res]
                   else pairFlits (l.res.any (fun x => x.status == 3)) l.res
        let out := out.map (fun (e : BitVec 256 × Bool) => (e.1, e.2 || q.poison))
        let res : PatRes := { tile := q.tile, lcore := q.lcore, ctx := q.ctx, dq := q.dq, tag := q.tag, flits := out,
                              at' := s.tod.tickFab + cyc + s.patDelay (fld cfg 7 8) }
        { l.st with banks.patRes := l.st.banks.patRes ++ [res] }

def execPatRequest (i : Nat) (ecc : Findings) (cyc : Nat) (s : State) : Host.Outcome State Fault Refusal :=
  s.done (if s.hubOn then s.patRequest i ecc cyc else s)

/-- Writes the result flits into their queue in order; those that find no room wait. -/
def State.writeResults (s : State) (p : PatRes) : List (BitVec 256 × Bool) → State × List (BitVec 256 × Bool)
  | [] => (s, [])
  | f :: r =>
    let flit : Flit := { data := f.1, tag := p.tag, ctx := p.ctx, dq := p.dq, off := 0, len := 0, last := r.isEmpty, poison := f.2,
                         src := none }
    match s.arrive p.tile (s.phys p.tile p.lcore) flit false with
    | some t => t.writeResults p r
    | none => (s, f :: r)

/-- PAT_RESULT (08 R222): the `i`-th result is written into its queue from its cycle on, a flit a cycle. -/
def State.patResult (s : State) (i : Nat) : State :=
  match s.banks.patRes[i]? with
  | none => s
  | some p =>
    let s := s.atFab p.at'
    let w := s.writeResults p p.flits
    let t := w.1
    match w.2 with
    | [] => { t with banks.patRes := t.banks.patRes.eraseIdx i }
    | rest => { t with banks.patRes := t.banks.patRes.set i { p with flits := rest } }

def execPatResult (i : Nat) (s : State) : Host.Outcome State Fault Refusal := s.done (if s.hubOn then s.patResult i else s)

/-! Generations (08 R228). -/

/-- PAT_GEN_FLIP: at strobe S + 255 the generations change places. -/
def State.genFlip (s : State) (n : Nat) : State :=
  if s.hubOn && s.ptEn n && s.ptPend n && tickReached s.tickId (s.ptSwitch n + 255) then
    s.wr (Reg.pt n) (setBit (setFld (s.rd (Reg.pt n)) 27 1 (1 - s.ptActive n)) 26 false)
  else s

def execPatGenFlip (n : Nat) (s : State) : Host.Outcome State Fault Refusal := s.onUnit (decide (n < 64)) (s.genFlip n)

/-! Commands (08 R228 to R231). -/

/-- Whether a table takes no write: a switch is set, or its generations are being copied (08 R228; 15 R388). -/
def State.patBusy (s : State) (n : Nat) : Bool := s.ptPend n || s.host.async.any (fun a => a.opcode == Op.patSync && a.mask == n)

/-- The rejections of a command that writes a table of one of the modes. -/
def State.patRej (s : State) (n : Nat) (modes : List Nat) (ok : Bool) : Option Rej :=
  firstRej [ (s.ptEn n && modes.elem (s.ptMode n), rej Status.valueRange 0 0), (ok, rej Status.valueRange)
           , (!s.patBusy n, rej Status.patBusy n) ]

/-- The reply of a command that wrote: V, which the spec does not give; it lies after the current tick, so that every event from V on is
looked up after the writes (08 R230; log 13). -/
def State.withV (s : State) (more : List W32) : Effect :=
  let f := s.fresh
  { st := f.2, out := s.tickPlus (1 + f.1.toNat % 2 ^ 30) :: more }

/-- PAT_READ: entries of an indexed table from an index on; of a keyed table the entry that holds a key and those after it in its
sub-bank, or an empty entry where the key is absent (log 31). -/
def execPatRead (h : Hdr) (n : Nat) (gen : Bool) (key : BitVec 96) (count : Nat) (s : State) (ecc : Findings := []) : Host.Outcome State Fault Refusal :=
  let indexed := fun (s : State) => s.ptMode n == 1
  s.done (s.serve h Op.patRead
    (fun s => firstRej
      [ (s.ptEn n && (!gen || s.ptDbuf n), rej Status.valueRange 0 0)
      , (decide (1 ≤ count ∧ count ≤ 64), rej Status.valueRange)
      , (!indexed s || decide (key.toNat + count ≤ s.ptEntries n), rej Status.valueRange) ])
    (fun s =>
      let g := if gen then 1 else 0
      let as : List (Option Nat) := (List.range count).map (fun i =>
        if indexed s then some (s.indexAddr n g (key.toNat + i))
        else match s.findKey n g key.toNat with
          | some a => if (a + 32 * i) / 0x200000 = a / 0x200000 then some (a + 32 * i) else none
          | none => none)
      let s := s.readEntries (as.filterMap id) ecc Req.host
      { st := s, out := as.flatMap (fun a => match a with
          | some a => wordsLE 8 (s.patEntry a)
          | none => List.replicate 8 0) }))

/-- PAT_WRITE: values of an indexed table. -/
def execPatWrite (h : Hdr) (n first : Nat) (vals : List W64) (s : State) : Host.Outcome State Fault Refusal :=
  s.done (s.serve h Op.patWrite
    (fun s => s.patRej n [1] (decide (1 ≤ vals.length ∧ vals.length ≤ 128 ∧ first + vals.length ≤ s.ptEntries n)))
    (fun s =>
      let t := (List.range vals.length).foldl (fun t i =>
        t.patPut (t.indexAddr n (t.ptWritable n) (first + i)) 0 (vals.getD i 0).toNat false) s
      t.withV []))

/-- Places every pair of a batch; none: one finds no place. -/
def State.placeAll (s : State) (n gen : Nat) : List (BitVec 96 × W64) → Option State
  | [] => some s
  | e :: r =>
    match s.place n gen e.1.toNat e.2 with
    | some t => t.placeAll n gen r
    | none => none

/-- Whether a pair of a batch needs an eviction. -/
def State.batchKicks (s : State) (n gen : Nat) : List (BitVec 96 × W64) → Bool
  | [] => false
  | e :: r =>
    s.needsKick n gen e.1.toNat ||
    (match s.place n gen e.1.toNat e.2 with
     | some t => t.batchKicks n gen r
     | none => false)

/-- PAT_INSERT (08 R229, R230): all or nothing; in a table without generations no entry is moved. -/
def execPatInsert (h : Hdr) (n : Nat) (kvs : List (BitVec 96 × W64)) (s : State) : Host.Outcome State Fault Refusal :=
  s.done (s.serve h Op.patInsert
    (fun s => orRej (s.patRej n [0, 2] (decide (1 ≤ kvs.length ∧ kvs.length ≤ 64)))
      (firstRej [ (s.ptDbuf n || !s.batchKicks n 0 kvs, rej Status.patNeedsGen n)
                , ((s.placeAll n (s.ptWritable n) kvs).isSome, rej Status.patFull n) ]))
    (fun s => State.withV ((s.placeAll n (s.ptWritable n) kvs).getD s) []))

/-- PAT_DELETE: keys that are absent are counted. -/
def execPatDelete (h : Hdr) (n : Nat) (keys : List (BitVec 96)) (s : State) : Host.Outcome State Fault Refusal :=
  s.done (s.serve h Op.patDelete
    (fun s => s.patRej n [0, 2] (decide (1 ≤ keys.length ∧ keys.length ≤ 64)))
    (fun s =>
      let r := keys.foldl (fun (e : State × Nat) k =>
        match e.1.findKey n (s.ptWritable n) k.toNat with
        | some a => (e.1.patPut a 0 0 false, e.2)
        | none => (e.1, e.2 + 1)) (s, 0)
      r.1.withV [BitVec.ofNat 32 r.2]))

/-- PAT_GEN_SWITCH (08 R228). -/
def execPatGenSwitch (h : Hdr) (n : Nat) (d : W32) (s : State) : Host.Outcome State Fault Refusal :=
  s.done (s.serve h Op.patGenSwitch
    (fun s => firstRej [ (s.ptEn n && s.ptDbuf n, rej Status.valueRange 0 0), (!s.patBusy n, rej Status.patBusy n)
                       , (s.strobeOk d, rej Status.valueRange 0 1) ])
    (fun s =>
      let x := s.strobeOf d
      { st := (s.wr (Reg.pt n + 0x1C) x).wrF (Reg.pt n) 26 1 1, out := [x] }))

/-- PAT_SYNC. -/
def execPatSync (h : Hdr) (n : Nat) (s : State) : Host.Outcome State Fault Refusal :=
  s.done (s.serve h Op.patSync
    (fun s => firstRej [(s.ptEn n && s.ptDbuf n, rej Status.valueRange 0 0), (!s.patBusy n, rej Status.patBusy n)])
    (fun s => { st := s, mask := n }))

/-- Copies the active generation into the writable one. -/
def State.copyGen (s : State) (n : Nat) (ecc : Findings) : State :=
  ((s.tablePlaces n (s.ptActive n)).zip (s.tablePlaces n (1 - s.ptActive n))).foldl (fun t (e : Nat × Nat) =>
    let t := t.readEntry e.1 Req.host ecc
    (t.wrBytes e.2 (t.rdBytes e.1 32)).setPoison e.2 32 (t.isPoison e.1 32)) s

/-- PAT_SYNC_DONE: the copy ends; `ecc` says what the codes found in the entries it read (07 R198). -/
def State.syncDone (s : State) (n : Nat) (ecc : Findings) : State :=
  let mine := fun (a : Async) => a.opcode == Op.patSync && a.mask == n
  if s.hubOn && s.host.async.any mine then (s.copyGen n ecc).complete mine Status.ok [] else s

def execPatSyncDone (n : Nat) (s : State) (ecc : Findings := []) : Host.Outcome State Fault Refusal :=
  s.onUnit (decide (n < 64)) (s.syncDone n ecc)

/-- PAT_STATS: LOOKUPS, HITS, TRUNC, RANGE of a table since they were last cleared. -/
def execPatStats (h : Hdr) (n : Nat) (clear : Bool) (s : State) : Host.Outcome State Fault Refusal :=
  s.done (s.serve h Op.patStats
    (fun s => firstRej [(s.ptEn n, rej Status.valueRange 0 0)])
    (fun s =>
      let t := if clear then
          { s with banks.patStats := (List.range 4).foldl (fun m i => SMap.set 0 m (4 * n + i) 0) s.banks.patStats } else s
      { st := t, out := (List.range 4).map (fun i => BitVec.ofNat 32 (SMap.get 0 s.banks.patStats (4 * n + i))) }))

end Sys2Proof.Machine
end

