-- ==== Sys2Proof/Machine/Power.lean ====
section
/-! DEFINITION. Feeds, shedding and the adaptive loops (17): the feed samples, faults and switch-over, the stages S1 to S5 as they come
into force and are restored, AVS, and the commands of the power manager. Samples come every 20 ns, so 50,000 make a millisecond. -/

namespace Sys2Proof.Machine

/-! Feeds (17 R429 to R432). Feed 0 is FEED_A, feed 1 FEED_B. -/

def samplesPerMs : Nat := 50000

def State.activeFeed (s : State) : Nat := s.rdF Reg.pwrStat 31 1
def State.feedVolt (s : State) (f : Nat) : Nat := s.rdF Reg.feedV (if f = 0 then 16 else 0) 16
def State.feedFault (s : State) (f : Nat) : Bool := bit (s.rd Reg.pwrStat) (28 - f)
def State.feedOk (s : State) (f : Nat) : Bool := bit (s.rd Reg.pwrStat) (30 - f)
def State.setPwrBit (s : State) (i : Nat) (b : Bool) : State := s.wr Reg.pwrStat (setBit (s.rd Reg.pwrStat) i b)

/-- Whether the other feed can take over (17 R431). -/
def State.canSwitch (s : State) : Bool :=
  if s.activeFeed = 0 then s.feedOk 1 && bit (s.rd Reg.pwrCfg) 31 else s.feedOk 0

/-- Whether the active feed qualifies for a switch-over: in fault, or below 42.0 V in more than 50 consecutive samples. -/
def State.sagging (s : State) : Bool := decide (50 < SMap.get 0 s.pwr.feedLow s.activeFeed)

/-- A feed's fault condition in a sample (17 R430), over-current for more than 10 µs. -/
def State.faultNow (s : State) (f : Nat) (bad : Bool) : Bool :=
  decide (6300 < s.feedVolt f) || decide (500 < SMap.get 0 s.pwr.feedOver f) || bad

/-- One feed in a sample. -/
def State.sampleFeed (s : State) (f amps : Nat) (bad : Bool) : State :=
  let run := fun (m : SMap Nat) (p : Bool) => SMap.set 0 m f (if p then SMap.get 0 m f + 1 else 0)
  let s := { s with pwr.feedLow := run s.pwr.feedLow (decide (s.feedVolt f < 4200)),
                    pwr.feedOver := run s.pwr.feedOver (decide (2700 < amps)) }
  let s :=
    if s.faultNow f bad then
      let s := { s with pwr.badAt := SMap.set 0 s.pwr.badAt f s.pwr.samples }
      if s.feedFault f then s else (s.setPwrBit (28 - f) true).raisePwr Code.feedFault f 0 false
    else s
  s.setPwrBit (30 - f) (!s.feedFault f && decide (4200 ≤ s.feedVolt f))

/-- FEED_LOST: once per sag, and once per fault, of an active feed that cannot be replaced (17 R431). -/
def State.judgeLost (s : State) : State :=
  let f := s.activeFeed
  let sag := s.sagging
  let bad := s.feedFault f
  let tell := !s.canSwitch && ((sag && !s.pwr.lostSag) || (bad && !s.pwr.lostFault))
  let s := { s with pwr.lostSag := sag && (s.pwr.lostSag || !s.canSwitch), pwr.lostFault := bad && (s.pwr.lostFault || !s.canSwitch) }
  if tell then s.raisePwr Code.feedLost f 0 false else s

/-- The shedding runs of a sample: samples below each threshold, and the sample since which each restore condition holds. -/
def State.sampleStages (s : State) : State :=
  let v := s.rdF Reg.busV 0 16
  { s with
    pwr.lowRun := (List.range 7).foldl (fun m st =>
      if st = 0 then m else SMap.set 0 m st (if v < shedBelow st then SMap.get 0 m st + 1 else 0)) s.pwr.lowRun,
    pwr.okFrom := (List.range 6).foldl (fun m st =>
      if st = 0 then m
      else if s.restorable st then (if SMap.get 0 m st = 0 then SMap.set 0 m st s.pwr.samples else m)
      else SMap.set 0 m st 0) s.pwr.okFrom }

/-- In Boot, without an available feed PGOOD is low; once one is available the power-up restarts at step 2 (19 R462). -/
def State.bootFeeds (s : State) : State :=
  if s.dev.state ≠ .boot then s
  else if !(s.feedOk 0 || s.feedOk 1) then { s with pwr.pgood := false }
  else if s.pwr.pgood then s
  else { s.setPwrBit 31 (!s.feedOk 0) with pwr.pgood := true, warden.bootStep := 3, warden.firstFailed := false, warden.romOnly := false }

/-- FEED_SAMPLE (17 R429): voltages in 10 mV, currents in 10 mA, whether each switch reports a failure or reversed polarity, and the
hottest junction in 0.1 °C with its die. -/
def State.feedSample (s : State) (aV bV busV aI bI : Nat) (aBad bBad : Bool) (temp : Int) (die : Nat) : State :=
  let s := s.wrs
    [ (Reg.feedV, BitVec.ofNat 32 (aV % 65536 * 65536 + bV % 65536)), (Reg.busV, BitVec.ofNat 32 (busV % 65536))
    , (Reg.feedI, BitVec.ofNat 32 (aI % 65536 * 65536 + bI % 65536))
    , (Reg.tempMax, BitVec.ofNat 32 (die % 256 * 65536 + ofSigned 16 temp)) ]
  let s := { s with pwr.samples := s.pwr.samples + 1 }
  let s := (s.sampleFeed 0 aI aBad).sampleFeed 1 bI bBad
  let s := { s with pwr.goodFrom := if aV < 4400 then 0 else if s.pwr.goodFrom = 0 then s.pwr.samples else s.pwr.goodFrom }
  s.sampleStages.judgeLost.bootFeeds

/-- Whether the power manager runs: the Warden rail is up (17 R438). -/
def State.powered (s : State) : Bool := s.dev.state != .off

def execFeedSample (aV bV busV aI bI : Nat) (aBad bBad : Bool) (temp : Int) (die : Nat) (s : State) :
    Host.Outcome State Fault Refusal :=
  s.done (if s.powered then s.feedSample aV bV busV aI bI aBad bBad temp die else s)

/-- FEED_FAULT_CLEAR (17 R430): faults whose condition has been absent for 100 ms. -/
def State.clearFeedFaults (s : State) : State :=
  [0, 1].foldl (fun t f =>
    if t.feedFault f && decide (SMap.get 0 t.pwr.badAt f + 100 * samplesPerMs ≤ t.pwr.samples) then
      (t.setPwrBit (28 - f) false).setPwrBit (30 - f) (decide (4200 ≤ t.feedVolt f))
    else t) s

def execFeedFaultClear (s : State) : Host.Outcome State Fault Refusal := s.done (if s.powered then s.clearFeedFaults else s)

/-- Switches the active feed. -/
def State.toFeed (s : State) (f code : Nat) : State :=
  let s := { (s.setPwrBit 31 (f == 1)).wrapBy Reg.switchovers 1 with pwr.lostSag := false, pwr.lostFault := false }
  s.raisePwr code f 0 false

/-- FEED_SWITCH (17 R431). -/
def execFeedSwitch (s : State) : Host.Outcome State Fault Refusal :=
  s.done (if s.powered && (s.feedFault s.activeFeed || s.sagging) && s.canSwitch then s.toFeed (1 - s.activeFeed) Code.feedSwitch else s)

/-- FEED_RETURN (17 R432). -/
def execFeedReturn (s : State) : Host.Outcome State Fault Refusal :=
  s.done (if s.powered && s.activeFeed == 1 && !s.feedFault 0 && s.pwr.goodFrom != 0 &&
      decide (s.pwr.goodFrom + s.rdF Reg.pwrCfg 16 15 * samplesPerMs ≤ s.pwr.samples + 1) then s.toFeed 0 Code.feedReturn else s)

/-! Shedding (17 R434 to R440). -/

/-- The voltage stage: the highest whose run below its threshold is longer than 50 samples. -/
def State.voltStage (s : State) : Nat := (List.range 7).foldl (fun m st => if 50 < SMap.get 0 s.pwr.lowRun st then max m st else m) 0

/-- The thermal stage by temperature; 0 while no sensor has reported. -/
def State.thermStage (s : State) : Nat :=
  if s.rdF Reg.tempMax 16 8 = 0xFF then 0
  else (List.range 7).foldl (fun m st => if st ≠ 0 ∧ shedHot st ≤ s.tempMax then max m st else m) 0

/-- The HBM stacks without an ESSENTIAL segment of a committed image (17 R436). -/
def State.idleStacks (s : State) : Nat :=
  natOf 8 (fun h => !s.loader.images.any (fun i => (List.range i.img.segCount).any (fun n =>
    (s.segAt i.base i.img n).essential && i.bases.any (fun (e : Nat × Nat) => e.1 == n && stackOf e.2 == h))))

/-- What stage S1 sheds beside what its holders ask (17 Table 17.1): scans, calibrations and self-tests in progress end with
SHED_ACTIVE, PRBS and injection stop. -/
def State.shedOne (s : State) (st : Nat) : State :=
  let s := s.complete (fun a => a.opcode == Op.laneEye || a.opcode == Op.clickCal || a.opcode == Op.selftest) Status.shedActive
    [(rej Status.shedActive st).detail]
  let s := (List.range 144).foldl (fun t n =>
    let w := t.rd (Reg.prbsCfg n)
    let t := if fld w 30 2 = 0 then t else (t.chkReset n).wr (Reg.prbsCfg n) (setFld w 30 2 0)
    t.stopInj n) s
  { s with link.scans := [], fe.calBusy := 0 }

/-- A stage comes into force (17 R434): reported with its cause and counted; S4 and S5 act at the next strobe. -/
def State.enterStage (s : State) (st : Nat) (thermal : Bool) : State :=
  let s := (s.wrF Reg.pwrStat 24 3 st).wrapBy Reg.shedEntries 1
  let s := { (s.raisePwr Code.shedEnter st st thermal) with pwr.dwellFrom := s.pwr.samples, pwr.alertN := false }
  match st with
  | 1 => s.shedOne st
  | 2 => { s with pwr.asleep := Nat.lor s.pwr.asleep s.idleStacks }
  | 3 => s.shedLanes s.keptS3
  | 4 => { s.setPwrBit 17 true with pwr.strongAt := some s.nextStrobe }
  | 5 => { s.setPwrBit 17 true with pwr.strongAt := some s.nextStrobe }
  | _ => s

/-- SHED_ENTER: the stages that are due come into force, each in turn, up to `stage`; a stage S4 or S5 during the rewrite of R440 ends
the RESUME with SHED_ACTIVE. -/
def State.shedEnter (s : State) (stage : Nat) : State :=
  let v := min stage s.voltStage
  let th := min stage s.thermStage
  let old := s.shedStage
  let s := (s.wrF Reg.pwrStat 21 3 (max v (s.rdF Reg.pwrStat 21 3))).wrF Reg.pwrStat 18 3 (max th (s.rdF Reg.pwrStat 18 3))
  let new := (List.range 7).filter (fun st => decide (old < st ∧ st ≤ max v th))
  let s := new.foldl (fun t st => t.enterStage st (decide (v < st))) s
  if s.pwr.rewriting && decide (4 ≤ s.shedStage) && !new.isEmpty then
    let s := s.complete (fun a => a.opcode == Op.resume && a.mask == 1) Status.shedActive [(rej Status.shedActive s.shedStage).detail]
    { s with pwr.rewriting := s.pwr.rewriting && decide (s.shedStage < 5) }
  else s

def execShedEnter (stage : Nat) (s : State) : Host.Outcome State Fault Refusal :=
  s.onUnit (decide (1 ≤ stage ∧ stage ≤ 6)) (if s.powered && s.dev.state != .safe then s.shedEnter stage else s)

/-- Lanes that a restore returns to service train again (17 R435, R439). -/
def State.wakeLanes (s : State) (p : Nat → Bool) : State :=
  let ns := s.pwr.offLanes.filter p
  let s := ns.foldl (fun t n =>
    if t.laneMode n = 1 ∨ t.laneMode n = 2 then t.train n 1
    else if t.laneMode n = 0 then t
    else (t.rxOn n).txOn n) s
  { s with pwr.offLanes := s.pwr.offLanes.filter (fun n => !p n) }

/-- SHED_RESTORE of a stage S1 to S3 (17 R439), after RESTORE_MS from the later of its conditions and one dwell after the stage before. -/
def State.shedRestore (s : State) (st : Nat) (ecc : Findings) : State :=
  let from' := max (SMap.get 0 s.pwr.okFrom st) (s.pwr.dwellFrom + 1)
  if s.shedStage ≠ st ∨ 3 < st ∨ s.pwr.rewriting ∨ SMap.get 0 s.pwr.okFrom st = 0 ∨
     s.pwr.samples + 1 < from' + s.rdF Reg.pwrCfg 0 16 * samplesPerMs then s
  else
    let s := s.raisePwr Code.shedRestore st st (decide (st ≤ s.rdF Reg.pwrStat 18 3))
    let w := s.rd Reg.pwrStat
    let w := setFld (setFld (setFld w 24 3 (st - 1)) 21 3 (min (st - 1) (fld w 21 3))) 18 3 (min (st - 1) (fld w 18 3))
    let s := { (s.wr Reg.pwrStat w) with pwr.dwellFrom := s.pwr.samples }
    match st with
    | 3 => s.wakeLanes (fun _ => true)
    | 2 => { s with pwr.asleep := 0 }.serveWaits ecc
    | _ => { s with pwr.alertN := true }

def execShedRestore (stage : Nat) (s : State) (ecc : Findings := []) : Host.Outcome State Fault Refusal :=
  s.onUnit (decide (1 ≤ stage ∧ stage ≤ 6)) (if s.powered && s.dev.state != .safe then s.shedRestore stage ecc else s)

/-- Rewrites every tile from the committed images, patch values included (17 R440); a Survey context that runs starts from its
image. -/
def State.rewriteTiles (s : State) : State :=
  let cores := ((List.range 4).flatMap (fun k => (s.cx k).cores)).eraseDups
  cores.foldl (fun t (e : Nat × Nat) => t.writeCore e.1 e.2 (t.phys e.1 e.2) false true) s

/-- RESUME_REWRITE_DONE: tile array, Store, pattern banks and stacks are back in service as stage S3 leaves them; RESUME completes
unless a stage came into force again. -/
def State.rewriteDone (s : State) (ecc : Findings) : State :=
  let s := s.found (ecc.filter (fun e => inLoader e.1)) Req.loader
  let s := { s.rewriteTiles with pwr.rewriting := false, pwr.asleep := if 2 ≤ s.shedStage then s.idleStacks else 0 }.serveWaits
    (ecc.filter (fun e => !inLoader e.1))
  let s := s.wakeLanes (fun n => s.keptS3 n || decide (s.shedStage < 3))
  if bit (s.rd Reg.pwrStat) 17 then s
  else (s.host.async.filter (fun a => a.opcode == Op.resume && a.mask == 1)).foldl (fun t a =>
    t.complete (fun b => b == a) Status.ok [a.tick]) s

def execResumeRewriteDone (s : State) (ecc : Findings := []) : Host.Outcome State Fault Refusal :=
  s.done (if s.hubOn && s.pwr.rewriting then s.rewriteDone ecc else s)

/-- COOLANT_RANGE (17 R441): an inlet temperature in 0.1 °C outside 15 to 40 °C for more than 1 s. -/
def execCoolantRange (temp : Int) (s : State) : Host.Outcome State Fault Refusal :=
  s.done (if s.powered && (decide (temp < 150) || decide (400 < temp)) then s.raisePwr Code.coolantRange 0 s.shedStage false else s)

/-! Adaptive loops (17 R442, R443). -/

/-- AVS_STEP: one step of 5 mV up or down within −40 to +50 mV; the upper limit with margin still short raises AVS_LIMIT. -/
def State.avsStep (s : State) (t : Nat) (up : Bool) : State :=
  let w := s.rd (Reg.avsCfg t)
  let o := toSigned 8 (fld w 0 8)
  if bit w 31 then s
  else if up then
    if o < 10 then (s.wrF (Reg.avsCfg t) 0 8 (ofSigned 8 (o + 1))).wrapBy (Reg.avsSteps t) 1
    else s.raiseNow Code.avsLimit { die := t } 0
  else if -8 < o then (s.wrF (Reg.avsCfg t) 0 8 (ofSigned 8 (o - 1))).wrapBy (Reg.avsSteps t) 1
  else s

def execAvsStep (tile : Nat) (raise : Bool) (s : State) : Host.Outcome State Fault Refusal :=
  s.onUnit (decide (tile < 16)) (if s.hubOn then s.avsStep tile raise else s)

/-! Commands (17 R446; 15 Table 15.9a). -/

/-- PWR_STATUS. -/
def execPwrStatus (h : Hdr) (s : State) : Host.Outcome State Fault Refusal :=
  s.done (s.serve h Op.pwrStatus noCheck
    (fun s => { st := s, out := (List.range 11).map (fun i => s.rd (Reg.pwrStat + 4 * i)) ++
                               (List.range 16).flatMap (fun t => [s.rd (Reg.avsCfg t), s.rd (Reg.avsSteps t)]) }))

/-- FEED_CONFIG. -/
def execFeedConfig (h : Hdr) (bEn : Bool) (returnMs restoreMs : Nat) (keep : W64) (s : State) : Host.Outcome State Fault Refusal :=
  s.done (s.serve h Op.feedConfig
    (fun _ => firstRej [(decide (10 ≤ returnMs ∧ returnMs ≤ 10000 ∧ 1 ≤ restoreMs ∧ restoreMs ≤ 60000), rej Status.valueRange 0 0)])
    (fun s =>
      let cfg : W32 := BitVec.ofNat 32 ((if bEn then 2 ^ 31 else 0) + returnMs * 2 ^ 16 + restoreMs)
      { st := s.wrs [(Reg.pwrCfg, cfg), (Reg.keep 0, keep.extractLsb' 0 32), (Reg.keep 1, keep.extractLsb' 32 32)] }))

/-- Whether a Timed context that is not Empty is loaded on a tile (17 R443). -/
def State.timedTile (s : State) (t : Nat) : Bool :=
  anyCtx (fun k => s.ctxTimed k && s.ctxState k != Ctx.empty && (s.cx k).cores.any (fun (e : Nat × Nat) => e.1 == t))

/-- LOOP_CONFIG. -/
def execLoopConfig (h : Hdr) (mask : Nat) (freeze droopEn : Bool) (guardMv : Nat) (s : State) : Host.Outcome State Fault Refusal :=
  s.done (s.serve h Op.loopConfig
    (fun s => firstRej
      [ (decide (0 < mask ∧ mask < 2 ^ 16), rej Status.valueRange 0 0)
      , (decide (20 ≤ guardMv ∧ guardMv ≤ 60) && (droopEn || !(bitsOf mask 16).any s.timedTile), rej Status.valueRange 0 1) ])
    (fun s => { st := (bitsOf mask 16).foldl (fun t i =>
      t.wr (Reg.avsCfg i) (setFld (setBit (setBit (t.rd (Reg.avsCfg i)) 31 freeze) 30 droopEn) 24 6 guardMv)) s }))

end Sys2Proof.Machine
end

