-- ==== Sys2Proof/Machine/Twin.lean ====
section
/-! DEFINITION. Twin pairing and the Umpire (16): the twin link, attestation and admission, digests and their comparison, release and
takeover, and the alignment of a relay standby. What the parts say to each other in control frames has no layout in the spec; only the
digest row has (log 34). -/

namespace Sys2Proof.Machine

def State.twinEn (s : State) : Bool := bit (s.rd Reg.twinCfg) 31
def State.isStandby (s : State) : Bool := bit (s.rd Reg.twinCfg) 30
def State.twinFlag (s : State) (i : Nat) : Bool := bit (s.rd Reg.twinStat) i
def State.setTwinFlag (s : State) (i : Nat) (b : Bool) : State := s.wr Reg.twinStat (setBit (s.rd Reg.twinStat) i b)
/-- ACTIVE: this part holds ACTIVE_N low. -/
def State.twinActive (s : State) : Bool := s.twinFlag 28
def State.twinFaulted (s : State) : Bool := s.twinFlag 27

/-- Whether a state holds HANDOVER_OUT low (16 R423): Paired, Link Lost and Solo. -/
def holdsPins (st : Nat) : Bool := [4, 5, 6].elem st

/-- The level of HANDOVER_OUT: high but in Paired, Link Lost and Solo outside a release pulse (16 R423). -/
def State.handoverOut (s : State) : Bool :=
  !s.hubOn || !holdsPins s.twinState || decide (s.tod.fab < s.twin.pulseEnd)

/-- The level of ACTIVE_N. -/
def State.activeN (s : State) : Bool := !s.twinActive

/-- A twin code; DETAIL layout W: own EVIDENCE, partner EVIDENCE, tick of the mismatch. -/
def State.raiseTwin (s : State) (code : Nat) (tick : W32) (own partner : Nat) (k : W32) : State :=
  s.raise code { die := Die.hub } tick (detailW own partner k)

/-- Enters Paired (16 R426): the primary is active unless the partner already is as a twin. -/
def State.enterPaired (s : State) : State :=
  let act := if s.isStandby then s.twin.placed && s.twinActive else !s.twin.partnerActive
  { ((s.setTwinState 4).setTwinFlag 28 act).setTwinFlag 25 false with
    twin.missing := 0, twin.exchange := false, twin.placed := true }

/-! Commands (16 R410, R414, R425). -/

/-- The lanes of the twin group: 136 to 142 data, 143 parity, in fixed-latency mode at rate 3, DECL_SKEW 4, EXPECT_EN set for the lane
of the same number. -/
def State.twinLanes (s : State) : State :=
  let ns := (List.range 8).map (136 + ·)
  let s := ns.foldl (fun t n =>
    let t := t.setMode n 3 2
    t.wr (Reg.laneCfg n) (setFld (setBit (t.rd (Reg.laneCfg n)) 24 true) 16 8 n)) s
  s.laneGroup 63 { en := true, parity := true, lanes := ns, declSkew := 4, fcEn := false, acceptEn := false, tickDiv := 0 }

/-- TWIN_CONFIG. -/
def execTwinConfig (h : Hdr) (role relay tie : Bool) (s : State) : Host.Outcome State Fault Refusal :=
  s.done (s.serve h Op.twinConfig
    (fun s => firstRej
      [ ((List.range 8).all (fun i => s.twinEn || ((s.laneGrp (136 + i)).isNone && s.laneMode (136 + i) != 3)), rej Status.valueRange 0 0)
      , (s.twinEn || !(s.outboundGrp 63 || s.inboundGrp 63 ||
          (List.range 64).any (fun d => bit (s.rd (Reg.meshRoute d)) 31 && s.rdF (Reg.meshRoute d) 0 6 == 63)), rej Status.valueRange 0 0)
      , (decide (40 ≤ s.cTick), rej Status.valueRange 0 0)
      , (!relay || !bit (s.rd Reg.tickCfg) 31, rej Status.valueRange 0 0) ])
    (fun s =>
      let w : W32 := BitVec.ofNat 32 (2 ^ 31 + (if role then 2 ^ 30 else 0) + (if relay then 2 ^ 29 else 0) + (if tie then 2 ^ 28 else 0))
      let s := (s.wr Reg.twinCfg w).setTwinState 1
      let s := if relay && role then s.wr Reg.busCfg (setBit (s.rd Reg.busCfg) 31 false) else s
      { st := { s.twinLanes with twin.placed := false, twin.exchange := false, twin.retry := false, twin.partnerActive := false } }))

/-- Settles an ADMIT_PARTNER that was accepted: the fingerprint must be that of the partner attested in Unknown Partner. -/
def State.settleAdmit (s : State) (fp : BitVec 384) : State :=
  let mine := fun (a : Async) => a.opcode == Op.admitPartner
  if s.host.async.any mine then
    if s.twinState = 3 ∧ s.twin.partner.map (·.1) = some fp then
      let s := { s with twin.record := some fp }.enterPaired
      (s.logPut 0 3 Die.warden s.tickId 0).complete mine Status.ok []
    else s.complete mine Status.partnerUnknown [(rej Status.partnerUnknown).detail]
  else s

def execAdmitPartner (h : Hdr) (fp : BitVec 384) (s : State) : Host.Outcome State Fault Refusal :=
  s.done ((s.serve h Op.admitPartner noCheck (fun s => { st := s })).settleAdmit fp)

/-- The bytes of a 384-bit value in the order of the digest (16 R412), as words. -/
def fpWords (v : BitVec 384) : List W32 :=
  wordsOf ((List.range 48).map (fun i => v.extractLsb' (8 * (47 - i)) 8))

/-- TWIN_STATUS. -/
def execTwinStatus (h : Hdr) (clear : Bool) (s : State) : Host.Outcome State Fault Refusal :=
  s.done (s.serve h Op.twinStatus noCheck
    (fun s =>
      let s := if clear then s.setTwinFlag 27 false else s
      let (f, w, u) := s.twin.partner.getD (0, 0, 0)
      let part := fpWords f ++ fpWords w ++ fpWords u
      { st := s, out := (List.range 10).map (fun i => s.rd (Reg.twinCfg + 4 * i)) ++ part }))

/-- TWIN_HANDOVER. The H named is passed to the partner over the link; the active part releases at it. -/
def execTwinHandover (h : Hdr) (hAt : W32) (s : State) : Host.Outcome State Fault Refusal :=
  s.done (s.serve h Op.twinHandover
    (fun s => firstRej
      [ (s.twinState == 4 && !(if s.twinActive then s.twinFlag 26 else s.twinFaulted), rej Status.twinRequired)
      , (s.strobeOk hAt, rej Status.valueRange 0 0) ])
    (fun s =>
      let x := s.strobeOf hAt
      let s := if s.twinActive then { s with twin.releaseAt := some x } else { s with twin.passed := s.twin.passed ++ [x] }
      { st := s, out := [x], tick := x }))

/-- TWIN_DISABLE. -/
def execTwinDisable (h : Hdr) (s : State) : Host.Outcome State Fault Refusal :=
  s.done (s.serve h Op.twinDisable noCheck
    (fun s =>
      let s := if s.twinEn then s.laneGroup 63 { en := false, parity := false, lanes := [], declSkew := 0, fcEn := false, acceptEn := false,
                                                 tickDiv := 0 } else s
      let s := (List.range 8).foldl (fun t i => t.setMode (136 + i) 0 0) s
      let s := ((s.wr Reg.twinCfg 0).setTwinState 0).setTwinFlag 28 true
      { st := { s with twin.placed := false, twin.exchange := false, twin.retry := false, twin.releaseAt := none } }))

/-! Attestation (16 R413, Table 16.1). -/

/-- The exchange starts: a nonce is sent. -/
def State.startExchange (s : State) : State := { s with twin.exchange := true, twin.nonces := s.twin.nonces + 1 }

/-- The nonce of the exchange in progress. -/
def State.ownNonce (s : State) : BitVec 384 := Config.nonce s.twin.nonces

/-- Enters Attesting; a relay standby first brings its tick into relation (16 R416). -/
def State.enterAttesting (s : State) : State :=
  let s := { s.setTwinState 2 with twin.retry := false, twin.exchange := false }
  if s.relayStandby then s else s.startExchange

/-- TWIN_ATTESTATION. -/
def execTwinAttestation (s : State) : Host.Outcome State Fault Refusal :=
  s.done (if s.hubOn && s.twinEn && s.grpReady 63 && [1, 5, 6].elem s.twinState && !s.twin.retry then s.enterAttesting else s)

/-- ATTEST_RETRY: one second after a failure. -/
def execAttestRetry (s : State) : Host.Outcome State Fault Refusal :=
  s.done (if s.hubOn && s.twinEn && s.twin.retry then
    (if s.grpReady 63 then s.enterAttesting else { s with twin.retry := false }) else s)

/-- A failed exchange. -/
def State.attestFails (s : State) : State :=
  let s := { s.setTwinState 1 with twin.retry := true, twin.exchange := false }
  s.raiseTwin Code.twinAttestFail s.tickId 0 0 0

/-- ATTEST_ANSWER. The partner's measurements go to TWIN_STATUS and, with the outcome, to the event log; they do not enter it. -/
def State.attestAnswer (s : State) (a : AttAnswer) : State :=
  if !a.valid then s.attestFails
  else
    let ws := fpWords a.fp
    let s := (List.range 12).foldl (fun t i => t.wr (Reg.twinPfp i) (ws.getD i 0)) s
    let s := { s with twin.partner := some (a.fp, a.wardenMeas, a.hubMeas), twin.partnerActive := a.active, twin.exchange := false }
    let log := (a.wardenMeas.extractLsb' 280 104).toNat + (a.hubMeas.extractLsb' 280 104).toNat * 2 ^ 104
    let s : State := s.logPut 0 3 Die.warden s.tickId log
    if s.twin.record == some a.fp then s.enterPaired
    else (s.setTwinState 3).raiseTwin Code.twinPartnerUnknown s.tickId 0 0 0

def execAttestAnswer (a : AttAnswer) (s : State) : Host.Outcome State Fault Refusal :=
  s.done (if s.hubOn && s.twinState == 2 && s.twin.exchange then s.attestAnswer a else s)

/-- ATTEST_TIMEOUT: a step took longer than 100 ms. -/
def execAttestTimeout (s : State) : Host.Outcome State Fault Refusal :=
  s.done (if s.hubOn && s.twinState == 2 && s.twin.exchange then s.attestFails else s)

/-- FAST_TICK (11 R302; 16 R416): a TICK block whose strobe fell `age` FAB cycles ago. A relay standby's strobe n falls 2 C_tick after
the primary's; it re-phases only while no Timed context is Armed, Running or Draining. Elsewhere a TICK block asks nothing. -/
def State.fastTick (s : State) (g age : Nat) : State :=
  match s.takeFast g 0 with
  | none => s
  | some (w, s) =>
    if g ≠ 63 ∨ !s.relayStandby ∨ s.twinState ≠ 2 then s
    else
      let c := max 1 s.cTick
      let at0 := s.tod.fab + 2 * c - age
      let i := (at0 - s.tod.fab - 1) / c
      let next := at0 - i * c
      let id : W32 := BitVec.ofNat 32 (wbits w 32 32) - BitVec.ofNat 32 i
      let related := decide (s.tick.nextAt = next) && s.tick.pendingId.getD (s.tickId + 1) == id
      let go := fun (t : State) => if t.twin.exchange then t else t.startExchange
      if related then go s
      else if s.timedActive then s.raiseTwin Code.twinTickSkew s.tickId 0 0 0
      else go { s with tick.nextAt := next, tick.pendingId := some id }

def execFastTick (g age : Nat) (s : State) : Host.Outcome State Fault Refusal :=
  s.onUnit (grpOk g && decide (age ≤ 2 * max 1 s.cTick)) (if s.hubOn then s.fastTick g age else s)

/-! The digest (16 R417, R418, R420). -/

/-- The flag word of an output item. -/
def outFlags (e : Emitted) : Nat :=
  (if e.fallback || e.gap then 1 else 0) + (if e.gap then 2 else 0) + (if e.poison then 4 else 0)

/-- The bytes that DIGEST_k folds: outputs by slot and number, tap flits in tap order, trigger records. -/
def State.digestBytes (s : State) (k : W32) : List W8 :=
  let outs := (List.range 4).flatMap (fun c => if !s.ctxTimed c then [] else (List.range 64).flatMap (fun o =>
    (s.clk.emitted.filter (fun e => e.k == c && e.o == o && e.tick == k)).flatMap (fun e =>
      bytesLE 8 e.value.toNat ++ bytesLE 4 e.event.toNat ++ bytesLE 2 (o * 256 + c) ++ bytesLE 2 (outFlags e))))
  let taps := (List.range 64).flatMap (fun i =>
    (s.twin.tapped.filter (fun (e : W32 × Nat × BitVec 256 × W32 × Bool) => e.1 == k && e.2.1 == i)).flatMap
      (fun (e : W32 × Nat × BitVec 256 × W32 × Bool) => bytesLE 32 e.2.2.1.toNat ++ bytesLE 4 e.2.2.2.1.toNat))
  let recs := (s.fe.records.filter (fun (e : W32 × TrigRec) => e.1 == k)).flatMap (fun (e : W32 × TrigRec) => bytesLE 32 e.2.bits.toNat)
  outs ++ taps ++ recs

/-- The EVIDENCE bit of a code (16 Table 16.4); code 0 stands for Halted. -/
def evidenceBit (code : Nat) : Option Nat :=
  if code = 0 then some 0
  else if code = Code.residueMismatch then some 1
  else if [Code.coreUncorr, Code.storeUncorr, Code.patternUncorr].elem code then some 2
  else if code = Code.poisonConsumed then some 3
  else if [Code.deadlineLate, Code.deadlineMissing, Code.droopCap].elem code then some 4
  else if [Code.slotCollision, Code.slotMissed].elem code then some 5
  else if [Code.tagSkew, Code.ctxTagMismatch, Code.staleFlit].elem code then some 6
  else if [Code.frameCrc, Code.frameTick, Code.frameAbsent, Code.frameLate].elem code then some 7
  else none

/-- T_MAX: the largest T_LAST of the Timed contexts. -/
def State.tMax (s : State) : Nat :=
  (List.range 4).foldl (fun m k => if s.ctxTimed k && s.ctxState k != Ctx.empty then max m (s.ctxTLast k) else m) 0

/-- EVIDENCE for tick k: the faults of events from k − T_MAX to k, and Halted during k. -/
def State.evidenceOf (s : State) (k : W32) : Nat :=
  natOf 8 (fun b => s.evidence.any (fun (e : Nat × W32) => evidenceBit e.1 == some b &&
    (if b = 0 then e.2 == k else tickReached k e.2 && decide (tickDiff k e.2 ≤ s.tMax))))

/-- Poisoned tap flits are consumed by the digest (07 R201); a flit in the mesh has no address: a free value (log 36). -/
def State.consumeTaps (s : State) (k : W32) : State :=
  (s.twin.tapped.filter (fun (e : W32 × Nat × BitVec 256 × W32 × Bool) => e.1 == k && e.2.2.2.2)).foldl
    (fun t (e : W32 × Nat × BitVec 256 × W32 × Bool) =>
      match t.twin.taps[e.2.1]? with
      | some (tile, lc, c, _) =>
        t.raise Code.poisonConsumed { die := tile, unit := t.phys tile lc, ctx := c } e.2.2.2.1
          (detailA (Config.regAddr (2 ^ 20 + e.2.1)).toNat none 0)
      | none => t) s

/-- DIGEST_SEND: the digest of the tick that has just ended. -/
def State.digestSend (s : State) : State :=
  let k := s.tickId - 1
  if s.twin.own.any (fun o => o.tick == k) then s
  else
    let s := s.consumeTaps k
    let d := crc64 (s.digestBytes k) 0
    let ev := s.evidenceOf k
    let flags := (if s.twinActive then 1 else 0) + (if s.twinFaulted then 2 else 0) +
      (if bit (s.rd Reg.twinCfg) 29 then 4 else 0) + (if s.isStandby then 8 else 0)
    let row := bytesLE 8 d ++ bytesLE 2 ev ++ bytesLE 2 s.cTick ++ bytesLE 1 s.twinState ++ bytesLE 1 flags ++ List.replicate 42 0
    let own := (s.twin.own ++ [(⟨k, BitVec.ofNat 64 d, BitVec.ofNat 16 ev, s.twinActive⟩ : OwnDigest)]).filter (fun (o : OwnDigest) => decide (tickDiff k o.tick < 16))
    { s with twin.own := own }.sendFrame ⟨63, BitVec.ofNat 64 (k.toNat * 2 ^ 32 + 255 * 2 ^ 24 + 0xE2), row⟩

def execDigestSend (s : State) : Host.Outcome State Fault Refusal :=
  s.done (if s.hubOn && s.twinState == 4 then s.digestSend else s)

/-- The window of R411 in which a digest frame of tick k may arrive, in the receiver's ticks after k. -/
def State.digestWindow (s : State) : Int × Int :=
  if s.relayStandby then (-1, 3) else if s.relayPrimary then (3, 5) else (1, 3)

/-- Completes a TWIN_HANDOVER with the tick of the takeover. -/
def State.handoverDone (s : State) (tick : W32) : State :=
  s.complete (fun a => a.opcode == Op.twinHandover) Status.ok [tick]

/-- DIGEST_RECEIVE: a frame outside its window, or of another C_tick, is discarded with TWIN_TICK_SKEW. -/
def State.digestReceive (s : State) : State :=
  match s.popFrame 63 0xE2 with
  | none => s
  | some p =>
    let s := p.st
    let k : W32 := BitVec.ofNat 32 (wbits p.hdr 32 32)
    if wbits p.hdr 24 8 ≠ 255 ∨ !p.ok then s
    else
      let d : DigestFrame :=
        { tick := k, digest := BitVec.ofNat 64 (bytesAt p.bytes 0 8), evidence := BitVec.ofNat 16 (bytesAt p.bytes 8 2),
          cTick := bytesAt p.bytes 10 2, tstate := bytesAt p.bytes 12 1, active := nbit (bytesAt p.bytes 13 1) 0,
          faulted := nbit (bytesAt p.bytes 13 1) 1 }
      let m := tickDiff s.tickId k
      if d.cTick ≠ s.cTick ∨ m < s.digestWindow.1 ∨ s.digestWindow.2 < m then
        s.raiseTwin Code.twinTickSkew k 0 d.evidence.toNat k
      else
        let s := if d.active && !s.twin.partnerActive && !s.twinActive && s.twin.passed.isEmpty then s.handoverDone k else s
        let rcvd := (s.twin.rcvd ++ [d]).filter (fun x => decide (tickDiff k x.tick < 16))
        { (s.setTwinFlag 26 d.faulted).setTwinFlag 25 false with twin.rcvd := rcvd, twin.partnerActive := d.active }

def execDigestReceive (s : State) : Host.Outcome State Fault Refusal :=
  s.done (if s.hubOn && s.twinState == 4 then s.digestReceive else s)

/-- Whether this side counts as the active one (16 R421): where both rows or neither say active, the primary does. -/
def State.countsActive (s : State) (o : OwnDigest) (d : DigestFrame) : Bool :=
  if o.active = d.active then !s.isStandby else o.active

/-- Whether this side is the faulty one when the digests differ (16 R421), from what the two rows carry. -/
def State.faultySide (s : State) (o : OwnDigest) (d : DigestFrame) : Bool :=
  if o.evidence ≠ 0 ∧ d.evidence = 0 then true
  else if o.evidence = 0 ∧ d.evidence ≠ 0 then false
  else
    if bit (s.rd Reg.twinCfg) 28 then s.countsActive o d else !s.countsActive o d

/-- A mismatch of tick k. -/
def State.mismatch (s : State) (o : OwnDigest) (d : DigestFrame) : State :=
  let s := { (s.bump Reg.twinMismatches).wr Reg.twinLastTick o.tick with twin.mismatch := some o.tick }
  let s := s.raiseTwin Code.twinMismatch o.tick o.evidence.toNat d.evidence.toNat o.tick
  if !s.faultySide o d || s.twinFaulted then s
  else
    let s := s.setTwinFlag 27 true
    if !s.countsActive o d then s
    else if s.twinFlag 26 then s.raiseTwin Code.twinBothFaulted o.tick o.evidence.toNat d.evidence.toNat o.tick
    else { s with twin.releaseAt := some s.nextStrobe }

/-- DIGEST_COMPARE: at the comparison strobe of tick k (16 R419, R421, R422). -/
def State.digestCompare (s : State) : State :=
  let k := s.tickId - (if s.relayPrimary then 6 else 4)
  match s.twin.own.find? (fun o => o.tick == k) with
  | none => s
  | some o =>
    let s := { s with twin.own := s.twin.own.filter (fun x => x.tick != k) }
    match s.twin.rcvd.find? (fun d => d.tick == k) with
    | none =>
      let s := (s.bump Reg.twinSilent).raiseTwin Code.twinSilent k o.evidence.toNat 0 k
      if 1 ≤ s.twin.missing then s.twinLost else { s with twin.missing := s.twin.missing + 1 }
    | some d =>
      let s := { s with twin.missing := 0, twin.rcvd := s.twin.rcvd.filter (fun x => x.tick != k) }
      let s := (s.wrF Reg.twinStat 0 16 o.evidence.toNat).wrs
        [ (Reg.twinDigest 0, o.digest.extractLsb' 0 32), (Reg.twinDigest 1, o.digest.extractLsb' 32 32)
        , (Reg.twinPdigest 0, d.digest.extractLsb' 0 32), (Reg.twinPdigest 1, d.digest.extractLsb' 32 32) ]
      if o.digest = d.digest then s else s.mismatch o d

def execDigestCompare (s : State) : Host.Outcome State Fault Refusal :=
  s.done (if s.hubOn && s.twinState == 4 then s.digestCompare else s)

/-! Handover (16 R423, R424). -/

/-- TWIN_RELEASE: 2 SAMPLE cycles after strobe H both pins go high, HANDOVER_OUT for one tick. A handover whose part is no longer active
is superseded. -/
def State.twinRelease (s : State) : State :=
  if s.due s.twin.releaseAt then
    let s := { s.atCycle 4 with twin.releaseAt := none }
    if s.twinActive then
      { s.setTwinFlag 28 false with twin.pulseEnd := s.tod.tickFab + 4 + s.cTick }
    else s.complete (fun a => a.opcode == Op.twinHandover && s.due (some a.tick)) Status.superseded [(rej Status.superseded).detail]
  else s

def execTwinRelease (s : State) : Host.Outcome State Fault Refusal := s.done (if s.hubOn then s.twinRelease else s)

/-- TWIN_TAKEOVER: HANDOVER_IN has been high for 4 SAMPLE cycles; a clean standby becomes active 4 SAMPLE cycles later. -/
def State.takeover (s : State) : State :=
  let s := s.setTwinFlag 25 true
  if s.twinActive then s
  else if s.twinFaulted then s.raiseTwin Code.twinBothFaulted s.tickId (s.rdF Reg.twinStat 0 16) 0 (s.twin.mismatch.getD 0)
  else if holdsPins s.twinState then
    let s := (s.setTwinFlag 28 true).wrapBy Reg.twinTakeovers 1
    let s := { s with twin.placed := true, twin.partnerActive := false, twin.passed := [] }
    let s := s.raiseTwin Code.twinTakeover s.tickId (s.rdF Reg.twinStat 0 16) 0 (s.twin.mismatch.getD 0)
    s.handoverDone s.tickId
  else s

def execTwinTakeover (s : State) : Host.Outcome State Fault Refusal := s.done (if s.hubOn && s.twinEn then s.takeover else s)

/-- PARTNER_ABSENT: HANDOVER_IN stays high for a whole tick beyond the release pulse. -/
def execPartnerAbsent (s : State) : Host.Outcome State Fault Refusal :=
  s.done (if s.hubOn && s.twinFlag 25 && (s.twinState == 4 || s.twinState == 5) then s.setTwinState 6 else s)

end Sys2Proof.Machine
end

