-- ==== Sys2Proof/Machine/Reset.lean ====
section
/-! DEFINITION. Power-up, reset and bring-up (19), stage S6, loss of lock and loss of power (17 R438, R444), and the levels of the pins
(20 R478, R479). A reset carries the device to Boot, whose steps are rows of their own. -/

namespace Sys2Proof.Machine

/-! Pins (20 R478, R479). -/

/-- The level of DECISION j: SAFE of DEC_CFG in Safe, else the active level while an enabled pin drives, the inactive level otherwise (12
R331). -/
def State.decisionLevel (s : State) (j : Nat) : Bool :=
  let w := s.rd (Reg.dec j)
  if s.dev.state = .safe then bit w 29 else if s.hubOn then (bit w 31 && s.pinActive j) != bit w 30 else false

/-- Whether REFOUT is driven: REF valid and the rails up. -/
def State.refOut (s : State) : Bool :=
  decide (2 ≤ s.warden.refGood) && s.pwr.pgood && s.dev.state != .off && s.dev.state != .safe

/-! What a reset clears (19 R466, Table 19.3). -/

/-- The fuses and non-volatile fields of SEC_STAT: DEBUG_LOCK, OWNER_SLOTS and SVN_MIN. -/
def nvSec (w : W32) : W32 :=
  BitVec.ofNat 32 (fld w 31 1 * 2 ^ 31 + fld w 24 4 * 2 ^ 24 + fld w 16 6 * 2 ^ 16)

/-- Whether a reset keeps a register: fused row maps and the log's SEQ always, the Warden registers under a device reset. -/
def keptReg (module : Bool) (fused : List (Nat × Nat)) (a : Nat) : Bool :=
  a == Reg.logSeq ||
  (!module && (decide (Reg.pwrStat ≤ a ∧ a < Reg.pwrStat + 0x200) || a == Reg.secStat || a == Reg.sigFails)) ||
  fused.any (fun (e : Nat × Nat) => decide (e.1 < 16 ∧ e.2 < 32) && (a == Reg.rowMap e.1 e.2 || (List.range 17).any (fun p => a == Reg.coreId e.1 (17 * e.2 + p))))

/-- The state that a module or device reset leaves in Boot: everything outside the Warden is as its Reset columns, memories zero and
without poison; what went out on the ports stands. -/
def State.clear (s : State) (module : Bool) : State :=
  { State.reset with
    pending := s.pending, free := s.free, log := s.log, owners := s.owners
    regs := s.regs.filter (fun (e : Nat × W32) => keptReg module s.subst.fused e.1)
    dev := { state := .boot, concentrator := false, partId := 0, stepB0 := s.dev.stepB0 }
    host := { HostIf.init with
      replies := s.host.replies, spiReplies := s.host.spiReplies,
      faultRing := s.host.faultRing, msi := s.host.msi, portOut := s.host.portOut, windowOut := s.host.windowOut }
    tick := TickSt.init, subst := SubstSt.init s.subst.fused, twin := TwinSt.init s.twin.record
    pwr := if module then PwrSt.init else { s.pwr with offLanes := [] }
    warden := s.warden }

/-- Step 1 and the choice of Table 19.1: FEED_A when it is available, otherwise FEED_B; PGOOD once one is. -/
def State.chooseFeed (s : State) (aOk bOk : Bool) : State :=
  let s := ((s.setPwrBit 31 (!aOk && bOk)).setPwrBit 30 aOk).setPwrBit 29 bOk
  { s with pwr.pgood := aOk || bOk }

/-- A module reset (19 R465): Table 19.1 reruns from step 2 with the Warden rail up. -/
def State.moduleReset (s : State) (source : Nat) : State :=
  let t := (s.clear true).wr Reg.secStat (nvSec (s.rd Reg.secStat))
  { t.chooseFeed (s.feedOk 0) (s.feedOk 1) with
    warden.bootStep := 3, warden.firstFailed := false, warden.romOnly := false, warden.refGood := 0, warden.source := source,
    warden.update := none }

/-- A device reset (19 R465): steps 6 and 7 run again; before them the Warden goes on with its own boot. -/
def State.deviceReset (s : State) (source : Nat) : State :=
  let again := s.hubOn || s.warden.bootStep == 7
  { s.clear false with warden.bootStep := if again then 6 else s.warden.bootStep, warden.source := source }

/-- The Window A registers that a host-interface reset clears: rings, interrupts, WINB_BASE and CMD_SEQ. -/
def hostReg (a : Nat) : Bool :=
  decide (Reg.wa + 0x10 ≤ a ∧ a < Reg.wa + 0x68) || a == Reg.irqStatus || a == Reg.irqEn || a == Reg.winbBase

/-- A host-interface reset (19 R466, R467): completions due to PCIe commands are held, readout to PCIe holds. -/
def State.hostReset (s : State) : State :=
  { s with regs := s.regs.filter (fun (e : Nat × W32) => !hostReg e.1), host.inReset := true, host.gapCount := 0 }

/-- A reset by KIND of SYS_RESET: 0 module, 1 device, 2 host interface. -/
def State.resetKind (s : State) (kind : Nat) : State :=
  match kind with
  | 0 => s.moduleReset 2
  | 1 => s.deviceReset 3
  | _ => s.hostReset

/-- SYS_RESET (19 R465): the reply precedes the reset. -/
def execSysReset (h : Hdr) (kind : Nat) (s : State) : Host.Outcome State Fault Refusal :=
  s.done (s.serve h Op.sysReset
    (fun s => firstRej [(decide (kind ≤ 2), rej Status.valueRange 0 0), (s.dev.state != .safe || kind == 0, rej Status.stateIllegal)])
    (fun s => { st := s, after := fun t => t.resetKind kind }))

/-- POWER_ON (19 R462): a feed becomes available after the module was Off. Voltages in mV. -/
def execPowerOn (aMv bMv : Nat) (s : State) : Host.Outcome State Fault Refusal :=
  let ok := fun (v : Nat) => decide (42000 ≤ v ∧ v ≤ 63000)
  s.done (if s.dev.state = .off && (ok aMv || ok bMv) then (s.moduleReset 0).chooseFeed (ok aMv) (ok bMv) else s)

/-- RESET_N (19 R465): a low pin is a module reset; the sequence stops after step 2 while it stays low. -/
def execResetN (s : State) : Host.Outcome State Fault Refusal :=
  s.done { (if s.powered then s.moduleReset 1 else s) with warden.resetLow := true }

/-- RESET_N_HIGH (19 R462). -/
def execResetNHigh (s : State) : Host.Outcome State Fault Refusal := s.done { s with warden.resetLow := false }

/-- PERST_N (19 R465). -/
def execPerstN (s : State) : Host.Outcome State Fault Refusal := s.done (if s.powered then s.hostReset else s)

/-- HUB_WATCHDOG (19 Table 19.2; 21 Table 21.2: log only). -/
def execHubWatchdog (s : State) : Host.Outcome State Fault Refusal :=
  s.done (if s.hubOn then (s.logPut Code.hubWatchdog 0 Die.warden s.tickId 0).deviceReset 4 else s)

/-- LOSS_OF_POWER (17 R438): below 20 V the Warden rail stops and the module is Off. -/
def State.powerLost (s : State) : State :=
  let t := (s.clear true).wr Reg.secStat (nvSec (s.rd Reg.secStat))
  { t with dev.state := .off, pwr.pgood := false, warden.bootStep := 9, warden.firstFailed := false, warden.romOnly := false,
           warden.refGood := 0, warden.update := none, host.spiReplies := [] }

def execLossOfPower (s : State) : Host.Outcome State Fault Refusal := s.done (if s.powered then s.powerLost else s)

/-! Safe (15 R401; 17 R438). -/

/-- Entry to Safe: pins at their Safe levels (20 R479), the Hub and the tick generator stop, outstanding commands are dropped, and the
Warden takes the SPI port. -/
def State.enterSafe (s : State) : State :=
  let s := s.wr Reg.twinStat (setBit (s.rd Reg.twinStat) 28 false)
  { s with
    dev.state := .safe, fe.drives := [], fe.decUntil := [], bus.due := [], tick.running := false, tick.outPulses := []
    pwr.alertN := false, pwr.pgood := false, host.async := [], host.seqSpi := 0, host.waits := []
    host.fetched := s.host.fetched.filter (fun f => f.transport == .spi), warden.bootStep := 9 }

/-- The log's DETAIL at S6: layout P and, above it, the voltage and the thermal stage (17 R438). -/
def State.detailS6 (s : State) (thermal : Bool) : Nat :=
  s.detailP 6 thermal + s.rdF Reg.pwrStat 21 3 * 2 ^ 96 + s.rdF Reg.pwrStat 18 3 * 2 ^ 99

/-- Stage S6 in force: the steps of R438. -/
def State.orderlyOff (s : State) (thermal : Bool) : State :=
  (s.raiseNow Code.shedS6 { die := Die.warden, unit := 6 } (s.detailS6 thermal)).enterSafe

/-- SHED_S6 (17 R438). -/
def State.shedSix (s : State) : State :=
  let s := s.shedEnter 6
  if s.shedStage = 6 then s.orderlyOff (decide (s.rdF Reg.pwrStat 21 3 < 6)) else s

def execShedS6 (s : State) : Host.Outcome State Fault Refusal :=
  s.done (if s.powered && s.dev.state != .safe then s.shedSix else s)

/-- The loss of a ×REF PLL after Boot (17 R444): stage S6, which has neither a voltage nor a thermal cause. -/
def State.clockUnlock (s : State) : State :=
  let s := s.raiseNow Code.clockUnlock { die := Die.hub } (s.detailP (s.shedStage) false)
  ((s.wrF Reg.pwrStat 24 3 6).wrapBy Reg.shedEntries 1).orderlyOff false

def execClockUnlock (s : State) : Host.Outcome State Fault Refusal := s.done (if s.hubOn then s.clockUnlock else s)

/-! Bring-up (19 Table 19.1). -/

/-- The copy that comes next of a kind (0 Warden, 1 Hub): the higher GENERATION first (18 R450); a copy without a commit record has
none. -/
def State.copyFirst (s : State) (k : Nat) : Nat :=
  let g := fun (i : Nat) => match (s.warden.copies.getD (2 * k + i) ⟨none, 0, 0, 0⟩).gen with | some n => n + 1 | none => 0
  if g 0 < g 1 then 1 else 0

def State.fwCopy (s : State) (k c : Nat) : FwCopy := s.warden.copies.getD (2 * k + c) ⟨none, 0, 0, 0⟩

def State.svnMin (s : State) : Nat := s.rdF Reg.secStat 16 6

/-- Whether a copy is accepted: `ok` says that its header, key and signature are good (18 R450, step 2). -/
def State.copyGood (s : State) (k c : Nat) (ok : Bool) : Bool :=
  ok && (s.fwCopy k c).gen.isSome && decide (s.svnMin ≤ (s.fwCopy k c).svn)

/-- A copy starts: SEC_STAT names it; booting from the other copy after a failure is reported (18 R450). -/
def State.startCopy (s : State) (k c : Nat) : State :=
  let s := s.wr Reg.secStat (setBit (s.rd Reg.secStat) (23 - k) (c == 1))
  let s := if s.warden.firstFailed then s.raiseNow Code.fwFallback { die := Die.warden } (detailY (k + 1) c 0) else s
  { s with warden.firstFailed := false }

/-- The boot entry of a kind (18 R459). -/
def State.bootLog (s : State) (k c : Nat) : State :=
  let f := s.fwCopy k c
  s.logPut 0 4 Die.warden 0 (bootDetail (k + 1) c (f.gen.getD 0) f.svn s.warden.source)

/-- Verification of a copy ends: `start` when it is accepted, `failed` when both have failed. -/
def State.fwVerify (s : State) (k c : Nat) (ok : Bool) (start failed : State → State) : State :=
  let turn := if s.warden.firstFailed then 1 - s.copyFirst k else s.copyFirst k
  if s.dev.state ≠ .boot ∨ s.warden.bootStep ≠ 3 + k ∨ s.warden.resetLow ∨ !s.pwr.pgood ∨ c ≠ turn then s
  else if s.copyGood k c ok then start (s.startCopy k c)
  else
    let t := s.raiseNow Code.fwVerifyFail { die := Die.warden } (detailY (k + 1) c 0)
    if s.warden.firstFailed then failed { t with warden.firstFailed := false } else { t with warden.firstFailed := true }

/-- WARDEN_FW_VERIFY (18 R450, R451). -/
def execWardenFwVerify (copy : Nat) (ok : Bool) (s : State) : Host.Outcome State Fault Refusal :=
  s.onUnit (decide (copy < 2)) (s.fwVerify 0 copy ok
    (fun t => { t.bootLog 0 copy with warden.bootStep := 4 })
    (fun t => { t with warden.romOnly := true, warden.bootStep := 9 }))

/-- HUB_FW_VERIFY (18 R450, R451; 15 R401). -/
def execHubFwVerify (copy : Nat) (ok : Bool) (s : State) : Host.Outcome State Fault Refusal :=
  s.onUnit (decide (copy < 2)) (s.fwVerify 1 copy ok (fun t => { t with warden.bootStep := if t.warden.refGood < 2 then 5 else 6 })
    State.enterSafe)

/-- REF_MEASURE (19 R463): REF is valid after two good windows in a row; losing it after Boot is a PLL unlock, and in Boot the Warden
waits for it again. -/
def State.refMeasure (s : State) (khz : Nat) : State :=
  if 150000 ≤ khz ∧ khz ≤ 162500 then
    let n := min 2 (s.warden.refGood + 1)
    { s with warden.refGood := n,
             warden.bootStep := if s.dev.state = .boot ∧ s.warden.bootStep = 5 ∧ n = 2 then 6 else s.warden.bootStep }
  else
    let s := { s with warden.refGood := 0 }
    if s.hubOn then s.clockUnlock
    else if s.dev.state = .boot ∧ (s.warden.bootStep = 6 ∨ s.warden.bootStep = 7) then { s with warden.bootStep := 5 }
    else s

def execRefMeasure (khz : Nat) (s : State) : Host.Outcome State Fault Refusal := s.done (if s.powered then s.refMeasure khz else s)

/-- PLL_LOCK (01 R21; 18 R459): the Warden releases the Hub. -/
def execPllLock (s : State) : Host.Outcome State Fault Refusal :=
  s.done (if s.dev.state = .boot && s.warden.bootStep == 6 && s.pwr.pgood && !s.warden.resetLow then
    { s.bootLog 1 (s.rdF Reg.secStat 22 1) with warden.bootStep := 7 } else s)

/-- Entry to Idle (19 R464, R469; 16 R426): the default tick from TICK_ID 0, ACTIVE where no pairing record is held, the PLLs locked,
and the SPI port with the Hub. -/
def State.enterIdle (s : State) : State :=
  let s := s.wr Reg.timeStat (setBit (s.rd Reg.timeStat) 29 true)
  let s := s.wr Reg.twinStat (setBit (s.rd Reg.twinStat) 28 s.twin.record.isNone)
  { s with
    dev.state := .idle, tick := { TickSt.init with running := true, nextAt := s.tod.fab + 1, pendingId := some 0 }
    host.seqSpi := 0, warden.bootStep := 9 }

/-- HUB_INIT_DONE (19 Table 19.1, step 7; 12 R324): `cals` is what the calibration of the 64 Click units found, unit by unit. -/
def execHubInitDone (cals : List CalResult) (s : State) : Host.Outcome State Fault Refusal :=
  s.onUnit (cals.map (·.unit) == List.range 64)
    (if s.dev.state = .boot && s.warden.bootStep == 7 && s.pwr.pgood && !s.warden.resetLow then (s.calResults cals).enterIdle else s)

end Sys2Proof.Machine
end

