-- ==== Sys2Proof/Machine/Warden.lean ====
section
/-! DEFINITION. The Warden's services (18): owner keys, the DEBUG_LOCK fuse, firmware update, attestation, the event log, sensors and
SMBus, and the JTAG port. Actions without a code of their own are logged under KIND 3 with CODE 0 (log 25). -/

namespace Sys2Proof.Machine

/-- Logs a security action: its opcode, and what it names (18 R459). -/
def State.logAction (s : State) (op what : Nat) : State := s.logPut 0 3 Die.warden s.tickId (detailY op what 0)

/-! Owner keys (18 R454). -/

def State.ownerMask (s : State) : Nat := natOf 4 (fun i => ((s.owners.getD i ⟨none, 0⟩).key).isSome)

/-- Sets or empties a slot; its replay counter stays. -/
def State.setOwner (s : State) (slot : Nat) (key : Option (BitVec 768)) : State :=
  let s := { s with owners := s.owners.mapIdx (fun i (o : OwnerSlot) => if i = slot then { o with key := key } else o) }
  (s.wrF Reg.secStat 24 4 s.ownerMask).raiseNow Code.ownerKeyChanged { die := Die.warden } (detailY slot 0 0)

/-- OWNER_KEY: installation needs an empty slot; the last provisioned slot is not revoked. -/
def execOwnerKey (h : Hdr) (slot : Nat) (revoke : Bool) (key : BitVec 768) (s : State) : Host.Outcome State Fault Refusal :=
  s.done (s.serveKey h Op.ownerKey (if revoke then none else some slot)
    (fun s =>
      let held := nbit s.ownerMask slot
      firstRej [ (decide (slot < 4) && held == revoke, rej Status.valueRange 0 0)
               , (!revoke || s.ownerMask != 2 ^ slot, rej Status.valueRange 0 0) ])
    (fun s => { st := s.setOwner slot (if revoke then none else some key) }))

/-! The DEBUG_LOCK fuse (18 R456). -/

def State.debugLocked (s : State) : Bool := bit (s.rd Reg.secStat) 31

/-- FUSE_BLOW. -/
def execFuseBlow (h : Hdr) (fuse : Nat) (s : State) : Host.Outcome State Fault Refusal :=
  s.done (s.serve h Op.fuseBlow (fun _ => firstRej [(fuse == 1, rej Status.valueRange 0 0)])
    (fun s => { st := s, mask := fuse }))

/-- Whether an instruction of the TAP stays after DEBUG_LOCK: BYPASS, IDCODE, SAMPLE/PRELOAD, EXTEST, numbered 0 to 3 (log 25). -/
def jtagOpenTo (ir : Nat) : Bool := decide (ir < 4)

/-- FUSE_BLOW_DONE: the fuse is read back. -/
def State.fuseRead (s : State) (ok : Bool) : State :=
  let mine := fun (a : Async) => a.opcode == Op.fuseBlow
  if !s.host.async.any mine then s
  else if s.debugLocked then s.complete mine Status.ok []
  else if ok then
    let s := s.wr Reg.secStat (setBit (s.rd Reg.secStat) 31 true)
    let s := { s with warden.jtagOpen := false, warden.jtagIr := if s.warden.jtagOpen then 1 else s.warden.jtagIr }
    (s.raiseNow Code.debugLockSet { die := Die.warden } (detailY 1 0 0)).complete mine Status.ok []
  else (s.raiseNow Code.fuseFail { die := Die.warden } (detailY 1 0 0)).complete mine Status.valueRange [(rej Status.valueRange 0 0).detail]

def execFuseBlowDone (ok : Bool) (s : State) : Host.Outcome State Fault Refusal := s.done (s.fuseRead ok)

/-- JTAG_INSTRUCTION (18 R456). -/
def execJtagInstruction (ir : Nat) (s : State) : Host.Outcome State Fault Refusal :=
  s.done (if s.powered then
    { s with warden.jtagOpen := true, warden.jtagIr := if s.debugLocked && !jtagOpenTo ir then 0 else ir } else s)

/-! Firmware update (18 R452, R453). -/

/-- The copy of a kind (1 Warden, 2 Hub) that is not running. -/
def State.otherCopy (s : State) (kind : Nat) : Nat := 1 - s.rdF Reg.secStat (24 - kind) 1

def State.setCopy (s : State) (kind c : Nat) (f : FwCopy) : State :=
  { s with warden.copies := s.warden.copies.set (2 * (kind - 1) + c) f }

/-- While a FW_UPDATE_COMMIT runs, the update it verifies is not to be touched (15 R388). -/
def State.fwBusy (s : State) : Bool := s.host.async.any (fun a => a.opcode == Op.fwUpdateCommit)

/-- FW_UPDATE_BEGIN: an update that is open is discarded; the copy that is not running is erased. -/
def execFwUpdateBegin (h : Hdr) (kind len : Nat) (s : State) : Host.Outcome State Fault Refusal :=
  s.done (s.serve h Op.fwUpdateBegin
    (fun s => firstRej
      [ (decide (kind = 1 ∨ kind = 2), rej Status.valueRange 0 0)
      , (decide (448 ≤ len ∧ len ≤ 0x010000C0 ∧ len % 32 = 0), rej Status.valueRange 0 1)
      , (!s.fwBusy, rej Status.resourceBusy) ])
    (fun s =>
      let c := s.otherCopy kind
      let s := (s.setCopy kind c { gen := none, svn := 0, version := 0, meas := 0 }).logAction Op.fwUpdateBegin c
      { st := { s with warden.update := some { kind := kind, copy := c, len := len, got := [], bytes := [] } }, out := [BitVec.ofNat 32 c] }))

/-- FW_UPDATE_CHUNK, under the rules of R241. -/
def execFwUpdateChunk (h : Hdr) (off : Nat) (bytes : List W8) (s : State) : Host.Outcome State Fault Refusal :=
  s.done (s.serve h Op.fwUpdateChunk
    (fun s => orRej
      (firstRej [ (off % 32 == 0, rej Status.valueRange 0 0), (decide (32 ≤ bytes.length ∧ bytes.length ≤ 16352), rej Status.valueRange 0 1)
                , (!s.fwBusy, rej Status.resourceBusy) ])
      (match s.warden.update with
       | some u => unlessOk (decide (off + bytes.length ≤ u.len) &&
           !u.got.any (fun (e : Nat × Nat) => decide (e.1 < off + bytes.length ∧ off < e.2))) (lrej Status.loadSequence 0 0 0)
       | none => some (lrej Status.loadSequence 0 0 0)))
    (fun s =>
      match s.warden.update with
      | some u => { st := { s with warden.update := some { u with
          got := u.got ++ [(off, off + bytes.length)],
          bytes := u.bytes ++ bytes.mapIdx (fun i b => (off + i, b)) } } }
      | none => { st := s }))

/-- FW_UPDATE_COMMIT. -/
def execFwUpdateCommit (h : Hdr) (kind : Nat) (raise : Bool) (s : State) : Host.Outcome State Fault Refusal :=
  s.done (s.serve h Op.fwUpdateCommit
    (fun s => firstRej [(!s.fwBusy, rej Status.resourceBusy), (s.warden.update.isSome, lrej Status.loadSequence 0 0 0)])
    (fun s => { st := s, mask := 2 * kind + (if raise then 1 else 0) }))

/-- Bytes of a staged copy, little-endian; bytes not received read as erased. -/
def FwUpdate.le (u : FwUpdate) (o n : Nat) : Nat :=
  ofBytesLE ((List.range n).map (fun i => SMap.get 0xFF u.bytes (o + i)))

/-- Whether a staged copy passes: complete, its header as Table 18.2 with LEN matching COPY_LEN, SVN high enough; `ok` is the outcome
of the key and signature checks. -/
def State.fwPasses (s : State) (u : FwUpdate) (kind : Nat) (ok : Bool) : Bool :=
  let len := u.le 0x10 4
  ok && u.kind == kind && u.bytes.length == u.len && u.le 0 4 == 0x57464744 && u.le 4 4 / 2 ^ 16 == kind && u.le 4 4 / 64 % 1024 == 0 &&
  decide (s.svnMin ≤ u.le 4 4 % 64) && (u.le 8 4 == 0xF048 || u.le 8 4 == 0xFFFFFFFF) && decide (256 ≤ len ∧ len ≤ 0x01000000) &&
  (len + 192 + 31) / 32 * 32 == u.len && u.le 0x14 44 == 0

/-- FW_UPDATE_COMMIT_DONE: a copy that passes gets the highest GENERATION, and RAISE_SVN raises SVN_MIN to its SVN. -/
def State.fwCommitDone (s : State) (ok : Bool) : State :=
  let mine := fun (a : Async) => a.opcode == Op.fwUpdateCommit
  match s.host.async.find? mine, s.warden.update with
  | some a, some u =>
    let kind := a.mask / 2
    if s.fwPasses u kind ok then
      let g := fun (c : Nat) => (s.fwCopy (kind - 1) c).gen.getD 0
      let gen := (max (g 0) (g 1) + 1) % 2 ^ 32
      let svn := u.le 4 4 % 64
      let body := (List.range (u.le 0x10 4)).map (fun i => SMap.get 0xFF u.bytes i)
      let s := s.setCopy kind u.copy { gen := some gen, svn := svn, version := BitVec.ofNat 32 (u.le 0xC 4), meas := sha384 body }
      let s := { s with warden.update := none }.logAction Op.fwUpdateCommit u.copy
      let s := if a.mask % 2 = 1 then s.wrF Reg.secStat 16 6 svn else s
      s.complete mine Status.ok [BitVec.ofNat 32 gen, BitVec.ofNat 32 s.svnMin]
    else s.complete mine Status.fwInvalid [(rej Status.fwInvalid).detail]
  | some _, none => s.complete mine Status.fwInvalid [(rej Status.fwInvalid).detail]
  | none, _ => s

def execFwUpdateCommitDone (ok : Bool) (s : State) : Host.Outcome State Fault Refusal := s.done (s.fwCommitDone ok)

/-! Attestation (18 R457, Table 18.7). -/

/-- The bytes of a 768-bit value, most significant first, as words. -/
def keyWords (v : BitVec 768) : List W32 := wordsOf ((List.range 96).map (fun i => v.extractLsb' (8 * (95 - i)) 8))

/-- The fingerprint of a public key (16 R412). -/
def fpOf (key : BitVec 768) : BitVec 384 := sha384 ((List.range 96).map (fun i => key.extractLsb' (8 * (95 - i)) 8))

/-- ATTEST: the nonce and CERT are kept with the outstanding command. -/
def execAttest (h : Hdr) (cert : Bool) (nonce : BitVec 384) (s : State) : Host.Outcome State Fault Refusal :=
  s.done (s.serve h Op.attest noCheck (fun s => { st := s, mask := 2 * nonce.toNat + (if cert then 1 else 0) }))

/-- The items of an attestation, P0 up to the certificate. Of firmware that does not run the words are 0 (log 25). -/
def State.attestItems (s : State) (cert : Bool) : List W32 :=
  let sec := s.rd Reg.secStat
  let wc := fld sec 23 1
  let hc := fld sec 22 1
  let w := s.fwCopy 0 wc
  let hf := s.fwCopy 1 hc
  let hub := s.hubOn
  let cb := if cert then Config.identityCert else []
  keyWords Config.identityKey ++ fpWords identityFp ++ fpWords w.meas ++ fpWords (if hub then hf.meas else 0) ++
  [ BitVec.ofNat 32 (wc + 2 * hc + w.svn % 64 * 2 ^ 8 + (if hub then hf.svn % 64 * 2 ^ 16 else 0))
  , BitVec.ofNat 32 (w.gen.getD 0), BitVec.ofNat 32 (if hub then hf.gen.getD 0 else 0)
  , BitVec.ofNat 32 (s.svnMin + (if s.debugLocked then 256 else 0) + s.ownerMask * 2 ^ 12) ] ++
  s.owners.flatMap (fun o => match o.key with
    | some k => fpWords (fpOf k)
    | none => List.replicate 12 0) ++
  (List.range 4).flatMap (fun k => match (if hub then s.imageOf k else none) with
    | some i => wordsLE 2 (s.imgUid i.base)
    | none => [0, 0]) ++
  BitVec.ofNat 32 cb.length :: wordsOf (padTo ((cb.length + 3) / 4 * 4) cb)

/-- ATTEST_DONE: the oldest outstanding attestation completes; in Boot ROM recovery with FW_INVALID (18 R451). -/
def State.attestDone (s : State) : State :=
  match s.host.async.find? (fun a => a.opcode == Op.attest) with
  | none => s
  | some a =>
    if s.warden.romOnly then s.complete (fun b => b == a) Status.fwInvalid [(rej Status.fwInvalid).detail]
    else
      let items := s.attestItems (a.mask % 2 == 1)
      let sign := Config.identitySign (fpWords (BitVec.ofNat 384 (a.mask / 2)) ++ items)
      (s.logAction Op.attest 0).complete (fun b => b == a) Status.ok (items ++ keyWords sign)

def execAttestDone (s : State) : Host.Outcome State Fault Refusal := s.done s.attestDone

/-! The event log (18 R459). -/

/-- EVENT_LOG_READ: from an overwritten SEQ the oldest entry held is the first; beyond the newest there is none. -/
def execEventLogRead (h : Hdr) (seq count : Nat) (s : State) : Host.Outcome State Fault Refusal :=
  s.done (s.serve h Op.eventLogRead
    (fun _ => firstRej [(decide (1 ≤ count ∧ count ≤ 64), rej Status.valueRange 0 1)])
    (fun s =>
      let es := (s.log.filter (fun e => decide (seq ≤ e.seq))).take count
      { st := s, out := es.flatMap (fun e => wordsOf (e.bytes ++ chainBytes e.chain)) }))

/-! Sensors and SMBus (18 R458). -/

/-- The block of a command code of Table 18.3 in little-endian fields, in the units of PWR_STATUS: `a` and `b` are what the die's or
rail's sensor reads (log 25). -/
def State.sensorBlock (s : State) (code a b : Nat) : Option (List W8) :=
  let t := s.rd Reg.tempMax
  if code = 1 then
    some (bytesLE 1 s.dev.state.code ++ bytesLE 1 s.shedStage ++ bytesLE 1 (fld t 16 8) ++ bytesLE 1 0 ++ bytesLE 2 (fld t 0 16) ++ bytesLE 2 0)
  else if code = 2 then
    some (bytesLE 4 (s.rd Reg.feedV).toNat ++ bytesLE 4 (s.rd Reg.feedI).toNat ++ bytesLE 4 (s.rd Reg.busV).toNat)
  else if 0x10 ≤ code ∧ code ≤ 0x3B then some (bytesLE 2 a ++ bytesLE 2 0)
  else if 0x40 ≤ code ∧ code ≤ 0x5F then some (bytesLE 2 a ++ bytesLE 2 b)
  else none

/-- SENSOR_READ. -/
def execSensorRead (h : Hdr) (code a b : Nat) (s : State) : Host.Outcome State Fault Refusal :=
  s.done (s.serve h Op.sensorRead
    (fun s => unlessOk (s.sensorBlock code a b).isSome (rej Status.valueRange 0 0))
    (fun s => { st := s, out := wordsOf ((s.sensorBlock code a b).getD []) }))

/-- SMBUS_BLOCK_READ: the Warden at 0x3A; the module EEPROM at 0x50, `a` bytes from byte `code` of its 8 KiB. Other addresses and codes
get no block. -/
def execSmbusBlockRead (addr code a b : Nat) (s : State) : Host.Outcome State Fault Refusal :=
  let block := if addr = 0x3A then s.sensorBlock code a b
    else if addr = 0x50 then some ((List.range (min a 255)).map (fun i => Config.fru s.dev.stepB0 ((code + i) % 8192)))
    else none
  s.done (match block with
    | some bs => if s.powered then { s with warden.smbus := s.warden.smbus ++ [(addr, code, bs)] } else s
    | none => s)

end Sys2Proof.Machine
end

