-- ==== Sys2Proof/Machine/RegIo.lean ====
section
/-! DEFINITION. Access to registers and device addresses (00 R8 to R13; 15 R395, R396, R406, R407): the registers with behaviour of
their own, Window B, REG_READ and REG_WRITE, DEBUG_READ and DEBUG_WRITE. -/

namespace Sys2Proof.Machine

/-- WA_STATE (15 Table 15.7). -/
def State.waStateWord (s : State) : W32 :=
  BitVec.ofNat 32 (s.dev.state.code * 2 ^ 16 + s.shedStage * 2 ^ 8 + natOf 4 (fun k => s.ctxState k != Ctx.empty))

/-- The word a register shows: computed where it follows other state (15 Table 15.7; 03 Table 3.6; 12 Table 12.3, L_NOW) or time (10 R288), else what it
holds. -/
def State.shown (s : State) (a : Nat) : W32 :=
  if a = Reg.waState then s.waStateWord
  else if a = Reg.waTick then s.tickId
  else if a = Reg.waSig ∨ a = Reg.sigId then BitVec.ofNat 32 s.sigId
  else if a = Reg.asyncOpen then BitVec.ofNat 32 s.host.async.length
  else if Reg.lane 0 ≤ a ∧ a < Reg.lane 144 ∧ a % 0x100 = 0x78 then s.injNow ((a - Reg.lane 0) / 0x100)
  else if a < 0x100000000 ∧ a % 0x10000000 < 0x8800000 ∧ 0x3C000 ≤ a % 0x40000 ∧ a % 0x40000 < 0x3D000 ∧ a % 0x400 = 0x20 then
    setBit (s.rd a) 30 (s.eligible (a / 0x10000000) (a % 0x10000000 / 0x40000) (a % 0x40000 % 0x3C000 / 0x400))
  else if Reg.prim 0 ≤ a ∧ a < Reg.prim 2048 ∧ a % 0x20 = 0x1C then
    let p := (a - Reg.prim 0) / 0x20
    setFld (s.rd a) 0 17 (ofSigned 17 (s.primLevel p (s.rdF (Reg.prim p) 16 10)))
  else s.rd a

/-- A read of a register; TOD_LATCH and TS_TICK latch the time of day (14 R374; 15 R395). -/
def State.readReg (s : State) (a : Nat) : W32 × State :=
  let s := if a = Reg.todLatch then s.todLatch else if a = Reg.tsTick then s.tsLatch else s
  (s.shown a, s)

/-- The write of a register without behaviour of its own (00 R8 to R12). -/
def State.plainWrite (s : State) (a : Nat) (v : W32) : State :=
  match regRow a with
  | some r => s.wr a (r.write (s.rd a) v)
  | none => s

/-- A write of a Window A register (15 R391, R394, Table 15.7). -/
def State.writeWindowA (s : State) (a : Nat) (v : W32) : State :=
  let en := bit v 31
  let size := fld v 0 5
  if a = Reg.cmdCfg then s.setCmdCfg en size
  else if a = Reg.rplCfg then s.setRplCfg en size
  else if a = Reg.fltCfg then s.setFltCfg en size
  else if a = Reg.cmdTail then s.doorbell (fld v 4 20) []
  else if a = Reg.rplHead then s.setRplHead (fld v 4 20)
  else if a = Reg.irqStatus then s.clearIrq v
  else if (a = Reg.wa + 0x10 ∨ a = Reg.wa + 0x14) ∧ bit (s.rd Reg.cmdCfg) 31 then s
  else if (a = Reg.wa + 0x30 ∨ a = Reg.wa + 0x34) ∧ bit (s.rd Reg.rplCfg) 31 then s
  else if (a = Reg.wa + 0x50 ∨ a = Reg.wa + 0x54) ∧ bit (s.rd Reg.fltCfg) 31 then s
  else s.plainWrite a v

/-- A write of a register of a lane (10 Table 10.7): EB_CFG is bounded, TX_FFE keeps its ranges and sum (10 R263), CTLE_PEAK is the host's
with CTLE_MAN and within 0 to 20 dB (10 R264), and RATE_LOG2 stays within 4 to 40 (other values of both leave the one in use, log 21);
PRBS_CFG and INJ_CFG act. -/
def State.writeLane (s : State) (a : Nat) (v : W32) : State :=
  let n := (a - Reg.lane 0) / 0x100
  if a = Reg.ebCfg n then s.wr a (BitVec.ofNat 32 (max 1 (min 6 (fld v 0 4))))
  else if a = Reg.txFfe n then (if ffeOk v then s.plainWrite a v else s)
  else if a = Reg.rxEq n then
    s.plainWrite a (if bit v 30 && decide (fld v 25 5 ≤ 20) then v else setFld v 25 5 (s.rdF a 25 5))
  else if a = Reg.prbsCfg n then (if s.laneInUse n || s.shedStage != 0 then s else s.setPrbs n v)
  else if a = Reg.injCfg n then
    (if s.laneInUse n || s.shedStage != 0 then s
     else
       let s := s.setInj n (if 4 ≤ fld v 18 6 ∧ fld v 18 6 ≤ 40 then v else setFld v 18 6 (s.rdF a 18 6))
       if bit v 0 then s.injGo n else s)
  else s.plainWrite a v

/-- A write of a register of a tile: CLR of SC_CTRL (02 Table 2.3), and WINDOW of a Scarab, at least 256 (06 Table 6.4). -/
def State.writeTile (s : State) (a : Nat) (v : W32) : State :=
  let t := a / 0x10000000
  let o := a % 0x10000000
  if 0xF000000 ≤ o ∧ o < 0xF000800 ∧ o % 0x20 = 0x1C then (if bit v 0 then s.clearMon t ((o - 0xF000000) / 0x20) else s)
  else if a = Reg.scarab t then s.wr a (BitVec.ofNat 32 (max 256 (fld v 0 24)))
  else s.plainWrite a v

/-- A write of a register (15 R406): the effect of those that have one, the field types for the others. -/
def State.writeReg (s : State) (a : Nat) (v : W32) : State :=
  let o := a - Reg.csr
  if Reg.wa ≤ a then s.writeWindowA a v
  else if a < 0x100000000 then s.writeTile a v
  else if 0x10000 ≤ o ∧ o < 0x12000 ∧ o % 0x20 = 0x1C then
    (if bit v 0 then s.clearFb ((o - 0x10000) / 0x800) (o % 0x800 / 0x20) else s)
  else if 0x110000 ≤ o ∧ o < 0x111000 then (if requesterOk ((o - 0x110000) / 4) then s.setPrio ((o - 0x110000) / 4) v else s)
  else if 0x5000 ≤ o ∧ o < 0x5040 ∧ o % 0x10 = 0 then
    s.wr a (BitVec.ofNat 32 (fld v 31 1 * 2 ^ 31 + max 1 (fld v 0 16)))
  else if 0x200000 ≤ o ∧ o < 0x209000 then s.writeLane a v
  else if 0x290000 ≤ o ∧ o < 0x290400 ∧ o % 0x40 = 0x1C then s.setRd ((o - 0x290000) / 0x40) v
  else s.plainWrite a v

/-- REGISTER_WRITE (00 R8). -/
def execRegisterWrite (addr : Nat) (v : W32) (s : State) : Host.Outcome State Fault Refusal :=
  s.onUnit (regRow addr).isSome (if s.hubOn then s.writeReg addr v else s)

/-! Ranges of words. -/

/-- The addresses of words from `a` on. -/
def wordAddrs (a n : Nat) : List Nat := (List.range n).map (fun i => a + 4 * i)

/-- Whether every word lies in the control and status space and is mapped (15 R406). -/
def csrRange (a n : Nat) : Bool := a % 4 == 0 && (wordAddrs a n).all (fun x => regionOf x == .csr)

/-- Whether every word lies in a memory or register of this part, or all in one other part (01 R31). -/
def mappedRange (a n : Nat) : Bool :=
  a % 4 == 0 && (if regionOf a == .remote then (a + 4 * n - 1) / 2 ^ 41 == a / 2 ^ 41
    else (wordAddrs a n).all (fun x => match regionOf x with
      | .none | .remote => false
      | _ => true))

/-- Reads words in order. -/
def State.readWords (s : State) : List Nat → List W32 × State
  | [] => ([], s)
  | a :: r =>
    let g := if (regionOf a).isMem then (BitVec.ofNat 32 (ofBytesLE ((List.range 4).map (fun i => s.memByte (a + i)))), s) else s.readReg a
    let rest := g.2.readWords r
    (g.1 :: rest.1, rest.2)

/-- Writes words in order from an address on. -/
def State.writeEach (s : State) (a : Nat) : List W32 → State
  | [] => s
  | w :: r =>
    ((if (regionOf a).isMem then s.wrBytes a (bytesLE 4 w.toNat) else s.writeReg a w)).writeEach (a + 4) r

/-- Writes words in order; the words and lines of memory that they cover whole are clean (07 R199). -/
def State.writeWords (s : State) (a : Nat) (ws : List W32) : State :=
  let t := s.writeEach a ws
  if (regionOf a).isMem then t.markBytes a (List.replicate (4 * ws.length) false) else t

/-- The count of a range, at word `i` of the payload. -/
def countRej (n i : Nat) : Option Rej := unlessOk (decide (1 ≤ n ∧ n ≤ 1024)) (rej Status.valueRange 0 i)

/-- REG_READ. -/
def execRegRead (h : Hdr) (addr count : Nat) (s : State) : Host.Outcome State Fault Refusal :=
  s.done (s.serve h Op.regRead
    (fun _ => orRej (countRej count 2) (unlessOk (csrRange addr count) (rej Status.addrInvalid 0 0)))
    (fun s => let g := s.readWords (wordAddrs addr count)
              { st := g.2, out := g.1 }))

/-- REG_WRITE. -/
def execRegWrite (h : Hdr) (addr : Nat) (ws : List W32) (s : State) : Host.Outcome State Fault Refusal :=
  s.done (s.serve h Op.regWrite
    (fun _ => orRej (countRej ws.length 2) (unlessOk (csrRange addr ws.length) (rej Status.addrInvalid 0 0)))
    (fun s => { st := s.writeWords addr ws }))

/-- The checks of DEBUG_READ and DEBUG_WRITE (15 R407). -/
def State.debugRej (s : State) (addr n : Nat) : Option Rej :=
  orRej (unlessOk (!s.debugLocked) (rej Status.debugLocked))
    (orRej (countRej n 2) (unlessOk (mappedRange addr n) (rej Status.addrInvalid 0 0)))

/-- The access of a debug command: words in order, memory of another part or of a stack in self-refresh answering when it can (07
R190; 11 R311). -/
def State.debugAccess (s : State) (h : Hdr) (op addr n : Nat) (data : Option (List W32)) (ecc : Findings) : Effect :=
  let q : HostReq := { addr := addr, n := n, data := data.map (fun ws => ws.flatMap (fun (w : W32) => bytesLE 4 w.toNat)),
                       who := .command h.transport h.tag op }
  if regionOf addr == .remote then { st := s.remoteReq addr n q.data q.who, late := true }
  else if s.asleepIn addr n then { st := s.access q 0, late := true }
  else match data with
    | none => let g := (s.readCodes addr n Req.host ecc).readWords (wordAddrs addr (n / 4))
              { st := g.2, out := g.1 }
    | some ws => { st := s.writeWords addr ws }

/-- DEBUG_READ. -/
def execDebugRead (h : Hdr) (addr count : Nat) (s : State) (ecc : Findings := []) : Host.Outcome State Fault Refusal :=
  s.done (s.serve h Op.debugRead (fun s => s.debugRej addr count) (fun s => s.debugAccess h Op.debugRead addr (4 * count) none ecc))

/-- DEBUG_WRITE. Pattern entries are written by the commands of 08 section 6 and by the loader alone (08 R216): a write to them is
rejected. -/
def execDebugWrite (h : Hdr) (addr : Nat) (ws : List W32) (s : State) : Host.Outcome State Fault Refusal :=
  s.done (s.serve h Op.debugWrite
    (fun s => orRej (s.debugRej addr ws.length)
      (unlessOk (!(wordAddrs addr ws.length).any (fun a => regionOf a == .pattern)) (rej Status.addrInvalid 0 0)))
    (fun s => s.debugAccess h Op.debugWrite addr (4 * ws.length) (some ws) []))

/-! Window B (15 R396). -/

/-- Whether Window B shows an address: its bits [47:36] are WINB_BASE. -/
def State.inWindowB (s : State) (a n : Nat) : Bool :=
  let b := s.rdF Reg.winbBase 0 12
  a / 2 ^ 36 == b && (a + n - 1) / 2 ^ 36 == b

/-- A read of the window: remote parts over the mesh, tile registers without side effects, memories; anything else is unmapped. -/
def State.windowRead (s : State) (a n : Nat) (ecc : Findings) : State :=
  match regionOf a with
  | .remote => s.remoteReq a n none .window
  | .tileReg =>
    if (List.range n).all (fun i => regionOf (a + i) == .tileReg) then
      { s with host.windowOut := s.host.windowOut ++
          [((List.range n).map (fun i => BitVec.ofNat 8 ((s.shown (a + i - (a + i) % 4)).toNat / 2 ^ (8 * ((a + i) % 4)))), false)] }
    else s.carryOut ⟨a, n, none, .window⟩ 0
  | _ => s.access ⟨a, n, none, .window⟩ 0 ecc

def execWindowBRead (addr n : Nat) (s : State) (ecc : Findings := []) : Host.Outcome State Fault Refusal :=
  s.onUnit (decide (1 ≤ n)) (if s.hubOn && s.inWindowB addr n then s.windowRead addr n ecc else s)

/-- A write of the window: to Store and to HBM outside the loader region. -/
def State.windowWrite (s : State) (a : Nat) (bs : List W8) : State :=
  if regionOf a = .remote then s.remoteReq a bs.length (some bs) .window
  else if (List.range bs.length).all (fun i => writable (a + i)) then s.access ⟨a, bs.length, some bs, .window⟩ 0
  else s.addrFault a Req.host

def execWindowBWrite (addr : Nat) (bytes : List W8) (s : State) : Host.Outcome State Fault Refusal :=
  s.onUnit (decide (1 ≤ bytes.length)) (if s.hubOn && s.inWindowB addr bytes.length then s.windowWrite addr bytes else s)

end Sys2Proof.Machine
end

