-- ==== Sys2Proof/Machine/Scarab.lean ====
section
/-! DEFINITION. Scarab (06 R176 to R180): the blocked timers, the wait-for graph of a tile and of the device, and what becomes of a
ring that has waited too long. A node is a context of a physical core, numbered (544 t + c) × 4 + k, so that queue q of it has the
global number 8 node + q. -/

namespace Sys2Proof.Machine

/-- A wait edge: who waits for whom, the short queues that it waits to be fed, and the full queues it waits on, in global numbers; it is
full where there are such. -/
structure WaitArc where
  src : Nat
  dst : Nat
  feeds : List Nat
  fulls : List Nat
  deriving DecidableEq, Repr

def nodeOf (t c k : Nat) : Nat := kc t c * 4 + k
def nodeTile (n : Nat) : Nat := n / 4 / 544
def nodeCore (n : Nat) : Nat := n / 4 % 544

/-- The VALID contexts of the tiles that a condition selects. -/
def State.validNodes (s : State) (p : Nat → Bool) : List Nat :=
  (List.range 4).flatMap (fun k =>
    let cs := ((s.cx k).cores.filter (fun (e : Nat × Nat) => p e.1)).map (fun (e : Nat × Nat) => (e.1, s.phys e.1 e.2))
    (cs.filter (fun (e : Nat × Nat) => s.ctxValid e.1 e.2 k)).map (fun (e : Nat × Nat) => nodeOf e.1 e.2 k))

/-- Whether a VALID context is blocked: it is not firing and fails the test of R77. -/
def State.blockedNow (s : State) (n : Nat) : Bool :=
  let t := nodeTile n
  let c := nodeCore n
  !(s.ant.firings.any (fun f => f.tile == t && f.core == c && f.ctx == n % 4)) &&
  !((List.range 8).all (fun q =>
      let need := s.rdF (Reg.ctxNeed t c (n % 4) q) (8 * (q % 4)) 8
      need == 0 || decide (need ≤ s.qCount t c (n % 4) q)) &&
    (List.range 16).all (fun r =>
      let w := s.rd (Reg.route t c (n % 4) r)
      !bit w 31 || decide (fld w 7 7 ≤ s.rdF (Reg.credit t c (n % 4) r) 0 7)))

/-- The blocked timers of a tile: each starts when its context becomes blocked (the FAB cycle plus 1 is kept) and ends when it is
not. -/
def State.blockTimers (s : State) (t : Nat) : State :=
  let ns := (s.validNodes (· == t)).filter s.blockedNow
  let m := s.scarab.blocked.filter (fun (e : Nat × Nat) => nodeTile e.1 != t || ns.elem e.1)
  { s with scarab.blocked := ns.foldl (fun m n => if SMap.get 0 m n = 0 then SMap.set 0 m n (s.tod.fab + 1) else m) m }

/-- Whether a context has been blocked for more than WINDOW cycles. -/
def State.blockedLong (s : State) (n : Nat) : Bool :=
  let b := SMap.get 0 s.scarab.blocked n
  b != 0 && decide (s.rdF (Reg.scarab (nodeTile n)) 0 24 < s.tod.fab + 1 - b)

/-- The destination queues of a route (03 Table 3.8): of a tree, those of every core that takes a copy. -/
def State.routeQueues (s : State) (t k : Nat) (w : W32) : List Nat :=
  let q := fun (t lc dq : Nat) => 8 * nodeOf t (s.phys t lc) k + dq
  match fld w 28 3 with
  | 0 => [q t (16 * fld w 20 5 + fld w 16 4) (fld w 25 3)]
  | 1 =>
    match s.ant.trees.find? (fun e => e.2.tile == t && e.2.id == fld w 16 8) with
    | some e => (bitsOf e.2.mask 512).map (fun d => q t d e.2.dq)
    | none => []
  | 2 => let n := fld w 16 9
         if n < 64 then [q (n / 4) (16 * (8 * (n % 4) + 3) + 15) (fld w 25 3)] else []
  | _ => []

/-- The wait edges of a blocked context, one for each context it waits for (06 R176). -/
def State.waitArcs (s : State) (n : Nat) : List WaitArc :=
  let t := nodeTile n
  let c := nodeCore n
  let k := n % 4
  let lc := (s.logical t c).getD 512
  let feeds := (List.range 8).flatMap (fun q =>
    let need := s.rdF (Reg.ctxNeed t c k q) (8 * (q % 4)) 8
    if need ≠ 0 ∧ s.qCount t c k q < need then
      (s.ant.edges.filter (fun (e : Nat × WaitEdge) => e.2.tile == t && e.2.core == lc && e.2.ctx == k && e.2.q == q)).map
        (fun (e : Nat × WaitEdge) => (nodeOf e.2.ftile (s.phys e.2.ftile e.2.fcore) e.2.fctx, 8 * n + q))
    else [])
  let fulls := (List.range 16).flatMap (fun r =>
    let w := s.rd (Reg.route t c k r)
    if bit w 31 ∧ s.rdF (Reg.credit t c k r) 0 7 < fld w 7 7 then (s.routeQueues t k w).map (fun g => (g / 8, g)) else [])
  let of := fun (l : List (Nat × Nat)) (d : Nat) => ((l.filter (fun (e : Nat × Nat) => e.1 == d)).map (·.2)).eraseDups
  (((feeds ++ fulls).map (·.1)).eraseDups).map (fun d => ⟨n, d, of feeds d, of fulls d⟩)

/-- The rings through `root` whose other nodes are greater, from `at'` on. -/
def ringsFrom (arcs : List WaitArc) (root : Nat) : Nat → List WaitArc → Nat → List (List WaitArc)
  | 0, _, _ => []
  | fuel + 1, path, at' =>
    (arcs.filter (fun e => e.src == at' && decide (root ≤ e.dst))).flatMap (fun e =>
      if e.dst = root then [(e :: path).reverse]
      else if e.dst = at' ∨ path.any (fun x => x.src == e.dst) then []
      else ringsFrom arcs root fuel (e :: path) e.dst)

/-- Every ring of a graph, once each. -/
def ringsOf (nodes : List Nat) (arcs : List WaitArc) : List (List WaitArc) :=
  nodes.flatMap (fun r => ringsFrom arcs r nodes.length [] r)

/-- The queues of a ring in global numbers, lowest first: those that its edges wait on. -/
def ringQueues (ring : List WaitArc) : List Nat :=
  sortBy (fun a b => decide (a ≤ b)) ((ring.flatMap (fun e => e.feeds ++ e.fulls)).eraseDups)

/-- DETAIL layout Q of a ring (21 Table 21.1). -/
def detailRing (ring : List WaitArc) : Nat :=
  let qs := ringQueues ring
  qs.getD 0 0 + qs.getD 1 0 * 2 ^ 24 + qs.getD 2 0 * 2 ^ 48 + (ring.length % 256) * 2 ^ 72

/-- A ring is faulted: counted, raised, and its contexts go to Faulted at the next strobe, each with the rest of its section chain, whose
contexts follow the same transitions (06 R164; log 29). -/
def State.faultRing (s : State) (code : Nat) (ring : List WaitArc) : State :=
  let n := (ring.map (·.src)).foldl min ((ring.map (·.src)).headD 0)
  let s := s.bump (Reg.scarab (nodeTile n) + 0x18)
  let s := s.raiseNow code { die := nodeTile n, unit := nodeCore n, ctx := n % 4 } (detailRing ring)
  s.mapCx (s.chainOf (natOf 4 (fun k => ring.any (fun e => e.src % 4 == k)))) (fun c => { c with faultAt := some s.nextStrobe })

/-- The addresses of the free places of a tile's spill area in Store (06 Table 6.4), lowest first (log 29). -/
def State.spillFree (s : State) (t : Nat) : List Nat :=
  ((List.range (s.rdF (Reg.scarab t + 0x8) 0 24)).map (fun i => 0x100000000 + (s.rd (Reg.scarab t + 0x4)).toNat + 32 * i)).filter
    (fun a => !s.scarab.spilled.any (fun e => e.addr == a))

/-- Spills a queue (06 R176, R177): its held flits, oldest first, go to Store behind those spilled before; their credits go back. -/
def State.spill (s : State) (g : Nat) : State :=
  let t := nodeTile (g / 8)
  let c := nodeCore (g / 8)
  let k := g / 8 % 4
  let q := g % 8
  let n := s.qHeld t c k q
  let st := s.rd (Reg.qstat t c k q)
  let as := (List.range n).map (fun i => s.slotAddr t c k q ((fld st 16 6 + i) % max 1 (s.qDepth t c k q)))
  let fs := as.map (fun a => s.slotFlit a k q)
  let out := (fs.zip (s.spillFree t)).map (fun e => (⟨g, e.2, e.1⟩ : Spilled))
  let s := fs.foldl (fun u f => u.giveBack f.src) s
  let s := as.foldl (fun u a => u.setSide a Side.none') s
  let s := s.wr (Reg.qstat t c k q) (setFld (setFld st 16 6 (fld st 8 6)) 24 7 0)
  let s := out.foldl (fun u e => u.memWrite e.addr (bytesLE 32 e.flit.data.toNat) e.flit.poison) s
  let s := { s with scarab.spilled := s.scarab.spilled ++ out.map (fun (e : Spilled) => (⟨e.q, e.addr, { e.flit with src := none, poison := false }⟩ : Spilled)) }
  let s := s.wrF (Reg.scarab t + 0xC) 0 24 (s.rdF (Reg.scarab t + 0xC) 0 24 + n)
  let s := (s.bump (Reg.scarab t + 0x10)).wrF (Reg.scarab t + 0x14) 0 24 g
  s.raiseNow Code.scarabSpill { die := t, unit := c, ctx := k, sub := q } (detailQ g ((fs.map (fun (f : Flit) => f.tag.toNat)).headD 0))

/-- What Scarab does with a ring (06 R176, R178). -/
def State.breakRing (s : State) (ring : List WaitArc) : State :=
  if !ring.all (fun e => s.blockedLong e.src) then s
  else if (ring.map (·.src % 4)).any s.ctxTimed then s.faultRing Code.scarabTimed ring
  else
    match (ring.flatMap (·.fulls)).foldl (fun (m : Option Nat) g => some (max g (m.getD 0))) none with
    | none => s.faultRing Code.scarabStarved ring
    | some g =>
      let x := g / 8
      let free := s.rdF (Reg.scarab (nodeTile x) + 0x8) 0 24 - s.rdF (Reg.scarab (nodeTile x) + 0xC) 0 24
      if free < s.qHeld (nodeTile x) (nodeCore x) (x % 4) (g % 8) then s.faultRing Code.scarabSpillFull ring
      else
        let s := s.spill g
        { s with scarab.blocked := ring.foldl (fun m e => SMap.set 0 m e.src (s.tod.fab + 1)) s.scarab.blocked }

/-- The Scarab rule over the blocked contexts of the tiles that a condition selects. -/
def State.scarabOver (s : State) (p : Nat → Bool) : State :=
  let nodes := sortBy (fun a b => decide (a ≤ b)) ((s.scarab.blocked.map (·.1)).filter (fun n => p (nodeTile n)))
  let arcs := (nodes.flatMap s.waitArcs).filter (fun e => nodes.elem e.dst)
  (ringsOf nodes arcs).foldl State.breakRing s

/-- SCARAB_STEP: FAB cycle `cyc` of the tick in the Scarab of a tile. -/
def State.scarabStep (s : State) (t cyc : Nat) : State := ((s.atCycle cyc).blockTimers t).scarabOver (· == t)

def execScarabStep (tile cyc : Nat) (s : State) : Host.Outcome State Fault Refusal :=
  s.onUnit (decide (tile < 16)) (if s.hubOn then s.scarabStep tile cyc else s)

/-- SCARAB_HUB_STEP: the same over the whole device. -/
def execScarabHubStep (cyc : Nat) (s : State) : Host.Outcome State Fault Refusal :=
  s.done (if s.hubOn then (s.atCycle cyc).scarabOver (fun _ => true) else s)

end Sys2Proof.Machine
end

