-- ==== Sys2Proof/Machine/Subst.lean ====
section
/-! DEFINITION. Substitution and the diagnostic commands that drive it (03 R90 to R95; 06 R168, R170; 15 R407): retirement and return
of cores, the steps of Table 3.11, and the self-tests. -/

namespace Sys2Proof.Machine

/-- The physical core at a position of a row. -/
def rowCore (row pos : Nat) : Nat := 17 * row + pos

/-- The RETIRED_POS and BUSY fields of a row (03 Table 3.9). -/
def State.retiredPos (s : State) (t r : Nat) : Nat := s.rdF (Reg.rowMap t r) 16 5
def State.rowBusy (s : State) (t r : Nat) : Bool := bit (s.rd (Reg.rowMap t r)) 31
def State.setBusy (s : State) (t r : Nat) (b : Bool) : State := s.wr (Reg.rowMap t r) (setBit (s.rd (Reg.rowMap t r)) 31 b)

def State.substRow (s : State) (t r : Nat) : Option SubstRow := s.subst.rows.find? (fun x => x.tile == t && x.row == r)
def State.setSubst (s : State) (x : SubstRow) : State :=
  { s with subst.rows := s.subst.rows.map (fun y => if y.tile = x.tile ∧ y.row = x.row then x else y) }

/-- What an asynchronous command of a row names. -/
def rowKey (t r : Nat) : Nat := 32 * t + r

/-- The commands that wait for a row. -/
def ofRow (t r : Nat) (a : Async) : Bool := (a.opcode == Op.coreRetire || a.opcode == Op.coreReturn) && a.mask == rowKey t r

/-- A row stops moving: BUSY clears, and its command completes. -/
def State.closeRow (s : State) (t r status : Nat) (payload : List W32) : State :=
  let s := { s.setBusy t r false with subst.rows := s.subst.rows.filter (fun x => !(x.tile == t && x.row == r)) }
  s.complete (ofRow t r) status payload

/-- LPOS of every core of a row follows its map (03 Table 3.10). -/
def State.showRow (s : State) (t r : Nat) : State :=
  (List.range 17).foldl (fun u p =>
    u.wrF (Reg.coreId t (rowCore r p)) 13 5 (match u.logical t (rowCore r p) with | some lc => lc % 16 | none => 31)) s

/-- The last step of a row has ended (03 R92, R94). The 16-bit counts of SUBST_COUNT wrap (DESIGN CHOICE, log 30: Table 3.9 does not
say). -/
def State.rowDone (s : State) (x : SubstRow) : State :=
  let loc : Loc := { die := x.tile, unit := rowCore x.row x.pos }
  let s := s.showRow x.tile x.row
  let s :=
    if x.returning then
      let s := (s.wrF (Reg.rowMap x.tile x.row) 16 5 31).wrF (Reg.rowMap x.tile x.row) 0 5 16
      let s := s.wrF (Reg.substCount x.tile) 0 16 (s.rdF (Reg.substCount x.tile) 0 16 + 1)
      s.raiseNow Code.coreReturned loc 0
    else
      let s := s.wrF (Reg.rowMap x.tile x.row) 16 5 x.pos
      let s := s.wrF (Reg.substCount x.tile) 16 16 (s.rdF (Reg.substCount x.tile) 16 16 + 1)
      s.raiseNow Code.coreRetired loc 0
  (s.showRow x.tile x.row).closeRow x.tile x.row Status.ok [s.tickId]

/-- A move of a row starts at its free position, which SHIFT_FROM names (03 R92, R94). On a whole row that is the bench; where an aborted
move left the row partly shifted it is the position between, and a core beyond it is freed by the steps in reverse (DESIGN CHOICE, log
20). -/
def State.startMove (s : State) (x : SubstRow) : State :=
  let m := s.shiftFrom x.tile x.row
  let done := if x.returning then 16 else x.pos
  let x := { x with back := decide (m < done), cur := if m < done then m else m - 1, phase := 0 }
  let s := { s with subst.rows := s.subst.rows.map (fun y => if y.tile = x.tile ∧ y.row = x.row then x else y) }
  if m = done then s.rowDone x else s

/-- A retirement starts (03 R92); where its position is free already, nothing moves. -/
def State.startRetire (s : State) (t r pos : Nat) : State :=
  let x : SubstRow :=
    { tile := t, row := r, pos := pos, cur := 0, phase := 0, quiet := 0, tries := 0, back := false, returning := false }
  State.startMove { s.setBusy t r true with subst.rows := s.subst.rows ++ [x] } x

/-- A retirement that a row cannot take (03 R93). -/
def State.exhausted (s : State) (t r pos : Nat) : State :=
  s.raiseNow Code.substExhausted { die := t, unit := rowCore r pos } 0

/-- FREEZE of a tile (03 Table 3.9), or stage S4 or higher, under which faults are counted and no retirement starts. -/
def State.substFrozen (s : State) (t : Nat) : Bool := bit (s.rd (Reg.substPolicy t)) 31 || decide (4 ≤ s.shedStage)

/-- How many of the TICK_IDs of a core's findings lie in the current window of 2^RES_LOG2 ticks aligned in TICK_ID (03 R90). -/
def State.inWindow (s : State) (t : Nat) (l : List W32) : Nat :=
  let w := 2 ^ s.rdF (Reg.substPolicy t) 8 5
  (l.filter (fun n => n.toNat / w == s.tickId.toNat / w)).length

/-- RETIREMENT_THRESHOLD (03 R90). -/
def State.retireThreshold (s : State) (t c : Nat) : State :=
  let p := s.rd (Reg.substPolicy t)
  let res := s.inWindow t (SMap.get [] s.subst.resWin (kc t c))
  let can := s.inWindow t (SMap.get [] s.subst.canWin (kc t c))
  let past := (fld p 16 8 != 0 && decide (fld p 16 8 < res)) || (bit p 30 && fld p 0 8 != 0 && decide (fld p 0 8 ≤ can))
  let r := c / 17
  if !past || s.substFrozen t || s.rowBusy t r || s.retiredPos t r == c % 17 then s
  else if s.retiredPos t r ≠ 31 then s.exhausted t r (c % 17)
  else s.startRetire t r (c % 17)

def execRetirementThreshold (tile core : Nat) (s : State) : Host.Outcome State Fault Refusal :=
  s.onUnit (coreOk tile core) (if s.hubOn then s.retireThreshold tile core else s)

/-- CANARY_FAILURE (03 R90, Table 3.10). -/
def execCanaryFailure (tile core : Nat) (s : State) : Host.Outcome State Fault Refusal :=
  s.onUnit (coreOk tile core)
    (if s.hubOn then
      let t := s.bump (Reg.coreCanary tile core)
      if bit (t.rd (Reg.substPolicy tile)) 30 then
        { t with subst.canWin := SMap.set [] t.subst.canWin (kc tile core) (SMap.get [] t.subst.canWin (kc tile core) ++ [t.tickId]) }
      else t
    else s)

/-! The steps of Table 3.11. -/

/-- The logical core of the row that moves now, and the position it moves to. -/
def SubstRow.lcore (x : SubstRow) : Nat := 16 * x.row + x.cur
def SubstRow.target (x : SubstRow) : Nat := rowCore x.row (if x.back then x.cur else x.cur + 1)

/-- The logical core of the last step: of a retirement that next to the position to be free, of a return core 15. -/
def SubstRow.final (x : SubstRow) : Nat := if x.returning then 15 else if x.back then x.pos - 1 else x.pos

/-- The Running Timed contexts loaded on a logical core. -/
def State.timedOn (s : State) (t lc : Nat) : List Nat :=
  (List.range 4).filter (fun k => s.ctxTimed k && (s.ctxState k == Ctx.running) && (s.cx k).cores.elem (t, lc))

/-- The ticks after its input tick in which a context's event is at a core: NOMINAL of the core's stage group (02 R46). -/
def State.reachTicks (s : State) (t lc k : Nat) : Nat :=
  let g := s.rdF (Reg.ctxCfg t (s.phys t lc) k) 16 4
  s.rdF (Reg.scNominal t (16 * k + g)) 16 8

/-- Whether the Hub may hold the input of a context for tick `n` (06 R168): it makes at most one hold in any 2^16 ticks, those made and
those arranged together. -/
def State.mayHold (s : State) (k : Nat) (n : W32) : Bool :=
  ((s.cx k).lastHold.toList ++ (s.cx k).holds).all (fun h => n == h || decide (2 ^ 16 ≤ (tickDiff n h).natAbs))

/-- The next declared drain slot of a context at or after a tick. -/
def State.nextSlot (s : State) (k : Nat) (n : W32) : W32 :=
  let w := s.rd (Reg.ctxrGapCfg k)
  let m := 2 ^ fld w 24 5
  n + BitVec.ofNat 32 ((fld w 0 24 + m - n.toNat % m) % m)

/-- The quiet tick (03 Table 3.11 step 2): the first tick for which every context has its gap, by declared drain slots where a context
has them, else by holds that the limit permits. -/
def State.quietTick (s : State) (t lc : Nat) : W32 :=
  let ks := s.timedOn t lc
  let d := fun (k : Nat) => BitVec.ofNat 32 (s.reachTicks t lc k)
  let q0 := s.tickId + BitVec.ofNat 32 (2 + (ks.map (s.reachTicks t lc)).foldl max 0)
  let ds := ks.filter (fun k => bit (s.rd (Reg.ctxrGapCfg k)) 31)
  let cands := [q0] ++ ds.map (fun k => s.nextSlot k (q0 - d k) + d k) ++
    ks.flatMap (fun k => ((s.cx k).lastHold.toList ++ (s.cx k).holds).flatMap (fun h => [h + d k, h + BitVec.ofNat 32 (2 ^ 16) + d k]))
  let cands := sortBy (fun a b => tickReached b a) (cands.filter (fun q => tickReached q q0))
  let declared := fun (q : W32) (k : Nat) => s.declaredGap k (q - d k)
  let strict := fun (q : W32) => ks.all (fun k => declared q k || (!ds.elem k && s.mayHold k (q - d k)))
  let loose := fun (q : W32) => ks.all (fun k => declared q k || s.mayHold k (q - d k))
  match cands.find? strict with
  | some q => q
  | none => (cands.find? loose).getD q0

/-- SUBST_COPY: step 1 of Table 3.11 ends, and the Hub chooses the quiet tick with its holds. It waits for a loader region in self-refresh
(07 R190). `ecc` says what the codes find in the images read. -/
def State.substCopy (s : State) (t r : Nat) (ecc : Findings) : State :=
  match s.substRow t r with
  | none => s
  | some x =>
    if x.phase ≠ 0 ∨ nbit s.pwr.asleep 7 then s
    else
      let s := s.found (ecc.filter (fun e => inLoader e.1)) Req.subst
      let s := s.writeCore t x.lcore x.target true false
      let q := s.quietTick t x.lcore
      let s := (s.timedOn t x.lcore).foldl (fun u k =>
        let g := q - BitVec.ofNat 32 (u.reachTicks t x.lcore k)
        if u.declaredGap k g || (u.cx k).holds.elem g then u else u.setCx k { u.cx k with holds := (u.cx k).holds ++ [g] }) s
      s.setSubst { x with phase := 1, quiet := q }

def execSubstCopy (tile row : Nat) (s : State) (ecc : Findings := []) : Host.Outcome State Fault Refusal :=
  s.onUnit (decide (tile < 16 ∧ row < 32)) (if s.hubOn then s.substCopy tile row ecc else s)

/-- Copies the carried ranges of a context from one physical core to another, with what the codes find in them (07 R198). -/
def State.copyCarried (s : State) (t k c c' : Nat) (ecc : Findings) : State :=
  let w := s.rd (Reg.ctxCarry t c k)
  let n := 32 * fld w 24 8
  let a := Reg.coreBase t c + fld w 0 18
  let a' := Reg.coreBase t c' + fld w 0 18
  let s := s.found (within ecc a n) Req.subst
  (List.range n).foldl (fun u i =>
    let u := u.wrB (a' + i) (u.rdB (a + i))
    if i % 8 = 0 then u.setPoison (a' + i) 8 (u.isPoison (a + i) 8) else u) s

/-- Whether tick Q is quiet at a logical core (06 R170): of each Timed context on it no event is there, and every Timed queue is empty. -/
def State.coreQuiet (s : State) (t lc : Nat) (q : W32) : Bool :=
  ((List.range 4).filter (fun k => s.ctxTimed k && (s.cx k).cores.elem (t, lc))).all (fun k =>
    let n := q - BitVec.ofNat 32 (s.reachTicks t lc k)
    (!(s.cx k).entered.elem n || (s.cx k).abandoned.elem n) && (List.range 8).all (fun i => s.qCount t (s.phys t lc) k i == 0))

/-- SUBST_QUIET_TICK: step 4. A tick that is not quiet, or is past, aborts the step; after four retries the row stays as it stands
(03 R93). While a firing still runs on the core, whose registers no step copies, the step chooses another tick (R95; log 30). -/
def State.substQuiet (s : State) (t r : Nat) (ecc : Findings) : State :=
  match s.substRow t r with
  | none => s
  | some x =>
    if x.phase ≠ 1 ∨ !tickReached s.tickId x.quiet then s
    else
      let c := s.phys t x.lcore
      let ks := (List.range 4).filter (fun k => s.ctxTimed k && (s.cx k).cores.elem (t, x.lcore))
      if s.tickId ≠ x.quiet ∨ !s.coreQuiet t x.lcore x.quiet then
        let s := s.raiseNow Code.substAbort { die := t, unit := c } 0
        if x.tries < 4 then s.setSubst { x with phase := 0, tries := x.tries + 1 }
        else s.closeRow t r Status.superseded [(rej Status.superseded).detail]
      else if (s.firingOf t c).isSome then s.setSubst { x with phase := 0 }
      else (ks.foldl (fun u k => u.copyCarried t k c x.target ecc) s).setSubst { x with phase := 2 }

def execSubstQuietTick (tile row : Nat) (s : State) (ecc : Findings := []) : Host.Outcome State Fault Refusal :=
  s.onUnit (decide (tile < 16 ∧ row < 32)) (if s.hubOn then s.substQuiet tile row ecc else s)

/-- The queues of a context move: their slots and the marks beside them, and what is spilled of them. -/
def State.moveQueues (s : State) (t k c c' : Nat) (ecc : Findings) : State :=
  let slots := ((List.range 8).filter (s.qEn t c k)).flatMap (fun q =>
    (List.range (s.qDepth t c k q)).map (fun i => 0x38000 + 32 * (s.qBase t c k q + i)))
  let s := slots.foldl (fun u o =>
    let a := Reg.coreBase t c + o
    let a' := Reg.coreBase t c' + o
    let u := u.found (within ecc a 32) Req.subst
    (((u.wrBytes a' (u.rdBytes a 32)).setPoison a' 32 (u.isPoison a 32)).setSide a' (u.sideAt a)).setSide a Side.none') s
  { s with scarab.spilled := s.scarab.spilled.map (fun (e : Spilled) =>
      if e.q / 8 = kc t c * 4 + k then { e with q := 8 * (kc t c' * 4 + k) + e.q % 8 } else e) }

/-- The registers of a context move. -/
def State.moveRegs (s : State) (t k c c' : Nat) : State :=
  let s := (List.range 64).foldl (fun u i => u.wr (Reg.ctxBase t c' k + 4 * i) (u.rd (Reg.ctxBase t c k + 4 * i))) s
  s.wr (Reg.ctxCfg t c k) (setBit (s.rd (Reg.ctxCfg t c k)) 31 false)

/-- What a map holds of a physical core, `n` keys for each, moves to another (03 R95). -/
def rekey {V : Type} [DecidableEq V] (d : V) (n c c' : Nat) (m : SMap V) : SMap V :=
  (m.filter (fun e => e.1 / n == c)).foldl (fun l e => SMap.set d l (c' * n + e.1 % n) e.2)
    (m.filter (fun e => e.1 / n != c && e.1 / n != c'))

/-- A result in its latency, as it stands for a core that moves (03 R95). -/
def Old.follow (o : Old) (t c c' : Nat) : Old :=
  match o with
  | .acc key a => .acc (kc t c' * 256 + key % 256) a
  | .mem a bs ms => .mem (Reg.coreBase t c' + (a - Reg.coreBase t c)) bs ms
  | .vr r v p => .vr r v p

/-- What a core holds in its units follows the logical core (03 R95): registers, accumulators, results in their latency, and the cycles
from which its units and its selection are free. -/
def State.moveUnits (s : State) (t c c' : Nat) : State :=
  let a := kc t c
  let b := kc t c'
  { s with
    ant.vr := rekey 0 32 a b s.ant.vr, ant.vrPoison := rekey 0 32 a b s.ant.vrPoison, ant.acc := rekey Acc.zero 256 a b s.ant.acc,
    ant.shadows := SMap.set [] (SMap.del a s.ant.shadows) b
      ((s.shadowsOf t c).map (fun h => { h with old := h.old.follow t c c' })),
    ant.units := rekey 0 8 a b s.ant.units,
    ant.endAt := rekey 0 1 a b s.ant.endAt, ant.lastSurvey := rekey 0 1 a b s.ant.lastSurvey }

/-- SUBST_SWITCH: steps 3 and 5. The crossbar switches at strobe Q + 1, Survey contexts move with their queues and carried ranges, and
the next logical core follows. -/
def State.substSwitch (s : State) (t r : Nat) (ecc : Findings) : State :=
  match s.substRow t r with
  | none => s
  | some x =>
    if x.phase ≠ 2 ∨ s.tickId ≠ x.quiet + 1 then s
    else if (s.firingOf t (s.phys t x.lcore)).isSome then s.setSubst { x with phase := 0 }
    else
      let c := s.phys t x.lcore
      let c' := x.target
      let s := (List.range 4).foldl (fun u k =>
        let u := if u.ctxTimed k then u else u.copyCarried t k c c' ecc
        (u.moveQueues t k c c' ecc).moveRegs t k c c') s
      let s := { s.moveUnits t c c' with scarab.blocked := s.scarab.blocked.filter (fun (e : Nat × Nat) => e.1 / 4 != kc t c) }
      let s := (s.wrF (Reg.rowMap t r) 0 5 (if x.back then x.cur + 1 else x.cur)).showRow t r
      if x.cur = x.final then s.rowDone x
      else s.setSubst { x with cur := if x.back then x.cur + 1 else x.cur - 1, phase := 0, tries := 0 }

def execSubstSwitch (tile row : Nat) (s : State) (ecc : Findings := []) : Host.Outcome State Fault Refusal :=
  s.onUnit (decide (tile < 16 ∧ row < 32)) (if s.hubOn then s.substSwitch tile row ecc else s)

/-! Commands (15 R407). -/

def posOk (t r p : Nat) : Bool := decide (t < 16 ∧ r < 32 ∧ p < 17)

/-- CORE_RETIRE, but for a completion that comes at once. While FREEZE or a stage S4 or S5 keeps retirements from starting it is
rejected with VALUE_RANGE (DESIGN CHOICE, log 30: R90 says only that none starts, and R407 gives no status). -/
def State.coreRetire (s : State) (h : Hdr) (tile row pos : Nat) : State :=
  s.serve h Op.coreRetire
    (fun s => firstRej
      [ (posOk tile row pos && !s.substFrozen tile, rej Status.valueRange 0 0)
      , (!s.rowBusy tile row, rej Status.resourceBusy) ])
    (fun s =>
      { st := if s.retiredPos tile row = 31 then s.startRetire tile row pos else s.exhausted tile row pos,
        mask := rowKey tile row })

/-- CORE_RETIRE: it completes at once where the row has nothing to move; where the row cannot take the retirement, SUBST_EXHAUSTED is
raised and the command completes as superseded (log 30). -/
def execCoreRetire (h : Hdr) (tile row pos : Nat) (s : State) : Host.Outcome State Fault Refusal :=
  let t := s.coreRetire h tile row pos
  s.done (if (t.substRow tile row).isSome then t
    else if s.retiredPos tile row = 31 then t.complete (ofRow tile row) Status.ok [t.tickId]
    else t.complete (ofRow tile row) Status.superseded [(rej Status.superseded).detail])

/-- CORE_RETURN: the row waits for the Hub's self-test of the core. -/
def execCoreReturn (h : Hdr) (tile row pos : Nat) (s : State) : Host.Outcome State Fault Refusal :=
  s.done (s.serve h Op.coreReturn
    (fun s => firstRej
      [ (posOk tile row pos, rej Status.valueRange 0 0)
      , (!s.rowBusy tile row, rej Status.resourceBusy)
      , (s.retiredPos tile row == pos && pos != 31, rej Status.valueRange 0 0)
      , (!s.subst.fused.elem (tile, row), rej Status.fused) ])
    (fun s =>
      let x : SubstRow := { tile := tile, row := row, pos := pos, cur := 0, phase := 3, quiet := 0, tries := 0, back := true,
                            returning := true }
      { st := { s.setBusy tile row true with subst.rows := s.subst.rows ++ [x] }, mask := rowKey tile row }))

/-- Whether no committed image has a blob on a tile. -/
def State.tileUnloaded (s : State) (t : Nat) : Bool := (List.range 4).all (fun k => (s.cx k).cores.all (fun (e : Nat × Nat) => e.1 != t))

/-- SELFTEST on unloaded tiles; refused while a shedding stage is in force (17 Table 17.1). -/
def execSelftest (h : Hdr) (mask : Nat) (s : State) : Host.Outcome State Fault Refusal :=
  s.done (s.serve h Op.selftest
    (fun s => firstRej
      [ (decide (mask < 2 ^ 16) && (bitsOf mask 16).all s.tileUnloaded, rej Status.valueRange 0 0)
      , (s.shedStage == 0, rej Status.shedActive s.shedStage) ])
    (fun s => { st := s, mask := mask }))

/-- SELFTEST_DONE: of tiles, one word of rows that passed for each tile of the mask, lowest tile first; or of a returning core. -/
def State.selftestDone (s : State) (core : Option (Nat × Nat)) (pass : List Nat) : State :=
  match core with
  | none =>
    match s.host.async.find? (fun a => a.opcode == Op.selftest) with
    | some a => s.complete (fun b => b == a) Status.ok ((List.range (popcount a.mask 16)).map (fun i => BitVec.ofNat 32 (pass.getD i 0)))
    | none => s
  | some (t, r) =>
    match s.substRow t r with
    | none => s
    | some x =>
      if x.phase ≠ 3 then s
      else if pass.headD 0 % 2 = 0 then s.closeRow t r Status.selftestFail [(rej Status.selftestFail t).detail]
      else s.startMove x

def execSelftestDone (core : Option (Nat × Nat)) (pass : List Nat) (s : State) : Host.Outcome State Fault Refusal :=
  s.done (if s.hubOn then s.selftestDone core pass else s)

end Sys2Proof.Machine
end

