-- ==== Sys2Proof/Machine/SysCmds.lean ====
section
/-! DEFINITION. The System commands (15 Table 15.9; 02 R58, R63), and the ends of counter and report windows (04 R127; 07 R198; 21 R489). -/

namespace Sys2Proof.Machine

/-- SYS_NOP. -/
def execSysNop (h : Hdr) (s : State) : Host.Outcome State Fault Refusal :=
  s.done (s.serve h Op.sysNop noCheck (fun s => { st := s }))

/-- SYS_INFO. In Boot and Safe the Hub's words are 0; the personality is coded as in the image header (log 25). -/
def execSysInfo (h : Hdr) (s : State) : Host.Outcome State Fault Refusal :=
  s.done (s.serve h Op.sysInfo noCheck
    (fun s =>
      let sec := s.rd Reg.secStat
      let hub := if s.hubOn then (s.fwCopy 1 (fld sec 22 1)).version else 0
      let pers : W32 := if s.hubOn then BitVec.ofNat 32 ((if s.dev.concentrator then 1 else 2) + s.dev.partId % 64 * 2 ^ 8) else 0
      { st := s, out := [0xF048, BitVec.ofNat 32 s.sigId, hub, (s.fwCopy 0 (fld sec 23 1)).version] ++ fpWords identityFp ++ [pers] }))

/-- SYS_STATE. -/
def execSysState (h : Hdr) (s : State) : Host.Outcome State Fault Refusal :=
  s.done (s.serve h Op.sysState noCheck
    (fun s => { st := s, out := s.waStateWord :: (List.range 4).map (fun k => s.rd (Reg.ctxrState k)) ++ [s.tickId] }))

/-- The 14 cycle-valued rows of Table 2.6, in table order (02 R58, R63). -/
def sigRows (stepB0 : Bool) : List W32 :=
  [4, 6, 6, 4, 3, 7, 8, 13, 4, 23, 12, 4] ++ (if stepB0 then [26, 22] else [30, 24])

/-- SIG_TABLE. -/
def execSigTable (h : Hdr) (s : State) : Host.Outcome State Fault Refusal :=
  s.done (s.serve h Op.sigTable noCheck (fun s => { st := s, out := BitVec.ofNat 32 s.sigId :: sigRows s.dev.stepB0 }))

/-! Windows that end. -/

/-- The tensors with counts in the open window, by numKey / 3. -/
def State.countedTensors (s : State) : List Nat := (s.ant.numWin.map (fun (e : Nat × Nat) => e.1 / 3)).eraseDups

/-- Whether an address is that of a NUM_SAT_WIN or NUM_UNDER_WIN. -/
def isNumWin (a : Nat) : Bool := decide (Reg.num 0 0 ≤ a ∧ a < Reg.num 4 0 ∧ a % 16 < 8)

/-- The numeric summary of a tensor (15 Table 15.5, KIND 4). -/
def State.numSummary (s : State) (x : Nat) (first : W32) : State :=
  let n := fun (i : Nat) => SMap.get 0 s.ant.numWin (3 * x + i)
  s.record { code := 0, kind := 4, die := Die.hub, unit := 0, ctx := x / 1024, sub := 0, tick := first, ns := s.tod.ns,
             sec := s.tod.sec % 2 ^ 32,
             detail := satAdd 32 (n 0) 0 + satAdd 32 (n 1) 0 * 2 ^ 32 + satAdd 8 (n 2) 0 * 2 ^ 64 + x % 1024 * 2 ^ 72 }

/-- NUM_WINDOW_END (04 R127), at the strobe that opens a window: the counts of the one before appear in the _WIN registers, and each
tensor with a count sends its summary. While a shedding stage holds, collection and summaries are paused (17 Table 17.1): the counts of
the window that ends appear nowhere but in the totals. -/
def State.numWindowEnd (s : State) : State :=
  let size := 2 ^ s.rdF Reg.numCfg 0 5
  if !s.hubOn || decide (s.tickId.toNat % size ≠ 0) then s
  else if 1 ≤ s.shedStage then { s with ant.numWin := [] }
  else
    let xs := s.countedTensors
    let t := { s with regs := s.regs.filter (fun (e : Nat × W32) => !isNumWin e.1) }
    let t := xs.foldl (fun u x =>
      let n := fun (i : Nat) => BitVec.ofNat 32 (satAdd 32 (SMap.get 0 s.ant.numWin (3 * x + i)) 0)
      (u.wr (Reg.num (x / 1024) (x % 1024)) (n 0)).wr (Reg.num (x / 1024) (x % 1024) + 4) (n 1)) t
    let t := if bit (s.rd Reg.numCfg) 31 then xs.foldl (fun u x => u.numSummary x (s.tickId - BitVec.ofNat 32 size)) t else t
    { t with ant.numWin := [] }

def execNumWindowEnd (s : State) : Host.Outcome State Fault Refusal := s.done s.numWindowEnd

/-- REPORT_WINDOW_END (21 R489; 07 R198), at the strobe that opens a window of 2^20 ticks: the summaries of the faults, and one
ECC_CORRECTED for each memory kind with corrected errors. -/
def State.reportWindowEnd (s : State) : State :=
  if !s.hubOn || decide (s.tickId.toNat % 2 ^ 20 ≠ 0) then s
  else
    let s := s.endWindows s.winIx
    let s := (List.range 4).foldl (fun t k =>
      let n := s.banks.eccWin.getD k 0
      if n = 0 then t else t.raiseNow Code.eccCorrected { die := Die.hub, unit := k } n) s
    { s with banks.eccWin := [0, 0, 0, 0] }

def execReportWindowEnd (s : State) : Host.Outcome State Fault Refusal := s.done s.reportWindowEnd

end Sys2Proof.Machine
end

