-- ==== Sys2Proof/Machine/Dispatch.lean ====
section
/-! DEFINITION. The dispatch: one arm per command, each one direct call of its meaning. -/

namespace Sys2Proof.Machine

/-- The effect of a command on everything but the queue. -/
def exec (i : Instr) (s : State) : Host.Outcome State Fault Refusal :=
  match i with
  | .sysNop h => Sys2Proof.Machine.execSysNop h s
  | .sysInfo h => Sys2Proof.Machine.execSysInfo h s
  | .sysState h => Sys2Proof.Machine.execSysState h s
  | .sysReset h kind => Sys2Proof.Machine.execSysReset h kind s
  | .regRead h addr count => Sys2Proof.Machine.execRegRead h addr count s
  | .regWrite h addr ws => Sys2Proof.Machine.execRegWrite h addr ws s
  | .sigTable h => Sys2Proof.Machine.execSigTable h s
  | .tickConfig h source cTick => Sys2Proof.Machine.execTickConfig h source cTick s
  | .tickIdSet h id => Sys2Proof.Machine.execTickIdSet h id s
  | .loadBegin h len img => Sys2Proof.Machine.execLoadBegin h len img s
  | .loadChunk h handle off bytes => Sys2Proof.Machine.execLoadChunk h handle off bytes s
  | .relocate h handle ents => Sys2Proof.Machine.execRelocate h handle ents s
  | .patch h slot handle pid value => Sys2Proof.Machine.execPatch h slot handle pid value s
  | .commit h handle => Sys2Proof.Machine.execCommit h handle s
  | .unload h handle mask => Sys2Proof.Machine.execUnload h handle mask s
  | .loadInfo h slot sect off => Sys2Proof.Machine.execLoadInfo h slot sect off s
  | .arm h mask => Sys2Proof.Machine.execArm h mask s
  | .start h mask sAt => Sys2Proof.Machine.execStart h mask sAt s
  | .drain h mask d => Sys2Proof.Machine.execDrain h mask d s
  | .stop h mask => Sys2Proof.Machine.execStop h mask s
  | .resume h mode => Sys2Proof.Machine.execResume h mode s
  | .laneConfig h quad rate modes => Sys2Proof.Machine.execLaneConfig h quad rate modes s
  | .laneTrain h lane => Sys2Proof.Machine.execLaneTrain h lane s
  | .lanePower h lane tx st => Sys2Proof.Machine.execLanePower h lane tx st s
  | .laneGroup h g cfg => Sys2Proof.Machine.execLaneGroup h g cfg s
  | .lanePrbs h lane w => Sys2Proof.Machine.execLanePrbs h lane w s
  | .laneInject h lane w => Sys2Proof.Machine.execLaneInject h lane w s
  | .laneEye h lane => Sys2Proof.Machine.execLaneEye h lane s
  | .linkPersonality h processor id => Sys2Proof.Machine.execLinkPersonality h processor id s
  | .meshRoute h part valid group => Sys2Proof.Machine.execMeshRoute h part valid group s
  | .linkField h f cfg dest exp fill => Sys2Proof.Machine.execLinkField h f cfg dest exp fill s
  | .linkAggregate h st entry items => Sys2Proof.Machine.execLinkAggregate h st entry items s
  | .feConfig h ticks cycle chs => Sys2Proof.Machine.execFeConfig h ticks cycle chs s
  | .primConfig h ents => Sys2Proof.Machine.execPrimConfig h ents s
  | .primSet h sAt ents => Sys2Proof.Machine.execPrimSet h sAt ents s
  | .clickConfig h ents => Sys2Proof.Machine.execClickConfig h ents s
  | .clickCal h mask => Sys2Proof.Machine.execClickCal h mask s
  | .combConfig h pairs => Sys2Proof.Machine.execCombConfig h pairs s
  | .condSet h sAt ents => Sys2Proof.Machine.execCondSet h sAt ents s
  | .trigEnable h sAt en num => Sys2Proof.Machine.execTrigEnable h sAt en num s
  | .busConfig h master outEn inEn => Sys2Proof.Machine.execBusConfig h master outEn inEn s
  | .busCal h busy => Sys2Proof.Machine.execBusCal h busy s
  | .busComp h lSys asym => Sys2Proof.Machine.execBusComp h lSys asym s
  | .busAlign h => Sys2Proof.Machine.execBusAlign h s
  | .busTxMap h ents => Sys2Proof.Machine.execBusTxMap h ents s
  | .acqConfig h cfgs => Sys2Proof.Machine.execAcqConfig h cfgs s
  | .acqArm h mask sAt => Sys2Proof.Machine.execAcqArm h mask sAt s
  | .acqDisarm h mask sAt => Sys2Proof.Machine.execAcqDisarm h mask sAt s
  | .chgConfig h ents => Sys2Proof.Machine.execChgConfig h ents s
  | .acqStream h st cfg => Sys2Proof.Machine.execAcqStream h st cfg s
  | .acqStats h kind idx clear => Sys2Proof.Machine.execAcqStats h kind idx clear s
  | .timeSet h sec ns => Sys2Proof.Machine.execTimeSet h sec ns s
  | .timeStep h off => Sys2Proof.Machine.execTimeStep h off s
  | .timeInc h frac whole => Sys2Proof.Machine.execTimeInc h frac whole s
  | .timeHoldover h enter => Sys2Proof.Machine.execTimeHoldover h enter s
  | .ppsConfig h cfg ofs => Sys2Proof.Machine.execPpsConfig h cfg ofs s
  | .tsConfig h cfg => Sys2Proof.Machine.execTsConfig h cfg s
  | .ptpConfig h lane en oneStep => Sys2Proof.Machine.execPtpConfig h lane en oneStep s
  | .timeFrame h g => Sys2Proof.Machine.execTimeFrame h g s
  | .timeFrameRead h g => Sys2Proof.Machine.execTimeFrameRead h g s
  | .twinConfig h role relay tie => Sys2Proof.Machine.execTwinConfig h role relay tie s
  | .admitPartner h fp => Sys2Proof.Machine.execAdmitPartner h fp s
  | .twinStatus h clear => Sys2Proof.Machine.execTwinStatus h clear s
  | .twinHandover h hAt => Sys2Proof.Machine.execTwinHandover h hAt s
  | .twinDisable h => Sys2Proof.Machine.execTwinDisable h s
  | .pwrStatus h => Sys2Proof.Machine.execPwrStatus h s
  | .feedConfig h bEn returnMs restoreMs keep => Sys2Proof.Machine.execFeedConfig h bEn returnMs restoreMs keep s
  | .loopConfig h mask freeze droopEn guardMv => Sys2Proof.Machine.execLoopConfig h mask freeze droopEn guardMv s
  | .attest h cert nonce => Sys2Proof.Machine.execAttest h cert nonce s
  | .ownerKey h slot revoke key => Sys2Proof.Machine.execOwnerKey h slot revoke key s
  | .fuseBlow h fuse => Sys2Proof.Machine.execFuseBlow h fuse s
  | .fwUpdateBegin h kind len => Sys2Proof.Machine.execFwUpdateBegin h kind len s
  | .fwUpdateChunk h off bytes => Sys2Proof.Machine.execFwUpdateChunk h off bytes s
  | .fwUpdateCommit h kind raise => Sys2Proof.Machine.execFwUpdateCommit h kind raise s
  | .eventLogRead h seq count => Sys2Proof.Machine.execEventLogRead h seq count s
  | .sensorRead h code a b => Sys2Proof.Machine.execSensorRead h code a b s
  | .coreRetire h tile row pos => Sys2Proof.Machine.execCoreRetire h tile row pos s
  | .coreReturn h tile row pos => Sys2Proof.Machine.execCoreReturn h tile row pos s
  | .selftest h mask => Sys2Proof.Machine.execSelftest h mask s
  | .debugRead h addr count ecc => Sys2Proof.Machine.execDebugRead h addr count s ecc
  | .debugWrite h addr ws => Sys2Proof.Machine.execDebugWrite h addr ws s
  | .patRead h table gen key count ecc => Sys2Proof.Machine.execPatRead h table gen key count s ecc
  | .patWrite h table first vals => Sys2Proof.Machine.execPatWrite h table first vals s
  | .patInsert h table kvs => Sys2Proof.Machine.execPatInsert h table kvs s
  | .patDelete h table keys => Sys2Proof.Machine.execPatDelete h table keys s
  | .patGenSwitch h table sAt => Sys2Proof.Machine.execPatGenSwitch h table sAt s
  | .patSync h table => Sys2Proof.Machine.execPatSync h table s
  | .patStats h table clear => Sys2Proof.Machine.execPatStats h table clear s
  | .cmdTail tail pkts => Sys2Proof.Machine.execCmdTail tail pkts s
  | .cmdCfg en size => Sys2Proof.Machine.execCmdCfg en size s
  | .rplCfg en size => Sys2Proof.Machine.execRplCfg en size s
  | .fltCfg en size => Sys2Proof.Machine.execFltCfg en size s
  | .rplHead v => Sys2Proof.Machine.execRplHead v s
  | .fltHead v => Sys2Proof.Machine.execFltHead v s
  | .irqStatus v => Sys2Proof.Machine.execIrqStatus v s
  | .pktWrite ws => Sys2Proof.Machine.execPktWrite ws s
  | .rplRead complete => Sys2Proof.Machine.execRplRead complete s
  | .statRead => Sys2Proof.Machine.execStatRead s
  | .windowBRead addr n ecc => Sys2Proof.Machine.execWindowBRead addr n s ecc
  | .windowBWrite addr bytes => Sys2Proof.Machine.execWindowBWrite addr bytes s
  | .registerWrite addr v => Sys2Proof.Machine.execRegisterWrite addr v s
  | .scCtrlClr tile m => Sys2Proof.Machine.execScCtrlClr tile m s
  | .fbClr k o => Sys2Proof.Machine.execFbClr k o s
  | .reqPrio id v => Sys2Proof.Machine.execReqPrio id v s
  | .strRd st v => Sys2Proof.Machine.execStrRd st v s
  | .injGo lane => Sys2Proof.Machine.execInjGo lane s
  | .todLatch => Sys2Proof.Machine.execTodLatch s
  | .tsTick => Sys2Proof.Machine.execTsTick s
  | .powerOn aMv bMv => Sys2Proof.Machine.execPowerOn aMv bMv s
  | .resetN => Sys2Proof.Machine.execResetN s
  | .perstN => Sys2Proof.Machine.execPerstN s
  | .hubWatchdog => Sys2Proof.Machine.execHubWatchdog s
  | .wardenFwVerify copy ok => Sys2Proof.Machine.execWardenFwVerify copy ok s
  | .hubFwVerify copy ok => Sys2Proof.Machine.execHubFwVerify copy ok s
  | .refMeasure khz => Sys2Proof.Machine.execRefMeasure khz s
  | .pllLock => Sys2Proof.Machine.execPllLock s
  | .hubInitDone cals => Sys2Proof.Machine.execHubInitDone cals s
  | .smbusBlockRead addr code a b => Sys2Proof.Machine.execSmbusBlockRead addr code a b s
  | .tickStrobe => Sys2Proof.Machine.execTickStrobe s
  | .tickOutFall => Sys2Proof.Machine.execTickOutFall s
  | .tickInEdge cyc => Sys2Proof.Machine.execTickInEdge cyc s
  | .tickInWindowEnd => Sys2Proof.Machine.execTickInWindowEnd s
  | .tickInLock => Sys2Proof.Machine.execTickInLock s
  | .tickInLost => Sys2Proof.Machine.execTickInLost s
  | .tickInPhaseTake => Sys2Proof.Machine.execTickInPhaseTake s
  | .droopStretch tile cycle eighths => Sys2Proof.Machine.execDroopStretch tile cycle eighths s
  | .stageGroupCompletion tile m event cycle => Sys2Proof.Machine.execStageGroupCompletion tile m event cycle s
  | .deadlineExpiry tile m event => Sys2Proof.Machine.execDeadlineExpiry tile m event s
  | .outputHandoff k o event => Sys2Proof.Machine.execOutputHandoff k o event s
  | .escalationWindowEnd k o => Sys2Proof.Machine.execEscalationWindowEnd k o s
  | .haltedEntry => Sys2Proof.Machine.execHaltedEntry s
  | .resumeStrobe => Sys2Proof.Machine.execResumeStrobe s
  | .firingStart tile core cyc => Sys2Proof.Machine.execFiringStart tile core cyc s
  | .surveyOverrun tile core => Sys2Proof.Machine.execSurveyOverrun tile core s
  | .mov tile core m => Sys2Proof.Machine.execMov tile core m s
  | .ldv tile core m => Sys2Proof.Machine.execLdv tile core m s
  | .stv tile core m => Sys2Proof.Machine.execStv tile core m s
  | .ldi tile core m => Sys2Proof.Machine.execLdi tile core s m
  | .accclr tile core m => Sys2Proof.Machine.execAccclr tile core s m
  | .dot tile core m => Sys2Proof.Machine.execDot tile core m s
  | .outp tile core m => Sys2Proof.Machine.execOutp tile core m s
  | .xadd tile core m => Sys2Proof.Machine.execXadd tile core m s
  | .accout tile core m => Sys2Proof.Machine.execAccout tile core m s
  | .vadd tile core m => Sys2Proof.Machine.execVadd tile core m s
  | .vmul tile core m => Sys2Proof.Machine.execVmul tile core m s
  | .vmax tile core m => Sys2Proof.Machine.execVmax tile core m s
  | .vmin tile core m => Sys2Proof.Machine.execVmin tile core m s
  | .vfma tile core m => Sys2Proof.Machine.execVfma tile core m s
  | .vcmp tile core m => Sys2Proof.Machine.execVcmp tile core s m
  | .vsel tile core m => Sys2Proof.Machine.execVsel tile core s m
  | .vcvt tile core m => Sys2Proof.Machine.execVcvt tile core m s
  | .vrsc tile core m => Sys2Proof.Machine.execVrsc tile core m s
  | .qpop tile core m => Sys2Proof.Machine.execQpop tile core s m
  | .qpush tile core m => Sys2Proof.Machine.execQpush tile core s m
  | .qfwd tile core m => Sys2Proof.Machine.execQfwd tile core s m
  | .sreq tile core m => Sys2Proof.Machine.execSreq tile core s m
  | .sfuc tile core m => Sys2Proof.Machine.execSfuc tile core s m
  | .nop tile core m => Sys2Proof.Machine.execNop tile core s m
  | .loopOp tile core m => Sys2Proof.Machine.execLoop tile core s m
  | .endOp tile core m => Sys2Proof.Machine.execEnd tile core s m
  | .flitWrite ix held ecc => Sys2Proof.Machine.execFlitWrite ix held s ecc
  | .creditReturn ix => Sys2Proof.Machine.execCreditReturn ix s
  | .retirementThreshold tile core => Sys2Proof.Machine.execRetirementThreshold tile core s
  | .substCopy tile row ecc => Sys2Proof.Machine.execSubstCopy tile row s ecc
  | .substQuietTick tile row ecc => Sys2Proof.Machine.execSubstQuietTick tile row s ecc
  | .substSwitch tile row ecc => Sys2Proof.Machine.execSubstSwitch tile row s ecc
  | .sfuCallStart tile unit slot cyc residue => Sys2Proof.Machine.execSfuCallStart tile unit slot cyc residue s
  | .sfuResult tile unit => Sys2Proof.Machine.execSfuResult tile unit s
  | .kvLoad tile unit => Sys2Proof.Machine.execKvLoad tile unit s
  | .contextArmed => Sys2Proof.Machine.execContextArmed s
  | .contextStartStrobe => Sys2Proof.Machine.execContextStartStrobe s
  | .drainStrobe => Sys2Proof.Machine.execDrainStrobe s
  | .contextRetirement => Sys2Proof.Machine.execContextRetirement s
  | .stopStrobe => Sys2Proof.Machine.execStopStrobe s
  | .surveyDrainRetire k => Sys2Proof.Machine.execSurveyDrainRetire k s
  | .drainTimeout k => Sys2Proof.Machine.execDrainTimeout k s
  | .contextFaulted => Sys2Proof.Machine.execContextFaulted s
  | .scarabStep tile cyc => Sys2Proof.Machine.execScarabStep tile cyc s
  | .scarabHubStep cyc => Sys2Proof.Machine.execScarabHubStep cyc s
  | .passSwitch k ecc => Sys2Proof.Machine.execPassSwitch k s ecc
  | .reservedSlot port slot ecc => Sys2Proof.Machine.execReservedSlot port slot ecc s
  | .arbRequest arb id len cyc acc => Sys2Proof.Machine.execArbRequest arb id len cyc s acc
  | .arbGrant arb cyc => Sys2Proof.Machine.execArbGrant arb cyc s
  | .arbTransferEnd arb cyc ecc => Sys2Proof.Machine.execArbTransferEnd arb cyc s ecc
  | .scrubRead addr ecc => Sys2Proof.Machine.execScrubRead addr ecc s
  | .scrubPassEnd kind seconds => Sys2Proof.Machine.execScrubPassEnd kind seconds s
  | .patRequest ix ecc cyc => Sys2Proof.Machine.execPatRequest ix ecc cyc s
  | .patResult ix => Sys2Proof.Machine.execPatResult ix s
  | .patGenFlip table => Sys2Proof.Machine.execPatGenFlip table s
  | .commitWriteOut ecc => Sys2Proof.Machine.execCommitWriteOut s ecc
  | .commitValid => Sys2Proof.Machine.execCommitValid s
  | .trainingBlock lane w satisfied => Sys2Proof.Machine.execTrainingBlock lane w satisfied s
  | .trainStepTimeout lane => Sys2Proof.Machine.execTrainStepTimeout lane s
  | .trainBackoffEnd lane => Sys2Proof.Machine.execTrainBackoffEnd lane s
  | .autoRetry lane => Sys2Proof.Machine.execAutoRetry lane s
  | .blockReceive lane sync w fill => Sys2Proof.Machine.execBlockReceive lane sync w fill s
  | .lockHuntTimeout lane => Sys2Proof.Machine.execLockHuntTimeout lane s
  | .alignmentMarker lane w late setPoint => Sys2Proof.Machine.execAlignmentMarker lane w late setPoint s
  | .markerSend lane => Sys2Proof.Machine.execMarkerSend lane s
  | .txPllUnlock edge => Sys2Proof.Machine.execTxPllUnlock edge s
  | .txPllRelock edge => Sys2Proof.Machine.execTxPllRelock edge s
  | .lanePowerReturn lane tx => Sys2Proof.Machine.execLanePowerReturn lane tx s
  | .laneEyeDone lane height width => Sys2Proof.Machine.execLaneEyeDone lane height width s
  | .fecCodeword lane message check => Sys2Proof.Machine.execFecCodeword lane message check s
  | .eventHdr g cyc => Sys2Proof.Machine.execEventHdr g cyc s
  | .trailer g st => Sys2Proof.Machine.execTrailer g st s
  | .fieldRelease f => Sys2Proof.Machine.execFieldRelease f s
  | .frameAbsent g st => Sys2Proof.Machine.execFrameAbsent g st s
  | .ctrlCommand g => Sys2Proof.Machine.execCtrlCommand g s
  | .ctrlReply g => Sys2Proof.Machine.execCtrlReply g s
  | .txIdle g => Sys2Proof.Machine.execTxIdle g s
  | .ping g => Sys2Proof.Machine.execPing g s
  | .pong g cyc => Sys2Proof.Machine.execPong g cyc s
  | .timeHdr g => Sys2Proof.Machine.execTimeHdr g s
  | .fastTick g age => Sys2Proof.Machine.execFastTick g age s
  | .ack g => Sys2Proof.Machine.execAck g s
  | .nak g => Sys2Proof.Machine.execNak g s
  | .replayTimeout g => Sys2Proof.Machine.execReplayTimeout g s
  | .readReq g ecc => Sys2Proof.Machine.execReadReq g s ecc
  | .readRsp g => Sys2Proof.Machine.execReadRsp g s
  | .memWrite g => Sys2Proof.Machine.execMemWrite g s
  | .writeAck g => Sys2Proof.Machine.execWriteAck g s
  | .treadReq g ecc => Sys2Proof.Machine.execTreadReq g s ecc
  | .treadRsp g => Sys2Proof.Machine.execTreadRsp g s
  | .treadRelease g => Sys2Proof.Machine.execTreadRelease g s
  | .outboundFrameSend st => Sys2Proof.Machine.execOutboundFrameSend st s
  | .sampleEntry ch j => Sys2Proof.Machine.execSampleEntry ch j s
  | .clickEdge u rising cyc fine => Sys2Proof.Machine.execClickEdge u rising cyc fine s
  | .clickCalDone res => Sys2Proof.Machine.execClickCalDone res s
  | .combinerPulse => Sys2Proof.Machine.execCombinerPulse s
  | .triggerRecord => Sys2Proof.Machine.execTriggerRecord s
  | .decisionDrive j => Sys2Proof.Machine.execDecisionDrive j s
  | .decisionRelease j => Sys2Proof.Machine.execDecisionRelease j s
  | .acqTrigger g => Sys2Proof.Machine.execAcqTrigger g s
  | .acqCapture g ecc => Sys2Proof.Machine.execAcqCapture g ecc s
  | .segmentClose g => Sys2Proof.Machine.execSegmentClose g s
  | .acqRearm g => Sys2Proof.Machine.execAcqRearm g s
  | .acqBufferFree g b => Sys2Proof.Machine.execAcqBufferFree g b s
  | .acqArmStrobe => Sys2Proof.Machine.execAcqArmStrobe s
  | .acqDisarmStrobe => Sys2Proof.Machine.execAcqDisarmStrobe s
  | .changeSample u => Sys2Proof.Machine.execChangeSample u s
  | .streamItemWrite st ecc => Sys2Proof.Machine.execStreamItemWrite st s ecc
  | .primSetStrobe => Sys2Proof.Machine.execPrimSetStrobe s
  | .condSetStrobe => Sys2Proof.Machine.execCondSetStrobe s
  | .trigEnableStrobe => Sys2Proof.Machine.execTrigEnableStrobe s
  | .busSlotLaunch => Sys2Proof.Machine.execBusSlotLaunch s
  | .busSlotReceive lines cyc => Sys2Proof.Machine.execBusSlotReceive lines cyc s
  | .busCalDone loops => Sys2Proof.Machine.execBusCalDone loops s
  | .busAlignDone => Sys2Proof.Machine.execBusAlignDone s
  | .holdoverTimeout => Sys2Proof.Machine.execHoldoverTimeout s
  | .timePllUnlock => Sys2Proof.Machine.execTimePllUnlock s
  | .timePllRelock => Sys2Proof.Machine.execTimePllRelock s
  | .ppsOutRise => Sys2Proof.Machine.execPpsOutRise s
  | .ppsOutFall => Sys2Proof.Machine.execPpsOutFall s
  | .ppsInEdge => Sys2Proof.Machine.execPpsInEdge s
  | .ptpRx lane cyc frame => Sys2Proof.Machine.execPtpRx lane cyc frame s
  | .ptpTx lane cyc tag frame => Sys2Proof.Machine.execPtpTx lane cyc tag frame s
  | .twinAttestation => Sys2Proof.Machine.execTwinAttestation s
  | .attestAnswer a => Sys2Proof.Machine.execAttestAnswer a s
  | .attestTimeout => Sys2Proof.Machine.execAttestTimeout s
  | .attestRetry => Sys2Proof.Machine.execAttestRetry s
  | .digestSend => Sys2Proof.Machine.execDigestSend s
  | .digestReceive => Sys2Proof.Machine.execDigestReceive s
  | .digestCompare => Sys2Proof.Machine.execDigestCompare s
  | .twinRelease => Sys2Proof.Machine.execTwinRelease s
  | .twinTakeover => Sys2Proof.Machine.execTwinTakeover s
  | .partnerAbsent => Sys2Proof.Machine.execPartnerAbsent s
  | .feedSample aV bV busV aI bI aBad bBad temp die => Sys2Proof.Machine.execFeedSample aV bV busV aI bI aBad bBad temp die s
  | .feedFaultClear => Sys2Proof.Machine.execFeedFaultClear s
  | .feedSwitch => Sys2Proof.Machine.execFeedSwitch s
  | .feedReturn => Sys2Proof.Machine.execFeedReturn s
  | .shedEnter stage => Sys2Proof.Machine.execShedEnter stage s
  | .shedStrongStrobe => Sys2Proof.Machine.execShedStrongStrobe s
  | .shedS6 => Sys2Proof.Machine.execShedS6 s
  | .shedRestore stage ecc => Sys2Proof.Machine.execShedRestore stage s ecc
  | .resumeRewriteDone ecc => Sys2Proof.Machine.execResumeRewriteDone s ecc
  | .coolantRange temp => Sys2Proof.Machine.execCoolantRange temp s
  | .avsStep tile raise => Sys2Proof.Machine.execAvsStep tile raise s
  | .clockUnlock => Sys2Proof.Machine.execClockUnlock s
  | .numWindowEnd => Sys2Proof.Machine.execNumWindowEnd s
  | .reportWindowEnd => Sys2Proof.Machine.execReportWindowEnd s
  | .lossOfPower => Sys2Proof.Machine.execLossOfPower s
  | .resetNHigh => Sys2Proof.Machine.execResetNHigh s
  | .signalDetect lane => Sys2Proof.Machine.execSignalDetect lane s
  | .adaptConverged lane => Sys2Proof.Machine.execAdaptConverged lane s
  | .prbsCheckerLock lane bits => Sys2Proof.Machine.execPrbsCheckerLock lane s bits
  | .canaryFailure tile core => Sys2Proof.Machine.execCanaryFailure tile core s
  | .attestDone => Sys2Proof.Machine.execAttestDone s
  | .fuseBlowDone ok => Sys2Proof.Machine.execFuseBlowDone ok s
  | .fwUpdateCommitDone ok => Sys2Proof.Machine.execFwUpdateCommitDone ok s
  | .selftestDone core pass => Sys2Proof.Machine.execSelftestDone core pass s
  | .patSyncDone table ecc => Sys2Proof.Machine.execPatSyncDone table s ecc
  | .jtagInstruction ir => Sys2Proof.Machine.execJtagInstruction ir s

end Sys2Proof.Machine
end

