-- ==== Sys2Proof/WellFormed.lean ====
section
/-! DEFINITION. Which commands are well formed: every field within the width its packet gives it, and every unit named by an
event one the part has (01 R18 to R27; 02; 03; 07; 10; 11; 12; 13). The meanings check again what they use. -/

namespace Sys2Proof

/-- A number that a field of `bits` bits holds. -/
def fits (bits n : Nat) : Bool := decide (n < 2 ^ bits)

def isTile (t : Nat) : Bool := decide (t < 16)

/-- A physical core of a tile: 32 rows of 17 (03 R67). -/
def isCore (c : Nat) : Bool := decide (c < 544)

def isRow (r : Nat) : Bool := decide (r < 32)

def isLane (n : Nat) : Bool := decide (n < 144)

def isGroup (g : Nat) : Bool := decide (g < 64)

def isSlot (k : Nat) : Bool := decide (k < 4)

def isOutput (o : Nat) : Bool := decide (o < 64)

def isStage (n : Nat) : Bool := decide (1 ≤ n ∧ n ≤ 6)

def isEighths (n : Nat) : Bool := decide (1 ≤ n ∧ n ≤ 8)

/-- The levels of a PAM4 codeword: two bits each of 1,300 message bits and of 100 check bits (11 R303). -/
def isCodeword (message check : List Nat) : Bool :=
  message.length == 650 && check.length == 50 && (message ++ check).all (fun x => decide (x < 4))

/-- The two bits of each of 8 cycles that each of the eight bus lines carries (14 R354, R356). -/
def isBusLines (l : List Nat) : Bool := l.length == 8 && l.all (fits 16)

/-- An arbiter index (07 Table 7.10). -/
def isArbiter (i : Nat) : Bool := decide (i < 0x140 ∨ (0x180 ≤ i ∧ i < 0x1F3) ∨ (0x200 ≤ i ∧ i < 0x240))

/-- The arbiter index of a Store port or NoP egress, which have reserved slots (07 R193). -/
def isPort (i : Nat) : Bool := decide ((0x100 ≤ i ∧ i < 0x140) ∨ (0x180 ≤ i ∧ i < 0x1F3))

/-- A requester of Table 7.9. -/
def isRequester (i : Nat) : Bool := decide (i < 0x057 ∨ (0x100 ≤ i ∧ i < 0x104) ∨ (0x140 ≤ i ∧ i < 0x180))

def isLength (n : Nat) : Bool := decide (1 ≤ n)

/-- The payload of a packet holds at most 4,092 words (15 Table 15.1), so at most 16,368 elements of any list in it. -/
def payloadLen (n : Nat) : Bool := decide (n ≤ 16368)

/-- A transport names a lane group and a part of the mesh (11 R310). -/
def Transport.wf : Transport → Bool
  | .inband g src => isGroup g && fits 6 src
  | _ => true

def SigBlock.wf (b : SigBlock) : Bool := fits 32 b.keySlot && fits 32 b.alg && fits 64 b.counter && fits 64 b.bind

/-- The TAG 0xFFFF is reserved (15 Table 15.1). -/
def Hdr.wf (h : Hdr) : Bool := h.transport.wf && decide (h.tag < 0xFFFF) && h.sig.all SigBlock.wf

/-- Whether a command is well formed. -/
def Instr.wf : Instr → Bool
  | .sysNop h => h.wf
  | .sysInfo h => h.wf
  | .sysState h => h.wf
  | .sysReset h kind => h.wf && fits 32 kind
  | .regRead h addr count => h.wf && fits 64 addr && fits 32 count
  | .regWrite h addr ws => h.wf && fits 64 addr && payloadLen ws.length
  | .sigTable h => h.wf
  | .tickConfig h source cTick => h.wf && fits 32 source && fits 32 cTick
  | .tickIdSet h _ => h.wf
  | .loadBegin h len _ => h.wf && fits 64 len
  | .loadChunk h handle off bytes => h.wf && fits 32 handle && fits 64 off && payloadLen bytes.length
  | .relocate h handle ents => h.wf && fits 32 handle && payloadLen ents.length
  | .patch h slot handle pid _ => h.wf && slot.all (fits 32) && fits 32 handle && fits 32 pid
  | .commit h handle => h.wf && fits 32 handle
  | .unload h handle mask => h.wf && handle.all (fits 32) && fits 64 mask
  | .loadInfo h slot sect off => h.wf && fits 32 slot && fits 32 sect && fits 64 off
  | .arm h mask => h.wf && fits 64 mask
  | .start h mask _ => h.wf && fits 64 mask
  | .drain h mask _ => h.wf && fits 64 mask
  | .stop h mask => h.wf && fits 64 mask
  | .resume h mode => h.wf && fits 32 mode
  | .laneConfig h quad rate modes => h.wf && fits 32 quad && fits 32 rate && payloadLen modes.length
  | .laneTrain h lane => h.wf && fits 32 lane
  | .lanePower h lane tx st => h.wf && fits 32 lane && fits 32 tx && fits 32 st
  | .laneGroup h g cfg => h.wf && fits 32 g && cfg.lanes.all isLane
  | .lanePrbs h lane _ => h.wf && fits 32 lane
  | .laneInject h lane _ => h.wf && fits 32 lane
  | .laneEye h lane => h.wf && fits 32 lane
  | .linkPersonality h _ id => h.wf && fits 32 id
  | .meshRoute h part _ group => h.wf && fits 32 part && fits 32 group
  | .linkField h f _ _ _ _ => h.wf && fits 32 f
  | .linkAggregate h st _ items => h.wf && fits 32 st && payloadLen items.length
  | .feConfig h ticks cycle chs => h.wf && fits 32 ticks && fits 32 cycle && payloadLen chs.length
  | .primConfig h ents => h.wf && payloadLen ents.length
  | .primSet h _ ents => h.wf && payloadLen ents.length
  | .clickConfig h ents => h.wf && payloadLen ents.length
  | .clickCal h mask => h.wf && fits 64 mask
  | .combConfig h pairs => h.wf && payloadLen pairs.length
  | .condSet h _ ents => h.wf && payloadLen ents.length
  | .trigEnable h _ _ _ => h.wf
  | .busConfig h _ outEn inEn => h.wf && fits 32 outEn && fits 32 inEn
  | .busCal h busy => h.wf && fits 32 busy
  | .busComp h lSys asym => h.wf && fits 32 lSys && payloadLen asym.length
  | .busAlign h => h.wf
  | .busTxMap h ents => h.wf && payloadLen ents.length
  | .acqConfig h cfgs => h.wf && payloadLen cfgs.length
  | .acqArm h mask _ => h.wf && fits 64 mask
  | .acqDisarm h mask _ => h.wf && fits 64 mask
  | .chgConfig h ents => h.wf && payloadLen ents.length
  | .acqStream h st _ => h.wf && fits 32 st
  | .acqStats h kind idx _ => h.wf && fits 32 kind && fits 32 idx
  | .timeSet h sec ns => h.wf && fits 48 sec && fits 32 ns
  | .timeStep h _ => h.wf
  | .timeInc h frac whole => h.wf && fits 32 frac && fits 32 whole
  | .timeHoldover h _ => h.wf
  | .ppsConfig h _ _ => h.wf
  | .tsConfig h _ => h.wf
  | .ptpConfig h lane _ _ => h.wf && fits 32 lane
  | .timeFrame h g => h.wf && fits 32 g
  | .timeFrameRead h g => h.wf && fits 32 g
  | .twinConfig h _ _ _ => h.wf
  | .admitPartner h _ => h.wf
  | .twinStatus h _ => h.wf
  | .twinHandover h _ => h.wf
  | .twinDisable h => h.wf
  | .pwrStatus h => h.wf
  | .feedConfig h _ returnMs restoreMs _ => h.wf && fits 32 returnMs && fits 32 restoreMs
  | .loopConfig h mask _ _ guardMv => h.wf && fits 64 mask && fits 32 guardMv
  | .attest h _ _ => h.wf
  | .ownerKey h slot _ _ => h.wf && fits 32 slot
  | .fuseBlow h fuse => h.wf && fits 32 fuse
  | .fwUpdateBegin h kind len => h.wf && fits 32 kind && fits 64 len
  | .fwUpdateChunk h off bytes => h.wf && fits 64 off && payloadLen bytes.length
  | .fwUpdateCommit h kind _ => h.wf && fits 32 kind
  | .eventLogRead h seq count => h.wf && fits 32 seq && fits 32 count
  | .sensorRead h code a b => h.wf && fits 32 code && fits 32 a && fits 32 b
  | .coreRetire h tile row pos => h.wf && fits 32 tile && fits 32 row && fits 32 pos
  | .coreReturn h tile row pos => h.wf && fits 32 tile && fits 32 row && fits 32 pos
  | .selftest h mask => h.wf && fits 64 mask
  | .debugRead h addr count _ => h.wf && fits 64 addr && fits 32 count
  | .debugWrite h addr ws => h.wf && fits 64 addr && payloadLen ws.length
  | .patRead h table _ _ count _ => h.wf && fits 32 table && fits 32 count
  | .patWrite h table first vals => h.wf && fits 32 table && fits 32 first && payloadLen vals.length
  | .patInsert h table kvs => h.wf && fits 32 table && payloadLen kvs.length
  | .patDelete h table keys => h.wf && fits 32 table && payloadLen keys.length
  | .patGenSwitch h table _ => h.wf && fits 32 table
  | .patSync h table => h.wf && fits 32 table
  | .patStats h table _ => h.wf && fits 32 table
  | .cmdTail tail pkts => fits 48 tail && payloadLen pkts.length
  | .cmdCfg _ size => fits 48 size
  | .rplCfg _ size => fits 48 size
  | .fltCfg _ size => fits 48 size
  | .rplHead v => fits 48 v
  | .fltHead v => fits 48 v
  | .irqStatus _ => true
  | .pktWrite ws => payloadLen ws.length
  | .rplRead _ => true
  | .statRead => true
  | .windowBRead addr n _ => fits 48 addr && isLength n
  | .windowBWrite addr bytes => fits 48 addr && isLength bytes.length
  | .registerWrite addr _ => fits 48 addr
  | .scCtrlClr tile m => isTile tile && isOutput m
  | .fbClr k o => isSlot k && isOutput o
  | .reqPrio id _ => isRequester id
  | .strRd st _ => fits 4 st
  | .injGo lane => isLane lane
  | .todLatch => true
  | .tsTick => true
  | .powerOn aMv bMv => fits 48 aMv && fits 48 bMv
  | .resetN => true
  | .perstN => true
  | .hubWatchdog => true
  | .wardenFwVerify copy _ => fits 1 copy
  | .hubFwVerify copy _ => fits 1 copy
  | .refMeasure khz => fits 48 khz
  | .pllLock => true
  | .hubInitDone cals => cals.all (fun r => fits 6 r.unit)
  | .smbusBlockRead addr code a b => fits 48 addr && fits 48 code && fits 48 a && fits 48 b
  | .tickStrobe => true
  | .tickOutFall => true
  | .tickInEdge cyc => fits 48 cyc
  | .tickInWindowEnd => true
  | .tickInLock => true
  | .tickInLost => true
  | .tickInPhaseTake => true
  | .droopStretch tile cycle eighths => isTile tile && fits 48 cycle && isEighths eighths
  | .stageGroupCompletion tile m _ cycle => isTile tile && isOutput m && fits 48 cycle
  | .deadlineExpiry tile m _ => isTile tile && isOutput m
  | .outputHandoff k o _ => isSlot k && isOutput o
  | .escalationWindowEnd k o => isSlot k && isOutput o
  | .haltedEntry => true
  | .resumeStrobe => true
  | .firingStart tile core cyc => isTile tile && isCore core && fits 48 cyc
  | .surveyOverrun tile core => isTile tile && isCore core
  | .mov tile core _ => isTile tile && isCore core
  | .ldv tile core _ => isTile tile && isCore core
  | .stv tile core _ => isTile tile && isCore core
  | .ldi tile core _ => isTile tile && isCore core
  | .accclr tile core _ => isTile tile && isCore core
  | .dot tile core _ => isTile tile && isCore core
  | .outp tile core _ => isTile tile && isCore core
  | .xadd tile core _ => isTile tile && isCore core
  | .accout tile core _ => isTile tile && isCore core
  | .vadd tile core _ => isTile tile && isCore core
  | .vmul tile core _ => isTile tile && isCore core
  | .vmax tile core _ => isTile tile && isCore core
  | .vmin tile core _ => isTile tile && isCore core
  | .vfma tile core _ => isTile tile && isCore core
  | .vcmp tile core _ => isTile tile && isCore core
  | .vsel tile core _ => isTile tile && isCore core
  | .vcvt tile core _ => isTile tile && isCore core
  | .vrsc tile core _ => isTile tile && isCore core
  | .qpop tile core _ => isTile tile && isCore core
  | .qpush tile core _ => isTile tile && isCore core
  | .qfwd tile core _ => isTile tile && isCore core
  | .sreq tile core _ => isTile tile && isCore core
  | .sfuc tile core _ => isTile tile && isCore core
  | .nop tile core _ => isTile tile && isCore core
  | .loopOp tile core _ => isTile tile && isCore core
  | .endOp tile core _ => isTile tile && isCore core
  | .flitWrite ix held _ => fits 48 ix && fits 48 held
  | .creditReturn ix => fits 48 ix
  | .retirementThreshold tile core => isTile tile && isCore core
  | .substCopy tile row _ => isTile tile && isRow row
  | .substQuietTick tile row _ => isTile tile && isRow row
  | .substSwitch tile row _ => isTile tile && isRow row
  | .sfuCallStart tile unit slot cyc _ => isTile tile && fits 2 unit && fits 3 slot && fits 48 cyc
  | .sfuResult tile unit => isTile tile && fits 2 unit
  | .kvLoad tile unit => isTile tile && fits 2 unit
  | .contextArmed => true
  | .contextStartStrobe => true
  | .drainStrobe => true
  | .contextRetirement => true
  | .stopStrobe => true
  | .surveyDrainRetire k => isSlot k
  | .drainTimeout k => isSlot k
  | .contextFaulted => true
  | .scarabStep tile cyc => isTile tile && fits 48 cyc
  | .scarabHubStep cyc => fits 48 cyc
  | .passSwitch k _ => isSlot k
  | .reservedSlot port slot _ => isPort port && fits 48 slot
  | .arbRequest arb id len cyc _ => isArbiter arb && isRequester id && isLength len && fits 48 cyc
  | .arbGrant arb cyc => isArbiter arb && fits 48 cyc
  | .arbTransferEnd arb cyc _ => isArbiter arb && fits 48 cyc
  | .scrubRead addr _ => fits 48 addr
  | .scrubPassEnd kind seconds => fits 2 kind && fits 48 seconds
  | .patRequest ix _ cyc => fits 48 ix && fits 48 cyc
  | .patResult ix => fits 48 ix
  | .patGenFlip table => fits 6 table
  | .commitWriteOut _ => true
  | .commitValid => true
  | .trainingBlock lane _ _ => isLane lane
  | .trainStepTimeout lane => isLane lane
  | .trainBackoffEnd lane => isLane lane
  | .autoRetry lane => isLane lane
  | .blockReceive lane sync _ _ => isLane lane && fits 2 sync
  | .lockHuntTimeout lane => isLane lane
  | .alignmentMarker lane _ late setPoint => isLane lane && fits 48 late && setPoint.all (fits 32)
  | .markerSend lane => isLane lane
  | .txPllUnlock edge => fits 2 edge
  | .txPllRelock edge => fits 2 edge
  | .lanePowerReturn lane _ => isLane lane
  | .laneEyeDone lane height width => isLane lane && fits 16 height && fits 16 width
  | .fecCodeword lane message check => isLane lane && isCodeword message check
  | .eventHdr g cyc => isGroup g && fits 48 cyc
  | .trailer g st => isGroup g && fits 8 st
  | .fieldRelease f => fits 10 f
  | .frameAbsent g st => isGroup g && fits 8 st
  | .ctrlCommand g => isGroup g
  | .ctrlReply g => isGroup g
  | .txIdle g => isGroup g
  | .ping g => isGroup g
  | .pong g cyc => isGroup g && fits 48 cyc
  | .timeHdr g => isGroup g
  | .fastTick g age => isGroup g && fits 48 age
  | .ack g => isGroup g
  | .nak g => isGroup g
  | .replayTimeout g => isGroup g
  | .readReq g _ => isGroup g
  | .readRsp g => isGroup g
  | .memWrite g => isGroup g
  | .writeAck g => isGroup g
  | .treadReq g _ => isGroup g
  | .treadRsp g => isGroup g
  | .treadRelease g => isGroup g
  | .outboundFrameSend st => fits 6 st
  | .sampleEntry ch j => fits 10 ch && fits 15 j
  | .clickEdge u _ cyc fine => fits 6 u && fits 48 cyc && fits 9 fine
  | .clickCalDone res => res.all (fun r => fits 6 r.unit)
  | .combinerPulse => true
  | .triggerRecord => true
  | .decisionDrive j => fits 3 j
  | .decisionRelease j => fits 3 j
  | .acqTrigger g => isGroup g
  | .acqCapture g _ => isGroup g
  | .segmentClose g => isGroup g
  | .acqRearm g => isGroup g
  | .acqBufferFree g b => isGroup g && fits 8 b
  | .acqArmStrobe => true
  | .acqDisarmStrobe => true
  | .changeSample u => fits 10 u
  | .streamItemWrite st _ => fits 4 st
  | .primSetStrobe => true
  | .condSetStrobe => true
  | .trigEnableStrobe => true
  | .busSlotLaunch => true
  | .busSlotReceive lines cyc => isBusLines lines && fits 48 cyc
  | .busCalDone loops => loops.all (fun (e : Nat × Nat) => fits 3 e.1 && fits 13 e.2)
  | .busAlignDone => true
  | .holdoverTimeout => true
  | .timePllUnlock => true
  | .timePllRelock => true
  | .ppsOutRise => true
  | .ppsOutFall => true
  | .ppsInEdge => true
  | .ptpRx lane cyc _ => isLane lane && fits 48 cyc
  | .ptpTx lane cyc tag _ => isLane lane && fits 48 cyc && fits 48 tag
  | .twinAttestation => true
  | .attestAnswer _ => true
  | .attestTimeout => true
  | .attestRetry => true
  | .digestSend => true
  | .digestReceive => true
  | .digestCompare => true
  | .twinRelease => true
  | .twinTakeover => true
  | .partnerAbsent => true
  | .feedSample aV bV busV aI bI _ _ _ die => fits 48 aV && fits 48 bV && fits 48 busV && fits 48 aI && fits 48 bI && fits 48 die
  | .feedFaultClear => true
  | .feedSwitch => true
  | .feedReturn => true
  | .shedEnter stage => isStage stage
  | .shedStrongStrobe => true
  | .shedS6 => true
  | .shedRestore stage _ => isStage stage
  | .resumeRewriteDone _ => true
  | .coolantRange _ => true
  | .avsStep tile _ => isTile tile
  | .clockUnlock => true
  | .numWindowEnd => true
  | .reportWindowEnd => true
  | .lossOfPower => true
  | .resetNHigh => true
  | .signalDetect lane => isLane lane
  | .adaptConverged lane => isLane lane
  | .prbsCheckerLock lane _ => isLane lane
  | .canaryFailure tile core => isTile tile && isCore core
  | .attestDone => true
  | .fuseBlowDone _ => true
  | .fwUpdateCommitDone _ => true
  | .selftestDone _ _ => true
  | .patSyncDone table _ => fits 6 table
  | .jtagInstruction ir => fits 48 ir

end Sys2Proof
end

