-- ==== Sys2Proof/Safety.lean ====
section
/-! DEFINITION. What the claims are stated in: the packet a command stands for, when a packet reaches step 10 of Table 15.3, the replies
sent on a transport, what a command leaves unchanged, and the invariant that every step keeps. -/

namespace Sys2Proof

open Sys2Proof.Machine

/-- The header and opcode of a command that is a packet (15 Table 15.1, Table 15.10); none for an event. -/
def Instr.packet : Instr → Option (Hdr × Nat)
  | .sysNop h => some (h, Op.sysNop)
  | .sysInfo h => some (h, Op.sysInfo)
  | .sysState h => some (h, Op.sysState)
  | .sysReset h _ => some (h, Op.sysReset)
  | .regRead h _ _ => some (h, Op.regRead)
  | .regWrite h _ _ => some (h, Op.regWrite)
  | .sigTable h => some (h, Op.sigTable)
  | .tickConfig h _ _ => some (h, Op.tickConfig)
  | .tickIdSet h _ => some (h, Op.tickIdSet)
  | .loadBegin h _ _ => some (h, Op.loadBegin)
  | .loadChunk h _ _ _ => some (h, Op.loadChunk)
  | .relocate h _ _ => some (h, Op.relocate)
  | .patch h _ _ _ _ => some (h, Op.patch)
  | .commit h _ => some (h, Op.commit)
  | .unload h _ _ => some (h, Op.unload)
  | .loadInfo h _ _ _ => some (h, Op.loadInfo)
  | .arm h _ => some (h, Op.arm)
  | .start h _ _ => some (h, Op.start)
  | .drain h _ _ => some (h, Op.drain)
  | .stop h _ => some (h, Op.stop)
  | .resume h _ => some (h, Op.resume)
  | .laneConfig h _ _ _ => some (h, Op.laneConfig)
  | .laneTrain h _ => some (h, Op.laneTrain)
  | .lanePower h _ _ _ => some (h, Op.lanePower)
  | .laneGroup h _ _ => some (h, Op.laneGroup)
  | .lanePrbs h _ _ => some (h, Op.lanePrbs)
  | .laneInject h _ _ => some (h, Op.laneInject)
  | .laneEye h _ => some (h, Op.laneEye)
  | .linkPersonality h _ _ => some (h, Op.linkPersonality)
  | .meshRoute h _ _ _ => some (h, Op.meshRoute)
  | .linkField h _ _ _ _ _ => some (h, Op.linkField)
  | .linkAggregate h _ _ _ => some (h, Op.linkAggregate)
  | .feConfig h _ _ _ => some (h, Op.feConfig)
  | .primConfig h _ => some (h, Op.primConfig)
  | .primSet h _ _ => some (h, Op.primSet)
  | .clickConfig h _ => some (h, Op.clickConfig)
  | .clickCal h _ => some (h, Op.clickCal)
  | .combConfig h _ => some (h, Op.combConfig)
  | .condSet h _ _ => some (h, Op.condSet)
  | .trigEnable h _ _ _ => some (h, Op.trigEnable)
  | .busConfig h _ _ _ => some (h, Op.busConfig)
  | .busCal h _ => some (h, Op.busCal)
  | .busComp h _ _ => some (h, Op.busComp)
  | .busAlign h => some (h, Op.busAlign)
  | .busTxMap h _ => some (h, Op.busTxMap)
  | .acqConfig h _ => some (h, Op.acqConfig)
  | .acqArm h _ _ => some (h, Op.acqArm)
  | .acqDisarm h _ _ => some (h, Op.acqDisarm)
  | .chgConfig h _ => some (h, Op.chgConfig)
  | .acqStream h _ _ => some (h, Op.acqStream)
  | .acqStats h _ _ _ => some (h, Op.acqStats)
  | .timeSet h _ _ => some (h, Op.timeSet)
  | .timeStep h _ => some (h, Op.timeStep)
  | .timeInc h _ _ => some (h, Op.timeInc)
  | .timeHoldover h _ => some (h, Op.timeHoldover)
  | .ppsConfig h _ _ => some (h, Op.ppsConfig)
  | .tsConfig h _ => some (h, Op.tsConfig)
  | .ptpConfig h _ _ _ => some (h, Op.ptpConfig)
  | .timeFrame h _ => some (h, Op.timeFrame)
  | .timeFrameRead h _ => some (h, Op.timeFrameRead)
  | .twinConfig h _ _ _ => some (h, Op.twinConfig)
  | .admitPartner h _ => some (h, Op.admitPartner)
  | .twinStatus h _ => some (h, Op.twinStatus)
  | .twinHandover h _ => some (h, Op.twinHandover)
  | .twinDisable h => some (h, Op.twinDisable)
  | .pwrStatus h => some (h, Op.pwrStatus)
  | .feedConfig h _ _ _ _ => some (h, Op.feedConfig)
  | .loopConfig h _ _ _ _ => some (h, Op.loopConfig)
  | .attest h _ _ => some (h, Op.attest)
  | .ownerKey h _ _ _ => some (h, Op.ownerKey)
  | .fuseBlow h _ => some (h, Op.fuseBlow)
  | .fwUpdateBegin h _ _ => some (h, Op.fwUpdateBegin)
  | .fwUpdateChunk h _ _ => some (h, Op.fwUpdateChunk)
  | .fwUpdateCommit h _ _ => some (h, Op.fwUpdateCommit)
  | .eventLogRead h _ _ => some (h, Op.eventLogRead)
  | .sensorRead h _ _ _ => some (h, Op.sensorRead)
  | .coreRetire h _ _ _ => some (h, Op.coreRetire)
  | .coreReturn h _ _ _ => some (h, Op.coreReturn)
  | .selftest h _ => some (h, Op.selftest)
  | .debugRead h _ _ _ => some (h, Op.debugRead)
  | .debugWrite h _ _ => some (h, Op.debugWrite)
  | .patRead h _ _ _ _ _ => some (h, Op.patRead)
  | .patWrite h _ _ _ => some (h, Op.patWrite)
  | .patInsert h _ _ => some (h, Op.patInsert)
  | .patDelete h _ _ => some (h, Op.patDelete)
  | .patGenSwitch h _ _ => some (h, Op.patGenSwitch)
  | .patSync h _ => some (h, Op.patSync)
  | .patStats h _ _ => some (h, Op.patStats)
  | .cmdTail _ _ => none
  | .cmdCfg _ _ => none
  | .rplCfg _ _ => none
  | .fltCfg _ _ => none
  | .rplHead _ => none
  | .fltHead _ => none
  | .irqStatus _ => none
  | .pktWrite _ => none
  | .rplRead _ => none
  | .statRead => none
  | .windowBRead _ _ _ => none
  | .windowBWrite _ _ => none
  | .registerWrite _ _ => none
  | .scCtrlClr _ _ => none
  | .fbClr _ _ => none
  | .reqPrio _ _ => none
  | .strRd _ _ => none
  | .injGo _ => none
  | .todLatch => none
  | .tsTick => none
  | .powerOn _ _ => none
  | .resetN => none
  | .perstN => none
  | .hubWatchdog => none
  | .wardenFwVerify _ _ => none
  | .hubFwVerify _ _ => none
  | .refMeasure _ => none
  | .pllLock => none
  | .hubInitDone _ => none
  | .smbusBlockRead _ _ _ _ => none
  | .tickStrobe => none
  | .tickOutFall => none
  | .tickInEdge _ => none
  | .tickInWindowEnd => none
  | .tickInLock => none
  | .tickInLost => none
  | .tickInPhaseTake => none
  | .droopStretch _ _ _ => none
  | .stageGroupCompletion _ _ _ _ => none
  | .deadlineExpiry _ _ _ => none
  | .outputHandoff _ _ _ => none
  | .escalationWindowEnd _ _ => none
  | .haltedEntry => none
  | .resumeStrobe => none
  | .firingStart _ _ _ => none
  | .surveyOverrun _ _ => none
  | .mov _ _ _ => none
  | .ldv _ _ _ => none
  | .stv _ _ _ => none
  | .ldi _ _ _ => none
  | .accclr _ _ _ => none
  | .dot _ _ _ => none
  | .outp _ _ _ => none
  | .xadd _ _ _ => none
  | .accout _ _ _ => none
  | .vadd _ _ _ => none
  | .vmul _ _ _ => none
  | .vmax _ _ _ => none
  | .vmin _ _ _ => none
  | .vfma _ _ _ => none
  | .vcmp _ _ _ => none
  | .vsel _ _ _ => none
  | .vcvt _ _ _ => none
  | .vrsc _ _ _ => none
  | .qpop _ _ _ => none
  | .qpush _ _ _ => none
  | .qfwd _ _ _ => none
  | .sreq _ _ _ => none
  | .sfuc _ _ _ => none
  | .nop _ _ _ => none
  | .loopOp _ _ _ => none
  | .endOp _ _ _ => none
  | .flitWrite _ _ _ => none
  | .creditReturn _ => none
  | .retirementThreshold _ _ => none
  | .substCopy _ _ _ => none
  | .substQuietTick _ _ _ => none
  | .substSwitch _ _ _ => none
  | .sfuCallStart _ _ _ _ _ => none
  | .sfuResult _ _ => none
  | .kvLoad _ _ => none
  | .contextArmed => none
  | .contextStartStrobe => none
  | .drainStrobe => none
  | .contextRetirement => none
  | .stopStrobe => none
  | .surveyDrainRetire _ => none
  | .drainTimeout _ => none
  | .contextFaulted => none
  | .scarabStep _ _ => none
  | .scarabHubStep _ => none
  | .passSwitch _ _ => none
  | .reservedSlot _ _ _ => none
  | .arbRequest _ _ _ _ _ => none
  | .arbGrant _ _ => none
  | .arbTransferEnd _ _ _ => none
  | .scrubRead _ _ => none
  | .scrubPassEnd _ _ => none
  | .patRequest _ _ _ => none
  | .patResult _ => none
  | .patGenFlip _ => none
  | .commitWriteOut _ => none
  | .commitValid => none
  | .trainingBlock _ _ _ => none
  | .trainStepTimeout _ => none
  | .trainBackoffEnd _ => none
  | .autoRetry _ => none
  | .blockReceive _ _ _ _ => none
  | .lockHuntTimeout _ => none
  | .alignmentMarker _ _ _ _ => none
  | .markerSend _ => none
  | .txPllUnlock _ => none
  | .txPllRelock _ => none
  | .lanePowerReturn _ _ => none
  | .laneEyeDone _ _ _ => none
  | .fecCodeword _ _ _ => none
  | .eventHdr _ _ => none
  | .trailer _ _ => none
  | .fieldRelease _ => none
  | .frameAbsent _ _ => none
  | .ctrlCommand _ => none
  | .ctrlReply _ => none
  | .txIdle _ => none
  | .ping _ => none
  | .pong _ _ => none
  | .timeHdr _ => none
  | .fastTick _ _ => none
  | .ack _ => none
  | .nak _ => none
  | .replayTimeout _ => none
  | .readReq _ _ => none
  | .readRsp _ => none
  | .memWrite _ => none
  | .writeAck _ => none
  | .treadReq _ _ => none
  | .treadRsp _ => none
  | .treadRelease _ => none
  | .outboundFrameSend _ => none
  | .sampleEntry _ _ => none
  | .clickEdge _ _ _ _ => none
  | .clickCalDone _ => none
  | .combinerPulse => none
  | .triggerRecord => none
  | .decisionDrive _ => none
  | .decisionRelease _ => none
  | .acqTrigger _ => none
  | .acqCapture _ _ => none
  | .segmentClose _ => none
  | .acqRearm _ => none
  | .acqBufferFree _ _ => none
  | .acqArmStrobe => none
  | .acqDisarmStrobe => none
  | .changeSample _ => none
  | .streamItemWrite _ _ => none
  | .primSetStrobe => none
  | .condSetStrobe => none
  | .trigEnableStrobe => none
  | .busSlotLaunch => none
  | .busSlotReceive _ _ => none
  | .busCalDone _ => none
  | .busAlignDone => none
  | .holdoverTimeout => none
  | .timePllUnlock => none
  | .timePllRelock => none
  | .ppsOutRise => none
  | .ppsOutFall => none
  | .ppsInEdge => none
  | .ptpRx _ _ _ => none
  | .ptpTx _ _ _ _ => none
  | .twinAttestation => none
  | .attestAnswer _ => none
  | .attestTimeout => none
  | .attestRetry => none
  | .digestSend => none
  | .digestReceive => none
  | .digestCompare => none
  | .twinRelease => none
  | .twinTakeover => none
  | .partnerAbsent => none
  | .feedSample _ _ _ _ _ _ _ _ _ => none
  | .feedFaultClear => none
  | .feedSwitch => none
  | .feedReturn => none
  | .shedEnter _ => none
  | .shedStrongStrobe => none
  | .shedS6 => none
  | .shedRestore _ _ => none
  | .resumeRewriteDone _ => none
  | .coolantRange _ => none
  | .avsStep _ _ => none
  | .clockUnlock => none
  | .numWindowEnd => none
  | .reportWindowEnd => none
  | .lossOfPower => none
  | .resetNHigh => none
  | .signalDetect _ => none
  | .adaptConverged _ => none
  | .prbsCheckerLock _ _ => none
  | .canaryFailure _ _ => none
  | .attestDone => none
  | .fuseBlowDone _ => none
  | .fwUpdateCommitDone _ => none
  | .selftestDone _ _ => none
  | .patSyncDone _ _ => none
  | .jtagInstruction _ => none

namespace Machine

/-- Whether a packet passes steps 6 to 9 of Table 15.3, and the ROM restriction of 18 R451, so that step 10 decides it. -/
def State.ready (s : State) (h : Hdr) (op : Nat) : Bool :=
  s.served h.transport && s.transportOk h.transport op && opLegal op s.dev.state &&
  (match h.sig with
   | none => !opSigned op
   | some b => opSigned op && (s.sigCheck b none).isNone) &&
  !s.host.async.any (fun a => a.transport == h.transport && a.tag == h.tag) &&
  (!opAsync op || decide (s.host.async.length < 64)) && (!s.warden.romOnly || romServes op)

/-- The replies of a transport so far, oldest first; those the PCIe ring has no room for wait at the end (15 R392, R397, R398). -/
def State.outbox (s : State) : Transport → List Reply
  | .pcie => s.host.replies ++ s.host.held
  | .spi => s.host.spiReplies
  | .inband g src => (s.host.inbandReplies.filter (fun (e : Nat × Nat × Reply) => e.1 == g && e.2.1 == src)).map (fun e => e.2.2)

/-- From `s` to `t` one reply to the packet was sent on its transport, with this status and payload. -/
def Replied (s t : State) (h : Hdr) (op status : Nat) (out : List W32) : Prop :=
  ∃ r : Reply, t.outbox h.transport = s.outbox h.transport ++ [r] ∧ r.transport = h.transport ∧ r.tag = h.tag ∧ r.opcode = op ∧
    r.completion = false ∧ r.status = status ∧ r.payload = out

/-- The reply OK of a synchronous command, which QUIET suppresses (15 R379). -/
def Answered (s t : State) (h : Hdr) (op : Nat) (out : List W32) : Prop :=
  if h.quiet then t.outbox h.transport = s.outbox h.transport else Replied s t h op Status.ok out

/-- The reply ACCEPTED of an asynchronous command, which is outstanding from then on (15 R386). -/
def Taken (s t : State) (h : Hdr) (op mask : Nat) (tick : W32) : Prop :=
  Replied s t h op Status.accepted [] ∧ t.host.async = s.host.async ++ [⟨h.transport, h.tag, op, mask, tick⟩]

/-- From `s` to `t` the outstanding command `a` was completed with one completion on its transport (15 R386). -/
def Completed (s t : State) (a : Async) (status : Nat) (out : List W32) : Prop :=
  ∃ r : Reply, t.outbox a.transport = s.outbox a.transport ++ [r] ∧ r.transport = a.transport ∧ r.tag = a.tag ∧ r.opcode = a.opcode ∧
    r.completion = true ∧ r.status = status ∧ r.payload = out

/-- The outstanding commands with an opcode. -/
def State.openOf (s : State) (op : Nat) : List Async := s.host.async.filter (fun a => a.opcode == op)

/-- No register changes but those listed; sending a reply moves RPL_TAIL and may set IRQ_STATUS.REPLY (15 R391, R394). -/
def SameRegs (s t : State) (except : List Nat) : Prop := ∀ a, a ∉ except → t.rd a = s.rd a

/-- No byte of memory changes. -/
def SameMem (s t : State) : Prop := ∀ a, t.rdB a = s.rdB a

/-- The registers that a reply may change. -/
def replyRegs : List Nat := [Reg.rplTail, Reg.irqStatus]

/-- The parts of the state beside the queue, the registers, the memory and the host interface. -/
inductive Part where
  | poison | dev | windows | log | owners | evidence | tod | tick | clk | ctx | ant | subst | scarab | banks | link | fe | acq | bus
  | twin | pwr | loader | warden | free
  deriving DecidableEq, Repr

/-- Whether a part is the same in two states. -/
def Part.Same (s t : State) : Part → Prop
  | .poison => t.poison = s.poison
  | .dev => t.dev = s.dev
  | .windows => t.windows = s.windows
  | .log => t.log = s.log
  | .owners => t.owners = s.owners
  | .evidence => t.evidence = s.evidence
  | .tod => t.tod = s.tod
  | .tick => t.tick = s.tick
  | .clk => t.clk = s.clk
  | .ctx => t.ctx = s.ctx
  | .ant => t.ant = s.ant
  | .subst => t.subst = s.subst
  | .scarab => t.scarab = s.scarab
  | .banks => t.banks = s.banks
  | .link => t.link = s.link
  | .fe => t.fe = s.fe
  | .acq => t.acq = s.acq
  | .bus => t.bus = s.bus
  | .twin => t.twin = s.twin
  | .pwr => t.pwr = s.pwr
  | .loader => t.loader = s.loader
  | .warden => t.warden = s.warden
  | .free => t.free = s.free

/-- What a command leaves unchanged: every byte of memory, every register but those listed and those a reply may change, every part
but those listed. -/
def Frame (s t : State) (regs : List Nat) (parts : List Part) : Prop :=
  SameRegs s t (replyRegs ++ regs) ∧ SameMem s t ∧ ∀ p, p ∉ parts → p.Same s t

/-- The registers that raising a code may change: its counter, the fault ring, the log and IRQ_STATUS (21 R488 to R491). -/
def raiseRegs (code : Nat) : List Nat :=
  [Reg.fcCount code, Reg.fltTail, Reg.faultSummary, Reg.fltDrops, Reg.logSeq, Reg.irqStatus]

/-- The parts that raising a code may change: its report window, the event log and the twin's evidence. -/
def raiseParts : List Part := [.windows, .log, .evidence]

/-- From `s` to `t` a code was raised once, as far as its counter shows (21 R488). -/
def Raised (s t : State) (code : Nat) : Prop := t.rd (Reg.fcCount code) = satInc (s.rd (Reg.fcCount code))

/-- Nothing falls due by itself at the current strobe: no shedding, escalation, fault, drain, retirement or unload. -/
def State.calm (s : State) : Prop :=
  s.pwr.strongAt = none ∧ s.clk.escalateAt = none ∧
  ∀ k, k < 4 → (s.cx k).drainAt = none ∧ (s.cx k).faultAt = none ∧ (s.cx k).retireAt = none ∧ (s.cx k).unloadAt = none

/-- The firing of a core has reached instruction `i`, whose word is not poisoned (03 R72, R77). -/
def State.atIns (s : State) (t c : Nat) (f : Firing) (i : AntIns) : Prop :=
  coreOk t c = true ∧ s.firingOf t c = some f ∧ s.isPoison (iramAddr f.tile f.core f.ctx f.pc) 16 = false ∧
  antIns (s.rdLE (iramAddr f.tile f.core f.ctx f.pc) 16) = i

/-- The firing `f` as it issues `i`, and the state in which `i` reads its operands: the results of the core that are due by then are read
(03 R72, R73). -/
def State.atIssue (s : State) (f : Firing) (i : AntIns) (m : AntMeas) : Firing × State :=
  let g := s.issuing f i (issueCycles i + m.waits)
  (g, (s.settleCore f.tile f.core g.clk).setFiring g)

/-- From `s` to `t` the firing `f` has moved past `i`: its PC and loops by R72, in the cycle after it issued or, for the control class,
when its cycles have run; the unit of `i` is held until then. -/
def Moved (s t : State) (f : Firing) (i : AntIns) (m : AntMeas) : Prop :=
  ∃ g n, g = (s.atIssue f i m).1 ∧ n = issueCycles i + m.waits ∧
    t.firingOf f.tile f.core = some { g with pc := (nextPc f.pc f.loops).1 % 512, loops := (nextPc f.pc f.loops).2,
                                             next := g.clk + (if i.cls < 5 then 1 else n) } ∧
    (i.cls < 5 → SMap.get 0 t.ant.units (unitKey f.tile f.core i.cls) = g.clk + n)

/-- No frame of class S and no reply waits to go out on a group (11 R312; 15 R398). -/
def State.txClear (s : State) (g : Nat) : Prop :=
  (s.grpSt g).waits = [] ∧ (s.host.inbandReplies.filter (fun e => e.1 == g)).length ≤ (s.grpSt g).repSent

/-- A group's transmit path takes a class-S frame at once: class S is up, nothing waits, a place among the 64 is free, and no position is
reserved for class T (11 R312, R313). -/
def State.txOpen (s : State) (g : Nat) : Prop :=
  s.txClear g ∧ (s.grpSt g).down = false ∧ (s.grpSt g).kept.length < 64 ∧ s.linkSlots g = []

/-- The FAST blocks handed to a group. -/
def State.fastSent (s : State) (g : Nat) : List W64 := (s.link.blocks.filter (fun e => e.1 == 256 + g)).map (·.2)

/-- The blocks that a lane has received since the last block of a frame (11 R300). -/
def State.blocksSince (s : State) (n last : Nat) : Nat :=
  (s.lane n).sinceMarker + (if (s.lane n).seqSeen.getD 0 = last / 2 ^ 15 then 0 else 16384) - last % 2 ^ 15

/-- Where a route sends a flit, trees apart (03 Table 3.8). -/
def routeDest (f : Firing) (w : W32) : Option Dest :=
  match fld w 28 3 with
  | 0 => some (.core f.tile (16 * fld w 20 5 + fld w 16 4))
  | 2 => some (.stop (fld w 16 9))
  | 3 => some (.store f.tile (fld w 16 2))
  | 4 => some (.decision f.tile (fld w 16 8))
  | _ => none

/-- The rings that Scarab sees over the tiles that a condition selects (06 R176). -/
def State.scarabRings (s : State) (p : Nat → Bool) : List (List WaitArc) :=
  let nodes := sortBy (fun a b => decide (a ≤ b)) ((s.scarab.blocked.map (·.1)).filter (fun n => p (nodeTile n)))
  ringsOf nodes ((nodes.flatMap s.waitArcs).filter (fun e => nodes.elem e.dst))

/-- Neither shedding nor Halted comes into force at the current strobe, and each of the four context slots has its run (06 R165). -/
def State.ordinary (s : State) : Prop :=
  s.hubOn = true ∧ s.ctx.length = 4 ∧ s.due s.pwr.strongAt = false ∧ s.due s.clk.escalateAt = false

/-- The cores that contexts are loaded on and the monitored groups lie on the part (01 R15; 02 R49). -/
def State.inPlace (s : State) : Prop :=
  (∀ k, k < 4 → ∀ e ∈ (s.cx k).cores, e.1 < 16 ∧ e.2 < 512) ∧ ∀ g ∈ s.clk.groups, g.1 < 16 ∧ g.2 < 64

/-- The registers that a flush of a context may change, stale flits apart: VALID and the queues of its cores, the spilled flits of its tiles, ENABLE
of its monitors (06 R162). -/
def State.flushRegs (s : State) (k : Nat) : List Nat :=
  (s.coresOf k).flatMap (fun e => Reg.ctxCfg e.1 e.2 k :: (List.range 8).map (Reg.qstat e.1 e.2 k)) ++
  ((s.cx k).cores.map (fun e => Reg.scarab e.1 + 0xC) ++ s.clk.groups.map (fun g => Reg.scCtrl g.1 g.2))

/-- Registers and memory are in canonical form. -/
def State.inv (s : State) : Bool := Registers.wf s.regs && Memory.wf s.mem

end Machine

end Sys2Proof
end

