-- ==== Sys2Proof/Certificates/Slice0/Obligations.lean ====
section
/-! DEFINITION. What is claimed of the machine, one proposition each; OBLIGATIONS.json says of every one what rule it formalises. -/

open Sys2Proof Sys2Proof.Machine

/-- A step is exec of the command at the front of the queue on the rest; with none waiting the block idles (log 1) (15 Commands and states,
log 1). -/
def Obligations.StepRunsTheFrontCommand : Prop :=
  (∀ (c : Instr) (rest : List Instr) (s : State), step { s with pending := c :: rest } = exec c { s with pending := rest }) ∧
  ∀ s : State, s.pending = [] → step s = .next s

/-- No command changes the queue of commands that wait; a packet always has an effect, and only an event can name an absent unit (15
Commands and states, log 1, log 2). -/
def Obligations.ExecLeavesTheQueue : Prop :=
  ∀ (i : Instr) (s : State), (∀ t, exec i s = .next t → t.pending = s.pending) ∧ (i.packet ≠ none → ∃ t, exec i s = .next t) ∧
    ((∃ t, exec i s = .next t) ∨ exec i s = .fault .illFormed)

/-- Every step keeps registers and memory in canonical form: addresses rising, nothing listed that equals its reset value (00 R7, 00 R11, 07
R186, log 6). -/
def Obligations.StepKeepsCanonicalForm : Prop :=
  ∀ s t : State, s.inv = true → step s = .next t → t.inv = true

/-- After reset the device is Idle, the contexts Empty, C_TICK 40, TICK_ID 0, and registers and memory are in canonical form (R464, R469,
R383, log 25). -/
def Obligations.ResetIsCanonicalAndIdle : Prop :=
  State.reset.inv = true ∧ State.reset.pending = [] ∧ State.reset.dev.state = .idle ∧
  (∀ k, k < 4 → State.reset.ctxState k = Ctx.empty) ∧ State.reset.rd Reg.tickCfg = 40 ∧ State.reset.tickId = 0 ∧
  State.reset.tick.pendingId = some 0 ∧ State.reset.tick.running = true ∧ State.reset.host.async = [] ∧ State.reset.mem = []

/-- A command packet that the device state does not permit has no effect but its reply STATE_ILLEGAL (R382, R385, R381, Table 15.10). -/
def Obligations.IllegalStateCommandHasNoEffect : Prop :=
  ∀ (i : Instr) (h : Hdr) (op : Nat) (s : State),
    i.packet = some (h, op) → op ≠ Op.admitPartner → op ≠ Op.coreRetire →
    s.served h.transport = true → s.transportOk h.transport op = true → (h.sig = none ∨ opSigned op = true) →
    opLegal op s.dev.state = false →
    ∃ t, exec i s = .next t ∧ Replied s t h op Status.stateIllegal [0xFFFF0000] ∧ Frame s t [] [] ∧ t.host.async = s.host.async

/-- Steps 6 to 9 of Table 15.3 reject a packet command with TRANSPORT_DENIED, SIG_REQUIRED, TAG_IN_USE or ASYNC_FULL and no effect (R379,
R382, R386, R398, Table 15.3). -/
def Obligations.PacketRejectionOrder : Prop :=
  ∀ (i : Instr) (h : Hdr) (op : Nat) (s : State),
    i.packet = some (h, op) → op ≠ Op.admitPartner → op ≠ Op.coreRetire → s.served h.transport = true →
    (opSigned op = false → h.sig ≠ none →
      ∃ t, exec i s = .next t ∧ Replied s t h op Status.pktReserved [0xFFFF0002] ∧ Frame s t [] []) ∧
    ((h.sig = none ∨ opSigned op = true) → s.transportOk h.transport op = false →
      ∃ t, exec i s = .next t ∧ Replied s t h op Status.transportDenied [0xFFFF0000] ∧ Frame s t [] []) ∧
    (h.sig = none → s.transportOk h.transport op = true → opLegal op s.dev.state = true →
      (opSigned op = true →
        ∃ t, exec i s = .next t ∧ Replied s t h op Status.sigRequired [0xFFFF0000] ∧ Frame s t [] []) ∧
      (opSigned op = false → (∃ a ∈ s.host.async, a.transport = h.transport ∧ a.tag = h.tag) →
        ∃ t, exec i s = .next t ∧ Replied s t h op Status.tagInUse [0xFFFF0000] ∧ Frame s t [] []) ∧
      (opSigned op = false → (¬ ∃ a ∈ s.host.async, a.transport = h.transport ∧ a.tag = h.tag) → opAsync op = true →
        64 ≤ s.host.async.length →
        ∃ t, exec i s = .next t ∧ Replied s t h op Status.asyncFull [0xFFFF0000] ∧ Frame s t [] []))

/-- SYS_NOP, SYS_INFO, SYS_STATE and SIG_TABLE reply with what Table 15.9 names and change nothing (R403, R63, R379, Table 15.9, log 25).
The conclusion for each of sysNop, sysInfo, sysState, sigTable, on conditions on the state and the operands alone, is that exec answers
a next state, with its own effect. -/
def Obligations.SystemCommandsReply : Prop :=
  ∀ (s : State) (h : Hdr),
    (s.ready h Op.sysNop = true →
      ∃ t, exec (.sysNop h) s = .next t ∧ Answered s t h Op.sysNop [] ∧ Frame s t [] []) ∧
    (s.ready h Op.sysState = true →
      ∃ t, exec (.sysState h) s = .next t ∧ Frame s t [] [] ∧
        Answered s t h Op.sysState
          [s.waStateWord, s.rd (Reg.ctxrState 0), s.rd (Reg.ctxrState 1), s.rd (Reg.ctxrState 2), s.rd (Reg.ctxrState 3), s.tickId]) ∧
    (s.ready h Op.sigTable = true →
      ∃ t, exec (.sigTable h) s = .next t ∧ Frame s t [] [] ∧
        Answered s t h Op.sigTable
          ([BitVec.ofNat 32 s.sigId, 4, 6, 6, 4, 3, 7, 8, 13, 4, 23, 12, 4] ++ (if s.dev.stepB0 then [26, 22] else [30, 24]))) ∧
    (s.ready h Op.sysInfo = true →
      ∃ t out, exec (.sysInfo h) s = .next t ∧ Frame s t [] [] ∧ Answered s t h Op.sysInfo out ∧
        out.take 2 = [0xF048, BitVec.ofNat 32 s.sigId] ∧ (out.drop 4).take 12 = fpWords identityFp)

/-- REG_READ replies the registers of a mapped range; REG_WRITE and REGISTER_WRITE change exactly the RW bits of a plain register (R8, R9,
R406, R395, Table 0.3). The conclusion for each of regRead, regWrite, registerWrite, on conditions on the state and the operands alone,
is that exec answers a next state, with its own effect. -/
def Obligations.RegisterReadsAndWrites : Prop :=
  (∀ (s : State) (h : Hdr) (addr n : Nat),
    s.ready h Op.regRead = true → 1 ≤ n → n ≤ 1024 → csrRange addr n = true → Reg.todLatch ∉ wordAddrs addr n →
    ∃ t, exec (.regRead h addr n) s = .next t ∧ Answered s t h Op.regRead ((wordAddrs addr n).map s.shown) ∧ Frame s t [] []) ∧
  ∀ (a : Nat) (m : W32),
    (a = Reg.numCfg ∧ m = 0x8000001F) ∨ (a = Reg.csr + 0x100 ∧ m = 0xFFFFFFFF) ∨ (a = Reg.csr + 0x104 ∧ m = 0xFFFFFFFF) ∨
      (∃ k, k < 4 ∧ a = Reg.ctxrDrainTo k ∧ m = 0x1F) →
    (∀ (s : State) (h : Hdr) (v : W32), s.ready h Op.regWrite = true →
      ∃ t, exec (.regWrite h a [v]) s = .next t ∧ t.rd a = (s.rd a &&& ~~~m) ||| (v &&& m) ∧ Answered s t h Op.regWrite [] ∧
        Frame s t [a] []) ∧
    (∀ (s : State) (v : W32), s.hubOn = true →
      ∃ t, exec (.registerWrite a v) s = .next t ∧ t.rd a = (s.rd a &&& ~~~m) ||| (v &&& m) ∧ Frame s t [a] [])

/-- Window B and debug accesses read and write memory bytes exactly; DEBUG_LOCK refuses debug access (R186, R396, R407, R456). The
conclusion for each of debugRead, debugWrite, windowBRead, windowBWrite, on conditions on the state and the operands alone, is that exec
answers a next state, with its own effect. -/
def Obligations.HostAndDebugMemoryAccess : Prop :=
  (∀ (s : State) (a n : Nat), s.hubOn = true → 1 ≤ n → 0x100000000 ≤ a → a + n ≤ 0x140000000 → s.inWindowB a n = true →
    ∃ t, exec (.windowBRead a n []) s = .next t ∧
      t.host.windowOut = s.host.windowOut ++ [((List.range n).map (fun i => s.rdB (a + i)), s.isPoison a n)] ∧ Frame s t [] []) ∧
  (∀ (s : State) (a : Nat) (bs : List W8), s.hubOn = true → 1 ≤ bs.length → 0x100000000 ≤ a → a + bs.length ≤ 0x140000000 →
    s.inWindowB a bs.length = true →
    ∃ t, exec (.windowBWrite a bs) s = .next t ∧ (∀ i, i < bs.length → t.rdB (a + i) = bs.getD i 0) ∧
      (∀ b, b < a ∨ a + bs.length ≤ b → t.rdB b = s.rdB b) ∧ SameRegs s t replyRegs) ∧
  (∀ (s : State) (h : Hdr) (a : Nat), s.ready h Op.debugRead = true → bit (s.rd Reg.secStat) 31 = false → a % 4 = 0 →
    0x100000000 ≤ a → a + 4 ≤ 0x140000000 →
    ∃ t, exec (.debugRead h a 1 []) s = .next t ∧
      Answered s t h Op.debugRead [BitVec.ofNat 32 (ofBytesLE [s.rdB a, s.rdB (a + 1), s.rdB (a + 2), s.rdB (a + 3)])] ∧ Frame s t [] []) ∧
  (∀ (s : State) (h : Hdr) (a : Nat) (v : W32), s.ready h Op.debugWrite = true → bit (s.rd Reg.secStat) 31 = false → a % 4 = 0 →
    0x100000000 ≤ a → a + 4 ≤ 0x140000000 →
    ∃ t, exec (.debugWrite h a [v]) s = .next t ∧ Answered s t h Op.debugWrite [] ∧
      (∀ i, i < 4 → t.rdB (a + i) = BitVec.ofNat 8 (v.toNat / 2 ^ (8 * i))) ∧
      (∀ b, b < a ∨ a + 4 ≤ b → t.rdB b = s.rdB b) ∧ SameRegs s t replyRegs) ∧
  (∀ (s : State) (h : Hdr) (a n : Nat) (ws : List W32), bit (s.rd Reg.secStat) 31 = true →
    (s.ready h Op.debugRead = true →
      ∃ t, exec (.debugRead h a n []) s = .next t ∧ Replied s t h Op.debugRead Status.debugLocked [0xFFFF0000] ∧ Frame s t [] []) ∧
    (s.ready h Op.debugWrite = true →
      ∃ t, exec (.debugWrite h a ws) s = .next t ∧ Replied s t h Op.debugWrite Status.debugLocked [0xFFFF0000] ∧ Frame s t [] []))

/-- Enabling a ring zeroes its pointers, HEAD writes free room, and IRQ_STATUS clears where written 1 (R391, R392, R393, R394, R383, Table
15.7). The conclusion for each of cmdCfg, rplCfg, fltCfg, rplHead, fltHead, irqStatus, on conditions on the state and the operands
alone, is that exec answers a next state, with its own effect. -/
def Obligations.HostRingsAndInterrupts : Prop :=
  ∀ s : State, s.hubOn = true →
    (∀ size, bit (s.rd Reg.cmdCfg) 31 = false →
      ∃ t, exec (.cmdCfg true size) s = .next t ∧ bit (t.rd Reg.cmdCfg) 31 = true ∧ t.rdF Reg.cmdCfg 0 5 = max 15 (min 24 (size % 32)) ∧
        t.rd Reg.cmdTail = 0 ∧ t.rd Reg.cmdHead = 0 ∧ t.rd Reg.cmdSeq = 0 ∧
        Frame s t [Reg.cmdCfg, Reg.cmdTail, Reg.cmdHead, Reg.cmdSeq] []) ∧
    (∀ size, bit (s.rd Reg.rplCfg) 31 = false → s.host.held = [] →
      ∃ t, exec (.rplCfg true size) s = .next t ∧ bit (t.rd Reg.rplCfg) 31 = true ∧ t.rdF Reg.rplCfg 0 5 = max 15 (min 24 (size % 32)) ∧
        t.rd Reg.rplTail = 0 ∧ t.rd Reg.rplHead = 0 ∧ t.host.inReset = false ∧ Frame s t [Reg.rplCfg, Reg.rplHead] []) ∧
    (∀ size, bit (s.rd Reg.fltCfg) 31 = false →
      ∃ t, exec (.fltCfg true size) s = .next t ∧ bit (t.rd Reg.fltCfg) 31 = true ∧ t.rdF Reg.fltCfg 0 5 = max 12 (min 24 (size % 32)) ∧
        t.rd Reg.fltTail = 0 ∧ t.rd Reg.fltHead = 0 ∧ Frame s t [Reg.fltCfg, Reg.fltTail, Reg.fltHead] []) ∧
    (∀ v, s.host.held = [] →
      ∃ t, exec (.rplHead v) s = .next t ∧ t.rdF Reg.rplHead 4 20 = v % 2 ^ 20 ∧ Frame s t [Reg.rplHead] []) ∧
    (∀ v r, s.host.held = [r] → bit (s.rd Reg.rplCfg) 31 = true →
      (ringPlace (2 ^ s.rdF Reg.rplCfg 0 5 / 16) (v % 2 ^ 20) (s.rdF Reg.rplTail 4 20) (ceilDiv r.bytes 16)).isSome = true →
      ∃ t, exec (.rplHead v) s = .next t ∧ t.host.held = [] ∧ t.host.replies = s.host.replies ++ [r] ∧ Frame s t [Reg.rplHead] []) ∧
    (∀ v, ∃ t, exec (.fltHead v) s = .next t ∧ t.rdF Reg.fltHead 5 19 = v % 2 ^ 19 ∧ Frame s t [Reg.fltHead] []) ∧
    (∀ v, ∃ t, exec (.irqStatus v) s = .next t ∧ (∀ i, i < 4 → bit (t.rd Reg.irqStatus) i = (bit (s.rd Reg.irqStatus) i && !bit v i)) ∧
      SameRegs s t [Reg.irqStatus])

/-- A packet that passes steps 1 to 6 waits for execution and advances its SEQUENCE; the SPI port delivers packets, replies and status
(R382, R383, R391, R397). The conclusion for each of cmdTail, pktWrite, rplRead, statRead, on conditions on the state and the operands
alone, is that exec answers a next state, with its own effect. -/
def Obligations.PacketsArrive : Prop :=
  (∀ (s : State) (tail : Nat) (p : List W32), s.hubOn = true → bit (s.rd Reg.cmdCfg) 31 = true → s.host.held = [] →
    s.rdF Reg.cmdHead 4 20 ≠ tail % 2 ^ 20 → s.packetRej .pcie p = none → fld (p.getD 1 0) 16 16 = 0 →
    ∃ t, exec (.cmdTail tail [p]) s = .next t ∧ t.host.fetched = s.host.fetched ++ [⟨.pcie, p⟩] ∧
      t.rdF Reg.cmdSeq 0 24 = (fld (p.getD 2 0) 0 24 + 1) % 2 ^ 24 ∧ t.rdF Reg.cmdTail 4 20 = tail % 2 ^ 20 ∧
      Frame s t [Reg.cmdTail, Reg.cmdHead, Reg.cmdSeq] []) ∧
  (∀ (s : State) (p : List W32), s.dev.state ≠ .off →
    (s.host.spiFull = false → s.packetRej .spi p = none → fld (p.getD 1 0) 16 16 = 0 →
      ∃ t, exec (.pktWrite p) s = .next t ∧ t.host.fetched = s.host.fetched ++ [⟨.spi, p⟩] ∧ t.host.spiFull = true ∧
        t.host.seqSpi = (fld (p.getD 2 0) 0 24 + 1) % 2 ^ 24 ∧ Frame s t [] []) ∧
    (s.host.spiFull = true →
      ∃ t, exec (.pktWrite p) s = .next t ∧ t.host = { s.host with overrun := true } ∧ Frame s t [] [])) ∧
  (∀ (s : State) (r : Reply) (rest : List Reply), s.dev.state ≠ .off → s.host.spiReplies = r :: rest →
    ∃ t, exec (.rplRead true) s = .next t ∧ t.host.spiReplies = rest ∧
      t.host.portOut = s.host.portOut ++ [r.words.flatMap (fun (w : W32) => bytesLE 4 w.toNat)] ∧ Frame s t [] []) ∧
  ∀ s : State, s.dev.state ≠ .off →
    ∃ t b, exec .statRead s = .next t ∧ t.host.portOut = s.host.portOut ++ [[b]] ∧ t.host.overrun = false ∧ Frame s t [] [] ∧
      nbit b.toNat 1 = s.host.spiFull ∧ nbit b.toNat 2 = s.host.overrun ∧ b.toNat / 16 = s.dev.state.code

/-- A module or device reset carries the device to Boot with memory zero; a host-interface reset clears the host registers only (R465, R466,
R467, R468, Table 19.2, Table 19.3). The conclusion for each of sysReset, powerOn, resetN, perstN, hubWatchdog, lossOfPower, resetNHigh,
on conditions on the state and the operands alone, is that exec answers a next state, with its own effect. -/
def Obligations.ResetsClearTheDevice : Prop :=
  (∀ (s : State) (h : Hdr), s.ready h Op.sysReset = true →
    (∃ t, exec (.sysReset h 0) s = .next t ∧ t.dev.state = .boot ∧ (∀ a, t.rdB a = 0) ∧ (∀ k, k < 4 → t.ctxState k = Ctx.empty) ∧
      t.host.async = [] ∧ t.log = s.log ∧ t.owners = s.owners ∧ (h.transport ≠ .pcie → Answered s t h Op.sysReset [])) ∧
    (s.dev.state ≠ .safe →
      ∃ t, exec (.sysReset h 1) s = .next t ∧ t.dev.state = .boot ∧ (∀ a, t.rdB a = 0) ∧ (∀ k, k < 4 → t.ctxState k = Ctx.empty) ∧
        t.host.async = [] ∧ t.log = s.log ∧ t.owners = s.owners ∧ t.rd Reg.pwrStat = s.rd Reg.pwrStat ∧ t.rd Reg.secStat = s.rd Reg.secStat ∧
        (h.transport ≠ .pcie → Answered s t h Op.sysReset [])) ∧
    (s.dev.state ≠ .safe →
      ∃ t, exec (.sysReset h 2) s = .next t ∧ (∀ a, hostReg a = true → a ≠ Reg.irqStatus → t.rd a = regReset a) ∧
        (∀ a, hostReg a = false → t.rd a = s.rd a) ∧ SameMem s t ∧ (∀ p : Part, p.Same s t) ∧ t.host.inReset = true ∧
        Answered s t h Op.sysReset []) ∧
    (∀ kind, s.dev.state = .safe → kind = 1 ∨ kind = 2 →
      ∃ t, exec (.sysReset h kind) s = .next t ∧ Replied s t h Op.sysReset Status.stateIllegal [0xFFFF0000] ∧ Frame s t [] []) ∧
    (∀ kind, 2 < kind →
      ∃ t, exec (.sysReset h kind) s = .next t ∧ Replied s t h Op.sysReset Status.valueRange [0] ∧ Frame s t [] [])) ∧
  (∀ s : State, s.powered = true →
    (∃ t, exec .resetN s = .next t ∧ t.dev.state = .boot ∧ (∀ a, t.rdB a = 0) ∧ t.log = s.log ∧ t.owners = s.owners ∧ t.warden.resetLow = true) ∧
    (∃ t, exec .perstN s = .next t ∧ (∀ a, hostReg a = true → a ≠ Reg.irqStatus → t.rd a = regReset a) ∧
      (∀ a, hostReg a = false → t.rd a = s.rd a) ∧ SameMem s t ∧ (∀ p : Part, p.Same s t) ∧ t.host.inReset = true) ∧
    (∃ t, exec .lossOfPower s = .next t ∧ t.dev.state = .off ∧ (∀ a, t.rdB a = 0) ∧ t.log = s.log ∧ t.owners = s.owners)) ∧
  (∀ s : State, s.hubOn = true →
    ∃ t, exec .hubWatchdog s = .next t ∧ t.dev.state = .boot ∧ (∀ a, t.rdB a = 0) ∧ t.log.getLast?.map (·.code) = some Code.hubWatchdog ∧
      t.rd Reg.pwrStat = s.rd Reg.pwrStat) ∧
  (∀ s : State, ∃ t, exec .resetNHigh s = .next t ∧ t.warden = { s.warden with resetLow := false } ∧ Frame s t [] [.warden]) ∧
  ∀ (s : State) (a b : Nat), s.dev.state = .off → (42000 ≤ a ∧ a ≤ 63000) ∨ (42000 ≤ b ∧ b ≤ 63000) →
    ∃ t, exec (.powerOn a b) s = .next t ∧ t.dev.state = .boot ∧ t.warden.bootStep = 3 ∧ t.pwr.pgood = true ∧
      bit (t.rd Reg.pwrStat) 30 = decide (42000 ≤ a ∧ a ≤ 63000) ∧ bit (t.rd Reg.pwrStat) 29 = decide (42000 ≤ b ∧ b ≤ 63000)

/-- The steps of Table 19.1 follow one another from firmware verification to Idle (R450, R451, R462, R463, R464, R469, Table 19.1, log 25).
The conclusion for each of wardenFwVerify, hubFwVerify, refMeasure, pllLock, hubInitDone, on conditions on the state and the operands
alone, is that exec answers a next state, with its own effect. -/
def Obligations.BringUpStepsInOrder : Prop :=
  (∀ (s : State) (c : Nat), c < 2 → s.dev.state = .boot → s.warden.resetLow = false → s.pwr.pgood = true →
    (s.warden.bootStep = 3 → c = (if s.warden.firstFailed then 1 - s.copyFirst 0 else s.copyFirst 0) →
      (∀ ok, s.copyGood 0 c ok = true →
        ∃ t, exec (.wardenFwVerify c ok) s = .next t ∧ t.warden.bootStep = 4 ∧ bit (t.rd Reg.secStat) 23 = decide (c = 1) ∧
          t.warden.firstFailed = false ∧ t.dev.state = .boot) ∧
      (∀ ok, s.copyGood 0 c ok = false →
        ∃ t, exec (.wardenFwVerify c ok) s = .next t ∧
          t.rd (Reg.fcCount Code.fwVerifyFail) = satInc (s.rd (Reg.fcCount Code.fwVerifyFail)) ∧
          t.warden.firstFailed = !s.warden.firstFailed ∧ (s.warden.firstFailed = true → t.warden.romOnly = true))) ∧
    (s.warden.bootStep = 4 → c = (if s.warden.firstFailed then 1 - s.copyFirst 1 else s.copyFirst 1) →
      (∀ ok, s.copyGood 1 c ok = true →
        ∃ t, exec (.hubFwVerify c ok) s = .next t ∧ t.warden.bootStep = (if s.warden.refGood < 2 then 5 else 6) ∧
          bit (t.rd Reg.secStat) 22 = decide (c = 1) ∧ t.dev.state = .boot) ∧
      (∀ ok, s.copyGood 1 c ok = false →
        ∃ t, exec (.hubFwVerify c ok) s = .next t ∧ t.warden.firstFailed = !s.warden.firstFailed ∧
          (s.warden.firstFailed = true → t.dev.state = .safe)))) ∧
  (∀ (s : State) (khz : Nat), s.powered = true →
    (150000 ≤ khz → khz ≤ 162500 → ∃ t, exec (.refMeasure khz) s = .next t ∧ t.warden.refGood = min 2 (s.warden.refGood + 1) ∧
      Frame s t [] [.warden]) ∧
    (khz < 150000 ∨ 162500 < khz → ∃ t, exec (.refMeasure khz) s = .next t ∧ t.warden.refGood = 0)) ∧
  (∀ s : State, s.dev.state = .boot → s.pwr.pgood = true → s.warden.resetLow = false →
    (s.warden.bootStep = 6 → ∃ t, exec .pllLock s = .next t ∧ t.warden.bootStep = 7 ∧ t.dev.state = .boot) ∧
    (s.warden.bootStep = 7 → ∀ cals : List CalResult, cals.map (·.unit) = List.range 64 →
      ∃ t, exec (.hubInitDone cals) s = .next t ∧ t.dev.state = .idle ∧ t.tick.running = true ∧ t.tick.pendingId = some 0 ∧
        bit (t.rd Reg.timeStat) 29 = true ∧ bit (t.rd Reg.twinStat) 28 = s.twin.record.isNone))

/-- A signature block that fails a check of R385 is rejected with its status, and one that passes stores its counter (R385, R454, R456,
Table 15.4, 18 Warden and security). -/
def Obligations.SignedCommandsStoreTheirCounter : Prop :=
  ∀ (s : State) (h : Hdr) (b : SigBlock) (i : Instr),
    (∃ slot key, i = .ownerKey h slot true key) ∨ (∃ f, i = .fuseBlow h f) ∨ (∃ k n, i = .fwUpdateBegin h k n) ∨
      (∃ k r, i = .fwUpdateCommit h k r) →
    h.sig = some b → s.dev.state = .idle → s.served h.transport = true → (∀ op, i.packet = some (h, op) → s.transportOk h.transport op = true) →
    ∃ t op, i.packet = some (h, op) ∧ exec i s = .next t ∧
      (4 ≤ b.keySlot ∨ (s.owners.getD b.keySlot ⟨none, 0⟩).key = none ∨ b.alg ≠ 1 →
        Replied s t h op Status.sigInvalid [0xFFFF0000] ∧ t.owners = s.owners ∧ t.rd Reg.sigFails = satInc (s.rd Reg.sigFails)) ∧
      (b.keySlot < 4 → (s.owners.getD b.keySlot ⟨none, 0⟩).key ≠ none → b.alg = 1 →
        (b.bind ≠ 0 → b.bind ≠ (identityFp.extractLsb' 0 64).toNat →
          Replied s t h op Status.sigWrongPart [0xFFFF0000] ∧ t.owners = s.owners ∧ t.rd Reg.sigFails = satInc (s.rd Reg.sigFails)) ∧
        (b.bind = 0 → b.verifies = false →
          Replied s t h op Status.sigInvalid [0xFFFF0000] ∧ t.owners = s.owners ∧ t.rd Reg.sigFails = satInc (s.rd Reg.sigFails)) ∧
        (b.bind = 0 → b.verifies = true → b.counter ≤ (s.owners.getD b.keySlot ⟨none, 0⟩).counter →
          Replied s t h op Status.sigStale [0xFFFF0000] ∧ t.owners = s.owners ∧ t.rd Reg.sigFails = satInc (s.rd Reg.sigFails)) ∧
        (b.bind = 0 → b.verifies = true → (s.owners.getD b.keySlot ⟨none, 0⟩).counter < b.counter → b.keySlot < s.owners.length →
          (t.owners.getD b.keySlot ⟨none, 0⟩).counter = b.counter ∧ t.rd Reg.sigFails = s.rd Reg.sigFails))

/-- OWNER_KEY installs or revokes a slot, FUSE_BLOW sets DEBUG_LOCK when it is read back, and a locked TAP selects BYPASS (R454, R456, R385,
Table 18.5, log 25). The conclusion for each of ownerKey, fuseBlow, fuseBlowDone, jtagInstruction, on conditions on the state and the
operands alone, is that exec answers a next state, with its own effect. -/
def Obligations.OwnerKeysDebugLockAndJtag : Prop :=
  (∀ (s : State) (h : Hdr) (slot : Nat) (key : BitVec 768), slot < 4 → slot < s.owners.length →
    s.ready h Op.ownerKey = true → s.owners.any (fun o => o.key.isSome) = true →
    ((s.owners.getD slot ⟨none, 0⟩).key = none →
      ∃ t, exec (.ownerKey h slot false key) s = .next t ∧ (t.owners.getD slot ⟨none, 0⟩).key = some key ∧
        (∀ j, j ≠ slot → (t.owners.getD j ⟨none, 0⟩).key = (s.owners.getD j ⟨none, 0⟩).key) ∧ t.rdF Reg.secStat 24 4 = t.ownerMask ∧
        t.rd (Reg.fcCount Code.ownerKeyChanged) = satInc (s.rd (Reg.fcCount Code.ownerKeyChanged)) ∧ Answered s t h Op.ownerKey []) ∧
    ((s.owners.getD slot ⟨none, 0⟩).key ≠ none → s.ownerMask ≠ 2 ^ slot →
      ∃ t, exec (.ownerKey h slot true key) s = .next t ∧ (t.owners.getD slot ⟨none, 0⟩).key = none ∧
        (∀ j, j ≠ slot → (t.owners.getD j ⟨none, 0⟩).key = (s.owners.getD j ⟨none, 0⟩).key) ∧ t.rdF Reg.secStat 24 4 = t.ownerMask ∧
        Answered s t h Op.ownerKey [])) ∧
  (∀ (s : State) (h : Hdr) (slot : Nat) (key : BitVec 768) (b : SigBlock), slot < 4 → slot < s.owners.length →
    (∀ o ∈ s.owners, o.key = none) → h.sig = some b → b.keySlot = slot → b.alg = 1 → b.bind = 0 → b.verifies = true →
    (s.owners.getD slot ⟨none, 0⟩).counter < b.counter → s.dev.state = .idle → s.served h.transport = true →
    s.transportOk h.transport Op.ownerKey = true → (∀ a ∈ s.host.async, ¬(a.transport = h.transport ∧ a.tag = h.tag)) →
    s.warden.romOnly = false →
    ∃ t, exec (.ownerKey h slot false key) s = .next t ∧ t.owners.getD slot ⟨none, 0⟩ = ⟨some key, b.counter⟩ ∧ Answered s t h Op.ownerKey []) ∧
  (∀ (s : State) (h : Hdr), s.ready h Op.fuseBlow = true →
    ∃ t, exec (.fuseBlow h 1) s = .next t ∧ Taken s t h Op.fuseBlow 1 0 ∧ Frame s t [] [.owners]) ∧
  (∀ (s : State) (a : Async), s.openOf Op.fuseBlow = [a] → bit (s.rd Reg.secStat) 31 = false →
    ∃ t, exec (.fuseBlowDone true) s = .next t ∧ bit (t.rd Reg.secStat) 31 = true ∧ Completed s t a Status.ok [] ∧
      t.rd (Reg.fcCount Code.debugLockSet) = satInc (s.rd (Reg.fcCount Code.debugLockSet)) ∧ t.warden.jtagOpen = false) ∧
  ∀ (s : State) (ir : Nat), s.powered = true →
    ∃ t, exec (.jtagInstruction ir) s = .next t ∧
      t.warden.jtagIr = (if bit (s.rd Reg.secStat) 31 = true ∧ 4 ≤ ir then 0 else ir) ∧ Frame s t [] [.warden]

/-- A firmware update opens on the copy not running, takes chunks, and commits a copy that passes with the highest GENERATION (R452, R453,
R450, Table 18.2). The conclusion for each of fwUpdateBegin, fwUpdateChunk, fwUpdateCommit, fwUpdateCommitDone, on conditions on the
state and the operands alone, is that exec answers a next state, with its own effect. -/
def Obligations.FirmwareUpdateCycle : Prop :=
  (∀ (s : State) (h : Hdr) (kind len : Nat), s.ready h Op.fwUpdateBegin = true → kind = 1 ∨ kind = 2 → 448 ≤ len → len ≤ 0x010000C0 →
    len % 32 = 0 → s.openOf Op.fwUpdateCommit = [] →
    ∃ t, exec (.fwUpdateBegin h kind len) s = .next t ∧ Answered s t h Op.fwUpdateBegin [BitVec.ofNat 32 (s.otherCopy kind)] ∧
      t.warden.update = some { kind := kind, copy := s.otherCopy kind, len := len, got := [], bytes := [] } ∧
      t.warden.copies = s.warden.copies.set (2 * (kind - 1) + s.otherCopy kind) { gen := none, svn := 0, version := 0, meas := 0 }) ∧
  (∀ (s : State) (h : Hdr) (u : FwUpdate) (off : Nat) (bs : List W8), s.ready h Op.fwUpdateChunk = true → s.warden.update = some u →
    s.openOf Op.fwUpdateCommit = [] → off % 32 = 0 → 32 ≤ bs.length → bs.length ≤ 16352 → off + bs.length ≤ u.len →
    (∀ e ∈ u.got, off + bs.length ≤ e.1 ∨ e.2 ≤ off) →
    ∃ t, exec (.fwUpdateChunk h off bs) s = .next t ∧ Answered s t h Op.fwUpdateChunk [] ∧
      t.warden.update = some { u with got := u.got ++ [(off, off + bs.length)], bytes := u.bytes ++ bs.mapIdx (fun i b => (off + i, b)) } ∧
      Frame s t [] [.warden]) ∧
  (∀ (s : State) (h : Hdr) (kind : Nat) (raise : Bool), s.ready h Op.fwUpdateCommit = true → s.warden.update.isSome = true →
    s.openOf Op.fwUpdateCommit = [] →
    ∃ t, exec (.fwUpdateCommit h kind raise) s = .next t ∧ Taken s t h Op.fwUpdateCommit (2 * kind + (if raise then 1 else 0)) 0 ∧
      Frame s t [] [.owners]) ∧
  ∀ (s : State) (a : Async) (u : FwUpdate) (ok : Bool), s.openOf Op.fwUpdateCommit = [a] → s.warden.update = some u →
    (s.fwPasses u (a.mask / 2) ok = true → 1 ≤ a.mask / 2 → 2 * (a.mask / 2 - 1) + u.copy < s.warden.copies.length →
      ∃ t gen, exec (.fwUpdateCommitDone ok) s = .next t ∧
        gen = (max ((s.fwCopy (a.mask / 2 - 1) 0).gen.getD 0) ((s.fwCopy (a.mask / 2 - 1) 1).gen.getD 0) + 1) % 2 ^ 32 ∧
        (t.fwCopy (a.mask / 2 - 1) u.copy).gen = some gen ∧ t.warden.update = none ∧
        t.svnMin = (if a.mask % 2 = 1 then u.le 4 4 % 64 else s.svnMin) ∧
        Completed s t a Status.ok [BitVec.ofNat 32 gen, BitVec.ofNat 32 t.svnMin]) ∧
    (s.fwPasses u (a.mask / 2) ok = false →
      ∃ t, exec (.fwUpdateCommitDone ok) s = .next t ∧ Completed s t a Status.fwInvalid [0xFFFF0000] ∧ Frame s t [] [])

/-- ATTEST completes with signed items, EVENT_LOG_READ replies entries from a SEQ, and sensors read the same over commands and SMBus (R457,
R458, R459, Table 18.3, Table 18.4, Table 18.7). The conclusion for each of attest, eventLogRead, sensorRead, smbusBlockRead,
attestDone, on conditions on the state and the operands alone, is that exec answers a next state, with its own effect. -/
def Obligations.AttestationLogAndSensors : Prop :=
  (∀ (s : State) (h : Hdr) (cert : Bool) (nonce : BitVec 384), s.ready h Op.attest = true →
    ∃ t, exec (.attest h cert nonce) s = .next t ∧ Taken s t h Op.attest (2 * nonce.toNat + (if cert then 1 else 0)) 0 ∧ Frame s t [] []) ∧
  (∀ (s : State) (a : Async), s.host.async = [a] → a.opcode = Op.attest →
    (s.warden.romOnly = false →
      ∃ t items, exec .attestDone s = .next t ∧ items = s.attestItems (decide (a.mask % 2 = 1)) ∧
        Completed s t a Status.ok (items ++ keyWords (Config.identitySign (fpWords (BitVec.ofNat 384 (a.mask / 2)) ++ items))) ∧
        t.host.async = [] ∧ t.log.getLast?.map (·.kind) = some 3 ∧ Frame s t [Reg.logSeq] [.log]) ∧
    (s.warden.romOnly = true →
      ∃ t, exec .attestDone s = .next t ∧ Completed s t a Status.fwInvalid [0xFFFF0000] ∧ t.host.async = [] ∧ Frame s t [] [])) ∧
  (∀ (s : State) (h : Hdr) (seq count : Nat), s.ready h Op.eventLogRead = true →
    (1 ≤ count → count ≤ 64 →
      ∃ t, exec (.eventLogRead h seq count) s = .next t ∧ Frame s t [] [] ∧
        Answered s t h Op.eventLogRead
          (((s.log.filter (fun e => decide (seq ≤ e.seq))).take count).flatMap (fun e => wordsOf (e.bytes ++ chainBytes e.chain)))) ∧
    (count = 0 ∨ 64 < count →
      ∃ t, exec (.eventLogRead h seq count) s = .next t ∧ Replied s t h Op.eventLogRead Status.valueRange [0x00010000] ∧ Frame s t [] [])) ∧
  (∀ (s : State) (h : Hdr) (code a b : Nat), s.ready h Op.sensorRead = true →
    (∀ bs, s.sensorBlock code a b = some bs →
      ∃ t, exec (.sensorRead h code a b) s = .next t ∧ Answered s t h Op.sensorRead (wordsOf bs) ∧ Frame s t [] []) ∧
    (code = 0 ∨ 0x60 ≤ code →
      ∃ t, exec (.sensorRead h code a b) s = .next t ∧ Replied s t h Op.sensorRead Status.valueRange [0] ∧ Frame s t [] [])) ∧
  ∀ (s : State) (code a b : Nat) (bs : List W8), s.powered = true → s.sensorBlock code a b = some bs →
    ∃ t, exec (.smbusBlockRead 0x3A code a b) s = .next t ∧ t.warden.smbus = s.warden.smbus ++ [(0x3A, code, bs)] ∧ Frame s t [] [.warden]

/-- TICK_CONFIG restarts the generator, TICK_ID_SET names the next strobe, a strobe counts TICK_ID and lets the event in (R36, R37, R42,
R43, R44, R160, R400, Table 2.1, log 8). The conclusion for each of tickConfig, tickIdSet, tickStrobe, tickOutFall, on conditions on the
state and the operands alone, is that exec answers a next state, with its own effect. -/
def Obligations.TickGeneratorAndStrobe : Prop :=
  (∀ (s : State) (h : Hdr) (source c : Nat), s.ready h Op.tickConfig = true →
    (source < 2 → 8 ≤ c → c ≤ 65534 → c % 2 = 0 → (bit (s.rd Reg.twinCfg) 31 = true → 40 ≤ c) →
      ∃ t, exec (.tickConfig h source c) s = .next t ∧ t.rd Reg.tickCfg = BitVec.ofNat 32 (source * 2 ^ 31 + c) ∧ t.rd Reg.tickStatus = 0 ∧
        t.tick.running = decide (source = 0) ∧ t.tickId = s.tickId ∧ Answered s t h Op.tickConfig [] ∧
        Frame s t [Reg.tickCfg, Reg.tickStatus] [.tick]) ∧
    (c % 2 = 1 →
      ∃ t, exec (.tickConfig h source c) s = .next t ∧ Replied s t h Op.tickConfig Status.valueRange [0] ∧ Frame s t [] [])) ∧
  (∀ (s : State) (h : Hdr) (id : W32), s.ready h Op.tickIdSet = true →
    ∃ t, exec (.tickIdSet h id) s = .next t ∧ t.tick = { s.tick with pendingId := some id } ∧ Answered s t h Op.tickIdSet [] ∧
      Frame s t [] [.tick]) ∧
  (∀ s : State, s.hubOn = true → s.tick.running = true → s.fe.pulses = [] → s.fe.forming = [] → s.clk.outs = [] →
    (∀ g, g < 64 → bit (s.rd (Reg.fastCtl g)) 31 = false) → s.bus.masterWaits = false →
    (∀ k, k < 4 → s.ctxState k = Ctx.running → bit (s.rd (Reg.ctxrGapCfg k)) 31 = false ∧ (s.cx k).holds = [] ∧
      (∀ i, s.imageOf k = some i → i.img.passes = 0)) →
    ∃ t n, exec .tickStrobe s = .next t ∧ n = s.tick.pendingId.getD (s.tickId + 1) ∧ t.tickId = n ∧
      t.tick = { s.tick with nextAt := s.tick.nextAt + s.cTick, pendingId := none, strobes := s.tick.strobes + 1,
                              outPulses := s.tick.outPulses.filter (fun e => decide (s.tick.nextAt < e.2)) ++
                                [(s.tick.nextAt + 8, s.tick.nextAt + 8 + 2 * (s.cTick / 4))] } ∧ t.tod.tickFab = s.tick.nextAt ∧
      t.dev.state = (if s.dev.state = .halted then .halted else s.derived) ∧
      (s.calm → s.host.async = [] → s.ctx.length = 4 → ∀ k, k < 4 → s.ctxState k = Ctx.running → n ∉ (s.cx k).gaps →
        n ∈ (t.cx k).entered) ∧
      Frame s t [Reg.tickId] [.dev, .evidence, .tod, .tick, .clk, .ctx, .subst, .banks, .link, .fe, .twin]) ∧
  ∀ (s : State) (e : Nat × Nat) (r : List (Nat × Nat)), s.hubOn = true → s.tick.outPulses = e :: r → s.reach e.2 = true →
    ∃ t, exec .tickOutFall s = .next t ∧ t.tick = { s.tick with outPulses := r } ∧ Frame s t [] [.tod, .tick]

/-- TICK_IN: the first edge fixes the phase, edges and windows are counted, and lock, loss and the taking of a phase follow (R40, R41, Table
2.2, log 26). The conclusion for each of tickInEdge, tickInWindowEnd, tickInLock, tickInLost, tickInPhaseTake, on conditions on the
state and the operands alone, is that exec answers a next state, with its own effect. -/
def Obligations.TickInKeepsLock : Prop :=
  ∀ s : State, s.hubOn = true → bit (s.rd Reg.tickCfg) 31 = true →
    (∀ cyc, s.tick.expect = none →
      ∃ t, exec (.tickInEdge cyc) s = .next t ∧ t.tick.running = true ∧ t.tick.expect = some (s.tod.tickFab / 2 + cyc) ∧ t.tick.good = 1 ∧
        t.tick.nextAt = 2 * (s.tod.tickFab / 2 + cyc + 6) ∧ t.rdF Reg.tickStatus 0 16 = cyc % 65536 ∧
        Frame s t [Reg.tickStatus] [.tod, .tick]) ∧
    (∀ cyc e, s.tick.expect = some e → s.tick.everLocked = false → s.tod.tickFab / 2 + cyc = e →
      ∃ t, exec (.tickInEdge cyc) s = .next t ∧ t.tick = { s.tick with seen := [e], good := s.tick.good + 1 } ∧
        Frame s t [Reg.tickStatus] [.tod, .tick]) ∧
    (∀ cyc e, s.tick.expect = some e → s.tick.everLocked = true → s.tod.tickFab / 2 + cyc < e + s.half →
      ∃ t, exec (.tickInEdge cyc) s = .next t ∧ t.tick = { s.tick with seen := s.tick.seen ++ [s.tod.tickFab / 2 + cyc] } ∧
        Frame s t [Reg.tickStatus] [.tod, .tick]) ∧
    (∀ e, s.tick.expect = some e → s.tick.everLocked = true → s.tick.seen = [e] →
      ∃ t, exec .tickInWindowEnd s = .next t ∧ t.tick.expect = some (e + s.half) ∧ t.tick.seen = [] ∧ t.tick.good = s.tick.good + 1 ∧
        t.tick.slipRun = 0 ∧ bit (t.rd Reg.tickStatus) 29 = false ∧ Frame s t [Reg.tickStatus] [.tod, .tick]) ∧
    (∀ e, s.tick.expect = some e → s.tick.everLocked = true → s.tick.seen = [] →
      ∃ t, exec .tickInWindowEnd s = .next t ∧ t.tick.expect = some (e + s.half) ∧ t.tick.good = 0 ∧ t.tick.slipRun = s.tick.slipRun + 1 ∧
        t.rd Reg.tickInSlips = satInc (s.rd Reg.tickInSlips) ∧ Frame s t [Reg.tickStatus, Reg.tickInSlips] [.tod, .tick]) ∧
    (bit (s.rd Reg.tickStatus) 31 = false → 16 ≤ s.tick.good →
      ∃ t, exec .tickInLock s = .next t ∧ bit (t.rd Reg.tickStatus) 31 = true ∧ bit (t.rd Reg.tickStatus) 30 = false ∧
        t.tick = { s.tick with everLocked := true, slipRun := 0 } ∧ Frame s t [Reg.tickStatus] [.tick]) ∧
    (bit (s.rd Reg.tickStatus) 31 = true → 4 ≤ s.tick.slipRun →
      ∃ t, exec .tickInLost s = .next t ∧ bit (t.rd Reg.tickStatus) 31 = false ∧ bit (t.rd Reg.tickStatus) 30 = true ∧
        Raised s t Code.tickInLost ∧ Frame s t (Reg.tickStatus :: raiseRegs Code.tickInLost) (.tick :: raiseParts)) ∧
    (bit (s.rd Reg.tickStatus) 29 = true → s.timedActive = false →
      ∃ t, exec .tickInPhaseTake s = .next t ∧ bit (t.rd Reg.tickStatus) 31 = true ∧ bit (t.rd Reg.tickStatus) 30 = false ∧
        bit (t.rd Reg.tickStatus) 29 = false ∧ t.tick.expect = s.tick.expect.map (· + s.tick.otherOff) ∧
        Frame s t [Reg.tickStatus] [.tick])

/-- A stage-group monitor records a completion in eighths and judges it against its deadline; droop stretches up to the cap (R47, R48, R49,
R50, R51, Table 2.3). The conclusion for each of scCtrlClr, droopStretch, stageGroupCompletion, deadlineExpiry, on conditions on the
state and the operands alone, is that exec answers a next state, with its own effect. -/
def Obligations.MonitorsJudgeCompletions : Prop :=
  (∀ (s : State) (tile m : Nat) (n : W32) (c e : Nat), s.hubOn = true → tile < 16 → m < 64 → c < s.cTick →
    bit (s.rd (Reg.scCtrl tile m)) 31 = true → s.inJudgement m n = true → (s.judged tile m n).completed = false →
    0 ≤ s.sinceEvent n c → e = 8 * (s.sinceEvent n c).toNat + s.lagAt tile c →
    ((s.judged tile m n).late = false → e ≤ 8 * s.deadline tile m → s.capped tile c = false →
      ∃ t, exec (.stageGroupCompletion tile m n c) s = .next t ∧ t.rd (Reg.scLast tile m) = s.scEnc e ∧
        t.rd (Reg.scWorst tile m) = (if s.scDec (s.rd (Reg.scWorst tile m)) < e then s.scEnc e else s.rd (Reg.scWorst tile m)) ∧
        t.judged tile m n = { s.judged tile m n with completed := true } ∧
        Frame s t [Reg.scLast tile m, Reg.scWorst tile m] [.tod, .clk]) ∧
    (8 * s.deadline tile m < e → (s.judged tile m n).faulted = false →
      ∃ t, exec (.stageGroupCompletion tile m n c) s = .next t ∧ t.rd (Reg.scLast tile m) = s.scEnc e ∧
        (t.judged tile m n).completed = true ∧ (t.judged tile m n).late = true ∧
        t.rd (Reg.scLateCount tile m) = satInc (s.rd (Reg.scLateCount tile m)) ∧ t.rd (Reg.scLastLate tile m) = n ∧
        Raised s t Code.deadlineLate ∧
        Frame s t ([Reg.scLast tile m, Reg.scWorst tile m, Reg.scLateCount tile m, Reg.scFirstLate tile m, Reg.scLastLate tile m] ++
          raiseRegs Code.deadlineLate) ([.tod, .clk] ++ raiseParts))) ∧
  (∀ (s : State) (tile m : Nat) (n : W32), s.hubOn = true → tile < 16 → m < 64 → bit (s.rd (Reg.scCtrl tile m)) 31 = true →
    s.inJudgement m n = true → (s.judged tile m n).completed = false →
    (s.deadline tile m : Int) + 1 - tickDiff s.tickId n * (s.cTick : Int) ≤ s.cTick →
    (s.deadline tile m < s.lastNeed (m / 16) tile m →
      ∃ t, exec (.deadlineExpiry tile m n) s = .next t ∧ t.judged tile m n = { s.judged tile m n with late := true } ∧
        Frame s t [] [.tod, .clk]) ∧
    (s.lastNeed (m / 16) tile m ≤ s.deadline tile m → (s.judged tile m n).faulted = false →
      ∃ t, exec (.deadlineExpiry tile m n) s = .next t ∧ (t.judged tile m n).late = true ∧ (t.judged tile m n).faulted = true ∧
        t.rd (Reg.scLateCount tile m) = satInc (s.rd (Reg.scLateCount tile m)) ∧ t.rd (Reg.scLastLate tile m) = n ∧
        Raised s t Code.deadlineMissing ∧
        Frame s t ([Reg.scLateCount tile m, Reg.scFirstLate tile m, Reg.scLastLate tile m] ++ raiseRegs Code.deadlineMissing)
          ([.tod, .clk] ++ raiseParts))) ∧
  (∀ (s : State) (tile m : Nat), s.hubOn = true → tile < 16 → m < 64 →
    ∃ t, exec (.scCtrlClr tile m) s = .next t ∧ t.rd (Reg.scWorst tile m) = 0 ∧ t.rd (Reg.scLateCount tile m) = 0 ∧
      t.rd (Reg.scFirstLate tile m) = 0 ∧ t.rd (Reg.scLastLate tile m) = 0 ∧
      Frame s t [Reg.scWorst tile m, Reg.scLateCount tile m, Reg.scFirstLate tile m, Reg.scLastLate tile m] []) ∧
  ∀ (s : State) (tile c e lag : Nat), s.hubOn = true → tile < 16 → c < s.cTick → 1 ≤ e → e ≤ 8 → bit (s.rd (Reg.avsCfg tile)) 30 = true →
    SMap.get 0 s.clk.capAt tile = 0 → (∀ x ∈ s.clk.stretches, x.1 = tile → x.2.1 < c) → lag = SMap.get 0 s.clk.lag tile →
    (lag + e ≤ 16 →
      ∃ t, exec (.droopStretch tile c e) s = .next t ∧ t.clk.lag = SMap.set 0 s.clk.lag tile (lag + e) ∧
        t.clk.stretches = s.clk.stretches ++ [(tile, c, e)] ∧
        t.rdF (Reg.droopStat tile) 0 8 = max (s.rdF (Reg.droopStat tile) 0 8) (lag + e) ∧
        Frame s t [Reg.droopStat tile] [.tod, .clk]) ∧
    (16 < lag + e →
      ∃ t, exec (.droopStretch tile c e) s = .next t ∧ t.clk.lag = s.clk.lag ∧
        t.rdF (Reg.droopStat tile) 16 16 = min 65535 (s.rdF (Reg.droopStat tile) 16 16 + 1) ∧ Raised s t Code.droopCap ∧
        Frame s t (Reg.droopStat tile :: raiseRegs Code.droopCap) ([.tod, .clk] ++ raiseParts))

/-- At its due cycle an output emits its value, or its fallback where a group it depends on is late or the tick is a gap (R44, R53, R54,
R55, R168, R169, Table 2.5). The conclusion for each of fbClr, outputHandoff, escalationWindowEnd, on conditions on the state and the
operands alone, is that exec answers a next state, with its own effect. -/
def Obligations.OutputsEmitOnTime : Prop :=
  (∀ (s : State) (k o : Nat) (n : W32) (d : OutDecl), s.hubOn = true → k < 4 → o < 64 → s.outDecl k o = some d → d.ctx = k → d.out = o →
    s.tickId = n + BitVec.ofNat 32 (s.dueT d) → (∀ e ∈ s.clk.emitted, ¬(e.k = k ∧ e.o = o ∧ e.event = n)) → s.lineDue d n = false →
    (∀ g ∈ s.clk.groups, g.2 / 16 ≠ k) →
    (∀ x : OutVal, s.clk.vals.find? (fun v => v.k == k && v.o == o && v.event == n) = some x → x.poison = false →
      s.ctxState k ≠ Ctx.faulted → n ∈ (s.cx k).entered → n ∉ (s.cx k).gaps → n ∉ (s.cx k).abandoned →
      (∀ g ∈ d.deps, (s.judged g.1 g.2 n).completed = true ∧ (s.judged g.1 g.2 n).late = false ∧ ∀ f ∈ s.clk.failed, ¬(f.1 = g.1 ∧ f.2.1 = g.2 ∧ f.2.2.1 = n)) →
      ∃ t, exec (.outputHandoff k o n) s = .next t ∧
        t.clk.emitted = s.clk.emitted ++ [⟨k, o, n, n + BitVec.ofNat 32 d.latT, x.value, false, false, false, false⟩] ∧ (k, o, x.value) ∈ t.clk.held ∧
        Frame s t [] [.tod, .clk]) ∧
    ((∃ g ∈ d.deps, (s.judged g.1 g.2 n).late = true) → (∀ v ∈ s.clk.vals, v.poison = false) →
      s.ctxState k ≠ Ctx.faulted → n ∈ (s.cx k).entered → n ∉ (s.cx k).gaps → n ∉ (s.cx k).abandoned →
      ∃ t e, exec (.outputHandoff k o n) s = .next t ∧ t.clk.emitted = s.clk.emitted ++ [e] ∧ e.k = k ∧ e.o = o ∧ e.event = n ∧
        e.fallback = true ∧ e.gap = false ∧ e.value = s.fbValue d ∧ t.rd (Reg.fbCount k o) = satInc (s.rd (Reg.fbCount k o)) ∧
        t.rd (Reg.fbLastTick k o) = n ∧ SameMem s t) ∧
    (n ∈ (s.cx k).gaps →
      ∃ t, exec (.outputHandoff k o n) s = .next t ∧
        t.clk.emitted = s.clk.emitted ++ [⟨k, o, n, n + BitVec.ofNat 32 d.latT, s.fbValue d, true, true, false, false⟩] ∧
        Frame s t [] [.tod, .clk]) ∧
    (s.ctxState k = Ctx.faulted → n ∉ (s.cx k).gaps → n ∉ (s.cx k).abandoned →
      ∃ t, exec (.outputHandoff k o n) s = .next t ∧
        t.clk.emitted = s.clk.emitted ++ [⟨k, o, n, n + BitVec.ofNat 32 d.latT, s.fbValue d, true, false, false, false⟩] ∧
        t.rd (Reg.fbCount k o) = satInc (s.rd (Reg.fbCount k o)) ∧ t.rd (Reg.fbLastTick k o) = n ∧ SameMem s t)) ∧
  (∀ (s : State) (k o : Nat), s.hubOn = true → k < 4 → o < 64 →
    (SMap.get 0 s.clk.winAt (64 * k + o) ≠ s.escWin k o + 1 →
      ∃ t, exec (.escalationWindowEnd k o) s = .next t ∧ t.rdF (Reg.fbWin k o) 0 16 = 0 ∧
        t.clk = { s.clk with winAt := SMap.set 0 s.clk.winAt (64 * k + o) (s.escWin k o + 1) } ∧ Frame s t [Reg.fbWin k o] [.clk]) ∧
    ∃ t, exec (.fbClr k o) s = .next t ∧ t.rd (Reg.fbCount k o) = 0 ∧ t.rd (Reg.fbLastTick k o) = 0 ∧ t.rd (Reg.fbDiscard k o) = 0 ∧
      Frame s t [Reg.fbCount k o, Reg.fbLastTick k o, Reg.fbDiscard k o] [])

/-- ARM, START, DRAIN, STOP and RESUME are accepted with their strobe, or rejected for the state of a context, with no other effect (R161,
R163, R402, R404, R405, R436, R440, Table 15.12). The conclusion for each of arm, start, drain, stop, resume, on conditions on the state
and the operands alone, is that exec answers a next state, with its own effect. -/
def Obligations.RunControlCommandsAreAccepted : Prop :=
  ∀ (s : State) (h : Hdr) (mask : Nat) (ks : List Nat), ks = s.chainOf (mask % 16) →
    (mask % 16 ≠ 0 → s.tickLocked = true → (∀ e ∈ s.link.classT, e.1 ∈ ks → s.grpReady e.2 = true) →
      (s.ready h Op.arm = true → (∀ k ∈ ks, s.ctxState k = Ctx.loaded) → (s.twinState = 4 ∨ ∀ k ∈ ks, (s.cx k).twin = false) →
        ∃ t, exec (.arm h mask) s = .next t ∧ Replied s t h Op.arm Status.accepted [s.nextStrobe] ∧
          t.host.async = s.host.async ++ [⟨h.transport, h.tag, Op.arm, maskOf ks, s.nextStrobe⟩] ∧ Frame s t [] []) ∧
      (∀ d, s.ready h Op.start = true → (∀ k ∈ ks, s.ctxState k = Ctx.armed ∨ s.ctxState k = Ctx.retired) → s.strobeOk d = true →
        (∀ k ∈ ks, s.shedBlocked k = false) →
        ∃ t, exec (.start h mask d) s = .next t ∧ Replied s t h Op.start Status.accepted [s.strobeOf d] ∧
          t.host.async = s.host.async ++ [⟨h.transport, h.tag, Op.start, maskOf ks, s.strobeOf d⟩] ∧ Frame s t [] [])) ∧
    (mask % 16 ≠ 0 →
      (∀ d, s.ready h Op.drain = true → (∀ k ∈ ks, s.ctxState k = Ctx.running) → s.strobeOk d = true →
        (∀ k ∈ ks, (s.cx k).drainAt = none) → s.ctx.length = 4 →
        ∃ t, exec (.drain h mask d) s = .next t ∧ Replied s t h Op.drain Status.accepted [s.strobeOf d] ∧
          t.host.async = s.host.async ++ [⟨h.transport, h.tag, Op.drain, maskOf ks, s.strobeOf d⟩] ∧
          (∀ k ∈ ks, t.rd (Reg.ctxrStop k) = s.strobeOf d ∧ (t.cx k).drainAt = some (s.strobeOf d)) ∧
          Frame s t (ks.map Reg.ctxrStop) [.ctx]) ∧
      (s.ready h Op.stop = true → (∀ k ∈ ks, s.stoppable k = true) →
        ∃ t, exec (.stop h mask) s = .next t ∧ Replied s t h Op.stop Status.accepted [s.nextStrobe] ∧
          t.host.async = s.host.async ++ [⟨h.transport, h.tag, Op.stop, maskOf ks, s.nextStrobe⟩] ∧ Frame s t [] []) ∧
      (∀ k, s.ready h Op.arm = true → ks.find? (fun j => s.ctxState j != Ctx.loaded) = some k →
        ∃ t, exec (.arm h mask) s = .next t ∧ Frame s t [] [] ∧
          Replied s t h Op.arm Status.ctxState [BitVec.ofNat 32 (0xFFFF0000 + (k + 16 * s.ctxState k) % 65536)])) ∧
    (mask % 16 = 0 → s.ready h Op.stop = true →
      ∃ t, exec (.stop h mask) s = .next t ∧ Replied s t h Op.stop Status.valueRange [0] ∧ Frame s t [] []) ∧
    (∀ mode, s.ready h Op.resume = true → (∀ a ∈ s.host.async, a.opcode ≠ Op.resume) →
      (if mode % 2 = 0 then s.dev.state = .halted else bit (s.rd Reg.pwrStat) 17 = true) →
      ∃ t, exec (.resume h mode) s = .next t ∧ Taken s t h Op.resume (mode % 2) s.nextStrobe ∧ Frame s t [] [])

/-- At its strobe ARM makes Loaded contexts Armed and START makes Armed or Retired ones Running with CTXR_START (R160, R161, R165, R400,
Table 6.2, log 29). The conclusion for each of contextArmed, contextStartStrobe, on conditions on the state and the operands alone, is
that exec answers a next state, with its own effect. -/
def Obligations.ArmAndStartTakeEffect : Prop :=
  ∀ (s : State) (a : Async), s.hubOn = true → s.dev.state ≠ .halted → s.calm → s.host.async = [a] →
    tickReached s.tickId a.tick = true →
    (a.opcode = Op.arm → bitsOf a.mask 4 ≠ [] → (∀ k ∈ bitsOf a.mask 4, s.ctxState k = Ctx.loaded) →
      ∃ t, exec .contextArmed s = .next t ∧ (∀ k ∈ bitsOf a.mask 4, t.ctxState k = Ctx.armed) ∧
        (∀ k, k < 4 → k ∉ bitsOf a.mask 4 → t.ctxState k = s.ctxState k) ∧ Completed s t a Status.ok [s.tickId] ∧ t.host.async = [] ∧
        t.dev.state = t.derived ∧ Frame s t ((bitsOf a.mask 4).map Reg.ctxrState) [.dev]) ∧
    (∀ k, k < 4 → a.opcode = Op.start → a.mask = 2 ^ k → s.ctxState k = Ctx.armed ∨ s.ctxState k = Ctx.retired →
      s.shedBlocked k = false → s.ctx.length = 4 → (∀ e ∈ (s.cx k).cores, e.1 < 16 ∧ s.phys e.1 e.2 < 544) →
      (∀ g ∈ s.clk.groups, g.1 < 16 ∧ g.2 < 64) → bit (s.rd (Reg.ctxrGapCfg k)) 31 = false → (s.cx k).holds = [] →
      (∀ i, s.imageOf k = some i → i.img.passes = 0) →
      ∃ t, exec .contextStartStrobe s = .next t ∧ t.ctxState k = Ctx.running ∧ t.rd (Reg.ctxrStart k) = s.tickId ∧ t.rd (Reg.ctxrStop k) = 0 ∧
        (∀ e ∈ (s.cx k).cores, t.ctxValid e.1 (s.phys e.1 e.2) k = true) ∧ (t.cx k).heldOut = 0 ∧
        (∀ j, j < 4 → j ≠ k → t.ctxState j = s.ctxState j ∧ t.cx j = s.cx j) ∧ Completed s t a Status.ok [s.tickId] ∧ t.host.async = [] ∧
        Frame s t ([Reg.ctxrState k, Reg.ctxrStart k, Reg.ctxrStop k] ++
          (s.cx k).cores.map (fun e => Reg.ctxCfg e.1 (s.phys e.1 e.2) k) ++ s.clk.groups.map (fun g => Reg.scCtrl g.1 g.2))
          [.dev, .clk, .ctx])

/-- Draining, Faulted and Retired: what the strobe of a DRAIN, STOP, fault or retirement makes of every context (R161, R162, R163, R164,
R167, R176, Table 6.2, log 29). The conclusion for each of drainStrobe, contextRetirement, stopStrobe, surveyDrainRetire, drainTimeout,
contextFaulted, on conditions on the state and the operands alone, is that exec answers a next state, with its own effect. -/
def Obligations.DrainStopAndRetire : Prop :=
  (∀ s : State, s.ordinary → s.dueAsync Op.stop = [] →
    (∃ t, exec .contextFaulted s = .next t ∧ Frame s t ((List.range 4).map Reg.ctxrState) [.dev, .ctx] ∧ ∀ k, k < 4 →
      (s.due (s.cx k).faultAt = true → t.cx k = { s.cx k with faultAt := none } ∧
        t.ctxState k = (if s.ctxState k = Ctx.running then Ctx.faulted else s.ctxState k)) ∧
      (s.due (s.cx k).faultAt = false → t.cx k = s.cx k ∧ t.ctxState k = s.ctxState k)) ∧
    (∃ t, exec .drainStrobe s = .next t ∧ Frame s t ((List.range 4).map Reg.ctxrState) [.dev, .ctx] ∧ ∀ k, k < 4 → s.due (s.cx k).faultAt = false →
      (s.due (s.cx k).drainAt = true → s.ctxState k = Ctx.running →
        t.ctxState k = Ctx.draining ∧ (t.cx k).drainAt = (s.cx k).drainAt ∧
        (t.cx k).retireAt = (if s.ctxTimed k then (s.cx k).drainAt.map (fun d => d + BitVec.ofNat 32 (s.chainLast k)) else none)) ∧
      (s.due (s.cx k).drainAt = true → s.ctxState k = Ctx.faulted → (s.cx k).retireAt = none →
        t.ctxState k = Ctx.faulted ∧ (t.cx k).retireAt = some s.nextStrobe) ∧
      (s.due (s.cx k).drainAt = false → t.cx k = s.cx k ∧ t.ctxState k = s.ctxState k)) ∧
    (s.inPlace → (∀ j, j < 4 → s.due (s.cx j).unloadAt = false) →
      ∃ t, exec .contextRetirement s = .next t ∧
        Frame s t (raiseRegs Code.staleFlit ++ (List.range 4).flatMap (fun j => [Reg.ctxrState j, Reg.ctxrRetire j, Reg.ctxrStale j] ++ s.flushRegs j))
          ([.dev, .ctx, .ant, .scarab] ++ raiseParts) ∧
        (∀ b ∈ t.host.async, b ∈ s.host.async ∧ (b.opcode = Op.drain → ∃ j ∈ bitsOf b.mask 4, t.ctxState j ≠ Ctx.retired)) ∧
        ∀ k, k < 4 →
          (s.ctxState k = Ctx.draining ∨ s.ctxState k = Ctx.faulted → s.due (s.cx k).retireAt = true →
            t.ctxState k = Ctx.retired ∧ t.rd (Reg.ctxrRetire k) = s.tickId ∧ (t.cx k).retireAt = none ∧ (t.cx k).drainAt = none ∧
            (t.cx k).cores = (s.cx k).cores ∧ (∀ e ∈ s.coresOf k, t.ctxValid e.1 e.2 k = false) ∧ ∀ f ∈ t.ant.firings, f.ctx ≠ k) ∧
          (s.due (s.cx k).faultAt = false → s.due (s.cx k).drainAt = false → s.due (s.cx k).retireAt = false →
            t.cx k = s.cx k ∧ t.ctxState k = s.ctxState k))) ∧
  (∀ (s : State) (a : Async), s.ordinary → s.inPlace → s.dueAsync Op.stop = [a] →
    ((bitsOf a.mask 4).any s.stoppable = true →
      ∃ t, exec .stopStrobe s = .next t ∧
        Frame s t ((List.range 4).flatMap (fun j => [Reg.ctxrState j, Reg.ctxrRetire j, Reg.ctxrAbandoned j] ++ s.flushRegs j))
          [.dev, .ctx, .ant, .scarab] ∧
        (∃ r ∈ t.outbox a.transport, r.tag = a.tag ∧ r.opcode = Op.stop ∧ r.completion = true ∧ r.status = Status.ok ∧ r.payload = [s.tickId]) ∧
        a ∉ t.host.async ∧ ∀ k, k < 4 →
          (k ∈ bitsOf a.mask 4 → s.ctxState k = Ctx.armed → t.ctxState k = Ctx.loaded ∧ t.cx k = s.cx k) ∧
          (k ∈ bitsOf a.mask 4 → s.ctxState k = Ctx.running ∨ s.ctxState k = Ctx.draining ∨ s.ctxState k = Ctx.faulted →
            t.ctxState k = Ctx.retired ∧ t.rd (Reg.ctxrRetire k) = s.tickId ∧ (t.cx k).abandoned = (s.cx k).abandoned ++ s.inFlight k ∧
            t.rd (Reg.ctxrAbandoned k) = BitVec.ofNat 32 (satAdd 32 (s.rd (Reg.ctxrAbandoned k)).toNat (s.inFlight k).length) ∧
            (∀ e ∈ s.coresOf k, t.ctxValid e.1 e.2 k = false) ∧ ∀ f ∈ t.ant.firings, f.ctx ≠ k) ∧
          (k ∉ bitsOf a.mask 4 ∨ s.stoppable k = false → t.ctxState k = s.ctxState k ∧ t.cx k = s.cx k)) ∧
    ((bitsOf a.mask 4).any s.stoppable = false →
      ∃ t, exec .stopStrobe s = .next t ∧ Completed s t a Status.superseded [0xFFFF0000] ∧ a ∉ t.host.async ∧ Frame s t [] [.dev])) ∧
  ∀ (s : State) (k : Nat), s.hubOn = true → s.ctx.length = 4 → k < 4 →
    (s.inPlace → (∀ j ∈ s.chainOf (2 ^ k), s.ctxState j = Ctx.draining ∧ s.ctxTimed j = false ∧ s.surveyIdle j = true ∧
        (s.cx j).drainAt.any (fun d => decide (1 ≤ tickDiff s.tickId d)) = true) →
      ∃ t, exec (.surveyDrainRetire k) s = .next t ∧
        (∀ j ∈ s.chainOf (2 ^ k), t.ctxState j = Ctx.retired ∧ t.rd (Reg.ctxrRetire j) = s.tickId ∧ (t.cx j).drainAt = none ∧
          ∀ e ∈ s.coresOf j, t.ctxValid e.1 e.2 j = false) ∧
        (∀ j, j < 4 → j ∉ s.chainOf (2 ^ k) → t.ctxState j = s.ctxState j ∧ t.cx j = s.cx j) ∧
        Frame s t ((s.chainOf (2 ^ k)).flatMap (fun j => [Reg.ctxrState j, Reg.ctxrRetire j] ++ s.flushRegs j)) [.dev, .ctx, .ant]) ∧
    (∀ d, s.ctxTimed k = false → s.ctxState k = Ctx.draining → (s.cx k).drainAt = some d → s.tickId + 1 ≠ d →
      (s.cx k).timedOut = false → 2 ^ s.rdF (Reg.ctxrDrainTo k) 0 5 ≤ (s.tickId - d).toNat →
      ∃ t, exec (.drainTimeout k) s = .next t ∧ Raised s t Code.drainTimeout ∧ Frame s t (raiseRegs Code.drainTimeout) (.ctx :: raiseParts) ∧
        (∀ j ∈ s.chainOf (2 ^ k), t.cx j = { s.cx j with timedOut := true, retireAt := some s.nextStrobe }) ∧
        ∀ j, j < 4 → j ∉ s.chainOf (2 ^ k) → t.cx j = s.cx j)

/-- Escalation enters Halted and stops every Timed context; stage S4 stops the non-essential ones; RESUME leaves Halted (R55, R56, R402,
R405, R423, R436, R437, Table 15.8). The conclusion for each of haltedEntry, resumeStrobe, shedStrongStrobe, on conditions on the state
and the operands alone, is that exec answers a next state, with its own effect. -/
def Obligations.HaltedSheddingAndResume : Prop :=
  (∀ s : State, s.hubOn = true → s.openOf Op.drain = [] → s.ctx.length = 4 → s.inPlace →
    (s.dev.state ≠ .halted → s.pwr.strongAt = none → s.due s.clk.escalateAt = true →
      ∃ t, exec .haltedEntry s = .next t ∧ t.dev.state = .halted ∧ t.clk.escalateAt = none ∧
        (∀ k, k < 4 → s.ctxTimed k = true → s.stoppable k = true → t.ctxState k = Ctx.retired ∧ (t.cx k).heldOut = 1) ∧
        (∀ k, k < 4 → s.ctxTimed k = false ∨ s.stoppable k = false → t.ctxState k = s.ctxState k ∧ t.cx k = s.cx k) ∧
        (bit (s.rd Reg.twinStat) 28 = true → bit (s.rd Reg.twinCfg) 31 = true → t.twin.releaseAt = some s.tickId) ∧
        SameRegs s t (replyRegs ++ (List.range 4).flatMap (fun k => [Reg.ctxrState k, Reg.ctxrRetire k, Reg.ctxrAbandoned k] ++ s.flushRegs k)) ∧
        SameMem s t ∧ ∀ p, p ∉ [Part.dev, .clk, .ctx, .ant, .scarab, .twin] → p.Same s t) ∧
    (s.shedStage = 4 → s.due s.pwr.strongAt = true →
      ∃ t, exec .shedStrongStrobe s = .next t ∧ t.pwr = { s.pwr with strongAt := none } ∧
        (∀ k, k < 4 → s.ctxTimed k = true → s.stoppable k = true → (s.cx k).essential = false →
          t.ctxState k = Ctx.retired ∧ (t.cx k).heldOut = 2) ∧
        (∀ k, k < 4 → s.ctxTimed k = false ∨ s.stoppable k = false ∨ (s.cx k).essential = true → t.ctxState k = s.ctxState k ∧ t.cx k = s.cx k) ∧
        SameRegs s t (replyRegs ++ (List.range 4).flatMap (fun k => [Reg.ctxrState k, Reg.ctxrRetire k, Reg.ctxrAbandoned k] ++ s.flushRegs k)) ∧
        SameMem s t ∧ ∀ p, p ∉ [Part.dev, .ctx, .ant, .scarab, .pwr] → p.Same s t)) ∧
  ∀ (s : State) (a : Async), s.dev.state = .halted → s.calm → s.host.async = [a] → a.opcode = Op.resume → a.mask = 0 →
    tickReached s.tickId a.tick = true → s.ctx.length = 4 → (∀ d ∈ s.clk.outs, d.ctx < 4 ∧ d.out < 64) →
    ∃ t, exec .resumeStrobe s = .next t ∧ t.dev.state = s.derived ∧ Completed s t a Status.ok [s.tickId] ∧ t.host.async = [] ∧
      (∀ k, k < 4 → (s.cx k).heldOut = 1 → (t.cx k).heldOut = 0) ∧ (∀ d ∈ s.clk.outs, t.rdF (Reg.fbWin d.ctx d.out) 0 16 = 0) ∧
      Frame s t (s.clk.outs.map (fun d => Reg.fbWin d.ctx d.out)) [.dev, .ctx]

/-- LOAD_BEGIN, LOAD_CHUNK, RELOCATE and PATCH build up the staged image, or are refused with the image as it was (R240, R241, R245, R247,
R252, Table 9.6, Table 9.7, log 32). The conclusion for each of loadBegin, loadChunk, relocate, patch, on conditions on the state and
the operands alone, is that exec answers a next state, with its own effect. -/
def Obligations.LoadingStagesAnImage : Prop :=
  ∀ (s : State) (h : Hdr), s.committing = false →
    (∀ len img base, s.ready h Op.loadBegin = true → fitAt s.heldImages len = some base →
      ∃ t, exec (.loadBegin h len img) s = .next t ∧
        Answered s t h Op.loadBegin [BitVec.ofNat 32 s.loader.nextHandle, if s.loader.staged.isSome then 1 else 0] ∧
        t.loader = { s.loader with
          staged := some { handle := s.loader.nextHandle, base := base, len := len, got := [], img := img, bases := [], parts := [],
                           patches := [], committing := false, validAt := none },
          nextHandle := s.loader.nextHandle % (2 ^ 32 - 1) + 1 } ∧ Frame s t [] [.owners, .loader]) ∧
    (∀ g : Staged, s.loader.staged = some g →
      (∀ off (bs : List W8), s.ready h Op.loadChunk = true → off % 32 = 0 → 32 ≤ bs.length → bs.length ≤ 16352 → off + bs.length ≤ g.len →
        g.got.any (fun e => rangesMeet (e.1, e.2 - e.1) (off, bs.length)) = false →
        ∃ t, exec (.loadChunk h g.handle off bs) s = .next t ∧ Answered s t h Op.loadChunk [] ∧
          t.loader = { s.loader with staged := some { g with got := g.got ++ [(off, off + bs.length)] } } ∧
          (∀ i, i < bs.length → t.rdB (imgAddr g.base off + i) = bs.getD i 0) ∧
          (∀ b, b < imgAddr g.base off ∨ imgAddr g.base off + bs.length ≤ b → t.rdB b = s.rdB b) ∧ SameRegs s t replyRegs ∧
          ∀ p, p ∉ [Part.poison, .loader] → p.Same s t) ∧
      (∀ ents : List RelocEnt, s.ready h Op.relocate = true → 1 ≤ ents.length → ents.length ≤ 1024 →
        (∀ x, s.relocAll g ents = some x →
          ∃ t, exec (.relocate h g.handle ents) s = .next t ∧ Answered s t h Op.relocate [] ∧
            t.loader = { s.loader with staged := some x } ∧ Frame s t [] [.loader]) ∧
        (s.relocAll g ents = none →
          ∃ t, exec (.relocate h g.handle ents) s = .next t ∧ Replied s t h Op.relocate Status.relocFault [0] ∧ Raised s t 0x9007 ∧
            Frame s t (raiseRegs 0x9007) raiseParts)) ∧
      (∀ (pid : Nat) (v : W64), s.ready h Op.patch = true → s.patchRej g.base g.img g.bases pid v.toNat = none →
        ∃ t, exec (.patch h none g.handle pid v) s = .next t ∧ Answered s t h Op.patch [] ∧
          t.loader = { s.loader with staged := some { g with patches := setPatch g.patches pid v } } ∧ Frame s t [] [.loader])) ∧
    (∀ k i pid v handle, s.ready h Op.patch = true → s.imageOf k = some i → s.atRest i.mask = false →
      ∃ t, exec (.patch h (some k) handle pid v) s = .next t ∧ Replied s t h Op.patch Status.stateIllegal [0xFFFF0000] ∧ Frame s t [] [])

/-- COMMIT is outstanding until its checks refuse the image or VALID makes its contexts Loaded; UNLOAD discards or frees (R174, R241, R242,
R243, R251, R252, R160, Table 9.9, log 32). The conclusion for each of commit, unload, loadInfo, contextStartStrobe, passSwitch,
commitWriteOut, commitValid, on conditions on the state and the operands alone, is that exec answers a next state, with its own effect. -/
def Obligations.CommitAndUnload : Prop :=
  (∀ (s : State) (h : Hdr) (g : Staged), s.loader.staged = some g → g.committing = false →
    (s.ready h Op.commit = true →
      ∃ t, exec (.commit h g.handle) s = .next t ∧ Taken s t h Op.commit (s.imgMask g.base) 0 ∧
        t.loader = { s.loader with staged := some { g with committing := true } } ∧ Frame s t [] [.owners, .loader]) ∧
    (∀ m, s.ready h Op.unload = true →
      ∃ t, exec (.unload h (some g.handle) m) s = .next t ∧ Answered s t h Op.unload [] ∧ t.loader = { s.loader with staged := none } ∧
        Frame s t [] [.loader])) ∧
  (∀ (s : State) (h : Hdr) (m : Nat), s.ready h Op.unload = true → m % 16 ≠ 0 → s.committing = false → s.atRest (m % 16) = true →
    s.atRest (maskOf (s.imagesOf (m % 16))) = true → s.ctx.length = 4 →
    ∃ t, exec (.unload h none m) s = .next t ∧ Answered s t h Op.unload [] ∧
      (∀ k ∈ s.imagesOf (m % 16), (t.cx k).unloadAt = some s.nextStrobe ∧ (t.cx k).heldOut = 0) ∧
      (∀ k, k ∉ s.imagesOf (m % 16) → t.cx k = s.cx k) ∧ Frame s t [] [.ctx]) ∧
  (∀ (s : State) (a : Async) (g : Staged), s.hubOn = true → s.loader.staged = some g → g.committing = true → g.validAt = none →
    (∀ k ∈ bitsOf (s.imgMask g.base) 4, (s.cx k).unloadAt = none) → s.pwr.asleep = 0 → s.host.async = [a] → a.opcode = Op.commit →
    (∀ r, s.commitChecks g = some r → 0x0901 ≤ r.status → r.status ≤ 0x090E →
      ∃ t, exec .commitWriteOut s = .next t ∧ Completed s t a r.status [r.detail] ∧ t.host.async = [] ∧
        t.loader = { s.loader with staged := some { g with committing := false } } ∧ Raised s t (r.status + 0x8700) ∧
        Frame s t (raiseRegs (r.status + 0x8700)) (.loader :: raiseParts)) ∧
    (s.commitChecks g = none →
      ∃ t, exec .commitWriteOut s = .next t ∧ t.host.async = [a] ∧
        t.loader = { s.loader with staged := some { g with validAt := some (s.validStrobe (s.imgMask g.base)) } } ∧
        ∀ p ∈ [Part.dev, .ctx, .clk, .owners, .windows, .log, .tod, .tick, .fe, .acq, .bus, .twin, .pwr, .warden], p.Same s t)) ∧
  (∀ (s : State) (a : Async) (g : Staged), s.hubOn = true → s.loader.staged = some g → g.validAt.any (fun n => decide (n ≤ s.tick.strobes)) = true → s.host.async = [a] →
    a.opcode = Op.commit → s.ctx.length = 4 → (∀ c ∈ g.img.ctxs, c.ctx < 4) → (∀ b ∈ g.img.blobs, b.tile < 16 ∧ b.row < 32 ∧ b.col < 16) →
    (∀ x ∈ s.clk.groups ++ g.img.groups.map (fun x => (x.tile, 16 * x.ctx + x.group)), x.1 < 16 ∧ x.2 < 64) →
    ∃ t, exec .commitValid s = .next t ∧ (∀ c ∈ g.img.ctxs, t.ctxState c.ctx = Ctx.loaded ∧ (t.cx c.ctx).image = some g.handle) ∧
      t.loader.staged = none ∧ t.loader.images.length = s.loader.images.length + 1 ∧ t.clk.outs = s.clk.outs ++ g.img.outputs ∧
      Completed s t a Status.ok [] ∧ t.host.async = [] ∧ SameMem s t ∧ ∀ p, p ∉ [Part.dev, .clk, .ctx, .twin, .loader] → p.Same s t) ∧
  (∀ (s : State) (h : Hdr) (k : Nat) (i : Image), s.ready h Op.loadInfo = true → k < 4 → s.imageOf k = some i →
    ∃ t out, exec (.loadInfo h k 0 0) s = .next t ∧ Answered s t h Op.loadInfo out ∧
      out.take 4 = lowHigh (s.imgUid i.base) ++ [BitVec.ofNat 32 (s.imgSig i.base), BitVec.ofNat 32 s.sigId] ∧ Frame s t [] []) ∧
  ∀ (s : State) (k p j : Nat) (i : Image), s.hubOn = true → k < 4 → s.ctx.length = 4 → s.imageOf k = some i → i.img.passes ≠ 0 →
    s.ctxTimed k = false → p = (s.passNow i.mask + 1) % i.img.passes → j = passSlot i.img p k →
    (s.ctxState k = Ctx.running → j = k → 1 ≤ (s.cx k).passEvents → s.surveyIdle k = true → (s.cx k).drainAt = none →
      ∃ t, exec (.passSwitch k) s = .next t ∧ t.cx k = { s.cx k with drainAt := some s.nextStrobe, passEnd := true } ∧ Frame s t [] [.ctx]) ∧
    (s.ctxState k = Ctx.retired → (s.cx k).passEnd = true → (∀ b ∈ i.img.blobs, b.ctx < 4) →
      ((s.cx j).shadow = some p →
        ∃ t, exec (.passSwitch k) s = .next t ∧ (t.cx j).passStart = some (s.nextStrobe, p) ∧ (t.cx j).cores = (s.cx j).cores ∧ Frame s t [] [.ctx]) ∧
      ((s.cx j).shadow ≠ some p → s.loaderAsleep = false →
        ∃ t, exec (.passSwitch k) s = .next t ∧ (t.cx j).passStart = some (t.nextStrobe, p) ∧ (t.cx j).shadow = some p ∧
          (t.cx j).cores = coresIn i.img j p ∧ (j ≠ k → (t.cx k).passEnd = false) ∧
          ∀ q ∈ [Part.owners, .tod, .tick, .banks, .link, .fe, .acq, .bus, .twin, .pwr, .loader, .warden, .subst], q.Same s t)) ∧
    (∀ (d : W32) (q : Nat), s.calm → s.dev.state ≠ .halted → s.inPlace → s.host.async = [] → (s.cx k).passStart = some (d, q) →
      (∀ x, x < 4 → x ≠ k → (s.cx x).passStart = none) → tickReached s.tickId d = true → s.ctxState k = Ctx.loaded ∨ s.ctxState k = Ctx.retired →
      ∃ t, exec .contextStartStrobe s = .next t ∧ t.ctxState k = Ctx.running ∧ t.rd (Reg.ctxrStart k) = s.tickId ∧
        (∀ x ∈ bitsOf i.mask 4, t.rdF (Reg.ctxrPass x) 16 16 = q % 2 ^ 16) ∧ (t.cx k).passStart = none ∧
        (∀ e ∈ s.coresOf k, t.ctxValid e.1 e.2 k = true) ∧ SameMem s t ∧ ∀ y, y ∉ [Part.dev, .clk, .ctx] → y.Same s t)

/-- Training goes through its steps, fails by attempts up to Down, and restarts from attempt 1 (R256, R258, R266, R267, R268, R269, R270,
R271, Table 10.3, Table 10.7, log 21). The conclusion for each of laneConfig, laneTrain, trainingBlock, trainStepTimeout,
trainBackoffEnd, autoRetry, lockHuntTimeout, signalDetect, adaptConverged, on conditions on the state and the operands alone, is that
exec answers a next state, with its own effect. -/
def Obligations.LanesTrain : Prop :=
  ∀ (s : State) (n : Nat), n < 144 →
    (s.calwiza n = true → s.rxState n = Rx.training → (s.lane n).backoff = false →
      (s.trainStep n = 1 → ∃ t, exec (.signalDetect n) s = .next t ∧ t.trainStep n = 2 ∧ t.rxState n = Rx.training ∧
        Frame s t [Reg.laneState n] []) ∧
      (s.trainStep n = 2 → ∃ t, exec (.adaptConverged n) s = .next t ∧ t.trainStep n = 3 ∧
        (∀ i, i < 3 → t.rd (Reg.dfeTaps n i) = Config.laneAnalog n (1 + i)) ∧
        Frame s t [Reg.laneState n, Reg.rxEq n, Reg.dfeTaps n 0, Reg.dfeTaps n 1, Reg.dfeTaps n 2] []) ∧
      (∀ (w : W64) (sat : Bool), w.toNat / 2 ^ 12 % 8 = 0 → s.decodes n 2 w = true → (s.fecBlock n).1 = false → (s.lane n).bad < 24 →
        (s.trainStep n = 3 → s.lockState n = 0 → (s.lane n).good = 63 →
          ∃ t, exec (.trainingBlock n w sat) s = .next t ∧ t.lockState n = 2 ∧ t.trainStep n = 4 ∧ Frame s t [Reg.laneState n] [.link] ∧
            (s.txState n = 2 → s.laneRate n < 4 → (s.lane n).flips = [] → (s.lane n).injecting = false →
              (t.link.line.drop s.link.line.length).map (fun e => (e.1, e.2.1, e.2.2.toNat % 256)) = [(n, 2, 0xE1)] ∧
          t.link.line.take s.link.line.length = s.link.line)) ∧
        (s.trainStep n = 4 → bit (s.rd (Reg.laneCfg n)) 24 = false →
          ∃ t, exec (.trainingBlock n w sat) s = .next t ∧ t.trainStep n = 5 ∧ t.rdF (Reg.laneState n) 8 8 = w.toNat / 2 ^ 18 % 256 ∧
            t.rdF (Reg.laneState n) 0 6 = w.toNat / 2 ^ 26 % 64 ∧ (t.lane n).identOk = true ∧
            Frame s t [Reg.laneState n, Reg.partnerTag n] [.link]) ∧
        (s.trainStep n = 5 → sat = true →
          ∃ t, exec (.trainingBlock n w sat) s = .next t ∧ t.trainStep n = 6 ∧ Frame s t [Reg.laneState n] [.link]) ∧
        (s.trainStep n = 6 → w.toNat / 2 ^ 38 % 2 = 1 →
          ∃ t, exec (.trainingBlock n w sat) s = .next t ∧ t.rxState n = Rx.locked ∧ Frame s t [Reg.laneState n] [.link])) ∧
      (s.rdF (Reg.laneState n) 16 4 < 8 →
        ∃ t, exec (.trainStepTimeout n) s = .next t ∧ (t.lane n).backoff = true ∧ Frame s t [] [.link]) ∧
      (s.rdF (Reg.laneState n) 16 4 = 8 → (s.lane n).downTold = false →
        ∃ t, exec (.trainStepTimeout n) s = .next t ∧ t.rxState n = Rx.down ∧ t.rd (Reg.downCount n) = satInc (s.rd (Reg.downCount n)) ∧
          Raised s t Code.laneDown ∧ Frame s t ([Reg.laneState n, Reg.downCount n] ++ raiseRegs Code.laneDown) (.link :: raiseParts))) ∧
    (s.inGroup n = false →
      (s.rxState n = Rx.training → (s.lane n).backoff = true →
        ∃ t, exec (.trainBackoffEnd n) s = .next t ∧ t.rxState n = Rx.training ∧ t.trainStep n = 1 ∧
          t.rdF (Reg.laneState n) 16 4 = (s.rdF (Reg.laneState n) 16 4 + 1) % 16 ∧ (t.lane n).backoff = false ∧
          Frame s t [Reg.laneState n] [.link]) ∧
      (s.rxState n = Rx.down → bit (s.rd (Reg.laneCfg n)) 25 = true →
        ∃ t, exec (.autoRetry n) s = .next t ∧ t.rxState n = Rx.training ∧ t.trainStep n = 1 ∧ t.rdF (Reg.laneState n) 16 4 = 1 ∧
          Frame s t [Reg.laneState n] [.link]) ∧
      (s.calwiza n = true → (s.lane n).hunting = true →
        ∃ t, exec (.lockHuntTimeout n) s = .next t ∧ t.rxState n = Rx.training ∧ t.trainStep n = 1 ∧ (t.lane n).hunting = false ∧
          Frame s t [Reg.laneState n] [.link]) ∧
      (∀ h : Hdr, s.ready h Op.laneTrain = true → s.calwiza n = true →
        ∃ t, exec (.laneTrain h n) s = .next t ∧ Answered s t h Op.laneTrain [] ∧ t.rxState n = Rx.training ∧
          t.txState n = (if s.link.pll.getD (n / 36) true then 2 else 1) ∧
          t.trainStep n = 1 ∧ t.rdF (Reg.laneState n) 16 4 = 1 ∧ Frame s t [Reg.laneState n] [.link])) ∧
    (∀ (h : Hdr) (q rate : Nat) (modes : List Nat), s.ready h Op.laneConfig = true → q < 36 → rate ≤ 5 → modes.length = 4 →
      modes.all (modeOk rate) = true → (∀ i, i < 4 → s.laneInUse (4 * q + i) = false ∧ s.inGroup (4 * q + i) = false) →
      ∃ t, exec (.laneConfig h q rate modes) s = .next t ∧ Answered s t h Op.laneConfig [] ∧
        (∀ i, i < 4 → t.laneMode (4 * q + i) = modes.getD i 0 ∧ t.laneRate (4 * q + i) = rate ∧
          (3 ≤ modes.getD i 0 → s.laneMode (4 * q + i) ≠ modes.getD i 0 → t.laneGrp (4 * q + i) = none)) ∧
        ((∀ i, i < 4 → 3 ≤ modes.getD i 0 → s.laneGrp (4 * q + i) = none) →
          Frame s t ((List.range 4).flatMap (fun i =>
            [Reg.laneCfg (4 * q + i), Reg.laneState (4 * q + i), Reg.prbsStat (4 * q + i), Reg.injCount (4 * q + i)])) [.link]))

/-- Blocks are descrambled and kept, lock falls at the 24th bad header, a good marker joins the group, a TX PLL idles its lanes (R259, R271,
R273, R274, R275, R277, R280, R282, R283, R303, Table 10.4, Table 10.5). The conclusion for each of blockReceive, alignmentMarker,
markerSend, txPllUnlock, txPllRelock, fecCodeword, on conditions on the state and the operands alone, is that exec answers a next state,
with its own effect. -/
def Obligations.BlocksMarkersAndGroups : Prop :=
  (∀ (s : State) (n : Nat), n < 144 → s.calwiza n = true →
    (s.rxState n = Rx.locked ∨ s.rxState n = Rx.aligned → s.lockState n = 2 → (s.lane n).holdIn = none →
    (∀ (w : W64) (fill : Int), s.decodes n 1 w = true → (s.fecBlock n).1 = false → (s.lane n).win < 255 → (s.lane n).bad < 24 →
      (s.inGroup n = false →
        ∃ t, exec (.blockReceive n 1 w fill) s = .next t ∧ t.lockState n = 2 ∧ (t.lane n).win = (s.lane n).win + 1 ∧
          (t.lane n).descram = (descrambleBits w.toNat 64 0 (s.lane n).descram 0).2 ∧ t.rdF (Reg.ebStat n) 0 9 = ofSigned 9 fill % 512 ∧
          Frame s t [Reg.ebStat n] [.link]) ∧
      (∀ g, s.inGroup n = true → s.laneMode n = 1 → fill.natAbs ≤ 256 → s.laneGrp n = some g → (s.grpSt g).drops = [] →
        (s.lane n).rx.length < 64 → s.relayPrimary = false →
        ∃ t b, exec (.blockReceive n 1 w fill) s = .next t ∧ (t.lane n).rx = (s.lane n).rx ++ [b] ∧ b.ctl = false ∧ b.bad = false ∧
          b.w = BitVec.ofNat 64 (descrambleBits w.toNat 64 0 (s.lane n).descram 0).1 ∧ Frame s t [Reg.ebStat n] [.link])) ∧
    (∀ (w : W64) (fill : Int), s.decodes n 0 w = true → (s.lane n).bad = 23 → s.inGroup n = false →
      ∃ t, exec (.blockReceive n 0 w fill) s = .next t ∧ t.lockState n = 0 ∧ (t.lane n).hunting = true ∧
        t.rd (Reg.lockLosses n) = satInc (s.rd (Reg.lockLosses n)) ∧ Raised s t Code.laneLockLoss ∧
        Frame s t ([Reg.laneState n, Reg.ebStat n, Reg.lockLosses n] ++ raiseRegs Code.laneLockLoss) (.link :: raiseParts)) ∧
    (∀ (w : W64) (late g : Nat), s.decodes n 2 w = true → (s.fecBlock n).1 = false → (s.lane n).bad < 24 → s.markerError n w = false →
      (s.lane n).seqSeen = none → s.laneMode n = 1 → s.laneGrp n = some g → g < 64 →
      n ∈ s.grpLanes g → s.inGroup n = false → (s.lane n).lost = false → (s.lane n).identOk = true → late ≤ s.skewLimit n g → late < 512 →
      ∃ t, exec (.alignmentMarker n w late none) s = .next t ∧ t.inGroup n = true ∧ t.rxState n = Rx.aligned ∧
        t.rdF (Reg.ebStat n) 23 9 = late ∧
        Frame s t ([Reg.laneState n, Reg.ebStat n, Reg.grpStat g] ++ raiseRegs Code.groupDegraded) (.link :: raiseParts)) ∧
    (∀ (w : W64) (late : Nat) (sp : Option Nat), s.decodes n 2 w = true → (s.fecBlock n).1 = false → (s.lane n).bad < 24 →
      s.markerError n w = true → (s.lane n).seqSeen = none → s.inGroup n = false →
      ∃ t, exec (.alignmentMarker n w late sp) s = .next t ∧ t.rd (Reg.markerErrs n) = satInc (s.rd (Reg.markerErrs n)) ∧
        (t.lane n).goodMarkers = 0 ∧ Frame s t [Reg.markerErrs n] [.link])) ∧
    (∀ (g : Nat) (u : State), s.sends n = true → s.laneGrp n = some g → u = s.settleTx g →
      (∀ m ∈ u.grpLanes g, u.sends m = true → u.markerDue m = true) →
      ((u.grpSt g).take ((u.txPos ((u.grpLanes g).filter u.sends)).getD 0) false).1 = none →
      ∃ t, exec (.markerSend n) s = .next t ∧
        t.link.blocks = u.link.blocks ++ ((u.grpLanes g).filter u.sends).map (fun m => (m, u.markerWord m)) ∧
        (∀ m ∈ u.grpLanes g, u.sends m = true → (u.markerWord m).toNat % 256 = 0xE0 ∧ (t.lane m).txSeq = ((u.lane m).txSeq + 1) % 256) ∧
        Frame s t [] [.link])) ∧
  (∀ (s : State) (n : Nat) (message check levels : List Nat), n < 144 → s.calwiza n = true → 4 ≤ s.laneRate n → message.length = 650 →
    check.length = 50 → levels = message ++ check → (∀ l ∈ levels, l < 4) →
    ((s.lane n).fecLock = false →
      (∀ bl, fecDecode levels = some (bl, 0) →
        ∃ t, exec (.fecCodeword n message check) s = .next t ∧ (t.lane n).fecLock = decide (2 ≤ (s.lane n).fecGood) ∧
          ((s.lane n).fecGood < 2 → (t.lane n).fecGood = (s.lane n).fecGood + 1) ∧ Frame s t [] [.link]) ∧
      (fecDecode levels = none →
        ∃ t, exec (.fecCodeword n message check) s = .next t ∧ (t.lane n).fecLock = false ∧ (t.lane n).fecGood = 0 ∧ Frame s t [] [.link])) ∧
    ((s.lane n).fecLock = true →
      (∀ bl c, fecDecode levels = some (bl, c) → 1 ≤ c →
        ∃ t, exec (.fecCodeword n message check) s = .next t ∧ t.rd (Reg.fecCorr n) = satInc (s.rd (Reg.fecCorr n)) ∧ (t.lane n).fecFails = 0 ∧
          (t.lane n).fecBlocks = bl.map some ∧ Frame s t [Reg.fecCorr n] [.link]) ∧
      (fecDecode levels = none → (s.lane n).fecFails < 7 →
        ∃ t, exec (.fecCodeword n message check) s = .next t ∧ t.rd (Reg.fecUncorr n) = satInc (s.rd (Reg.fecUncorr n)) ∧
          (t.lane n).fecBlocks = List.replicate 20 none ∧ (t.lane n).fecFails = (s.lane n).fecFails + 1 ∧ Raised s t Code.fecUncorr ∧
          Frame s t (Reg.fecUncorr n :: raiseRegs Code.fecUncorr) (.link :: raiseParts)) ∧
      (fecDecode levels = none → (s.lane n).fecFails = 7 → s.lockState n = 2 → s.inGroup n = false →
        ∃ t, exec (.fecCodeword n message check) s = .next t ∧ (t.lane n).fecLock = false ∧ t.lockState n = 0 ∧ (t.lane n).hunting = true ∧
          t.rd (Reg.lockLosses n) = satInc (s.rd (Reg.lockLosses n))))) ∧
  ∀ (s : State) (e : Nat), e < 4 → (∀ n ∈ edgeLanes e, s.inGroup n = false) →
    (s.link.pll.getD e false = true →
      ∃ t, exec (.txPllUnlock e) s = .next t ∧ t.link.pll = s.link.pll.set e false ∧
        (∀ n ∈ edgeLanes e, t.txState n = (if s.txState n = 2 then 1 else s.txState n)) ∧ Raised s t Code.txPllUnlock ∧
        Frame s t ((edgeLanes e).map Reg.laneState ++ raiseRegs Code.txPllUnlock) (.link :: raiseParts)) ∧
    (s.link.pll.getD e true = false →
      ∃ t, exec (.txPllRelock e) s = .next t ∧ t.link.pll = s.link.pll.set e true ∧
        (∀ n ∈ edgeLanes e, s.calwiza n = true → s.rxState n ≠ Rx.off ∨ s.txState n ≠ 0 → t.rxState n = Rx.training ∧ t.txState n = 2) ∧
        (∀ n ∈ edgeLanes e, s.calwiza n = false → t.txState n = (if (s.lane n).pllIdle then 2 else s.txState n)) ∧
        Frame s t ((edgeLanes e).map Reg.laneState) [.link])

/-- LANE_POWER, LANE_GROUP, LANE_PRBS, LANE_INJECT and LANE_EYE set what they name on lanes that are not in use (R263, R265, R275, R284,
R285, R286, R287, R288, Table 10.6, Table 10.8, log 21). The conclusion for each of lanePower, laneGroup, lanePrbs, laneInject, laneEye,
injGo, lanePowerReturn, laneEyeDone, prbsCheckerLock, on conditions on the state and the operands alone, is that exec answers a next
state, with its own effect. -/
def Obligations.LaneServicesAndGroupSetup : Prop :=
  (∀ (s : State) (h : Hdr) (n : Nat), n < 144 →
    (s.ready h Op.lanePower = true → s.laneInUse n = false → s.inGroup n = false →
      (∃ t, exec (.lanePower h n 0 0) s = .next t ∧ Answered s t h Op.lanePower [] ∧ t.txState n = 0 ∧ t.rxState n = Rx.off ∧
        Frame s t [Reg.laneState n] [.link]) ∧
      (s.calwiza n = true → s.txState n = 0 → s.rxState n = Rx.off →
        ∃ t, exec (.lanePower h n 2 2) s = .next t ∧ Answered s t h Op.lanePower [] ∧ t.txState n = (if s.link.pll.getD (n / 36) true then 2 else 1) ∧
          t.rxState n = Rx.training ∧
          t.trainStep n = 1 ∧ t.rdF (Reg.laneState n) 16 4 = 1 ∧ Frame s t [Reg.laneState n] [.link]) ∧
      (s.txState n = 2 → s.rxState n = Rx.locked → s.laneGrp n = none →
        (∃ t, exec (.lanePower h n 1 2) s = .next t ∧ t.txState n = 1 ∧ t.rxState n = Rx.locked ∧ Answered s t h Op.lanePower [] ∧
          Frame s t [Reg.laneState n] [.link]) ∧
        (∃ t, exec (.lanePower h n 2 1) s = .next t ∧ t.txState n = 2 ∧ t.rxState n = Rx.hold ∧ (t.lane n).heldState = Rx.locked ∧
          Answered s t h Op.lanePower [] ∧ Frame s t [Reg.laneState n] [.link]))) ∧
    (s.ready h Op.lanePower = true → s.laneInUse n = true →
      ∃ t, exec (.lanePower h n 0 0) s = .next t ∧ Replied s t h Op.lanePower Status.laneInUse [BitVec.ofNat 32 (0xFFFF0000 + n)] ∧
        Frame s t [] []) ∧
    (∀ w : W32, s.ready h Op.lanePrbs = true → s.laneMode n = 4 → fld w 26 3 ≤ 4 → s.shedStage = 0 → s.laneInUse n = false →
      ∃ t, exec (.lanePrbs h n w) s = .next t ∧ t.rd (Reg.prbsCfg n) = setFld w 0 26 0 ∧
        (bit w 30 = true → t.rd (Reg.prbsBits n 0) = 0 ∧ t.rd (Reg.prbsBits n 1) = 0) ∧ Answered s t h Op.lanePrbs [] ∧
        Frame s t [Reg.prbsCfg n, Reg.prbsBits n 0, Reg.prbsBits n 1, Reg.prbsStat n] [.link]) ∧
    (∀ w : W32, s.ready h Op.laneInject = true → 4 ≤ fld w 18 6 → fld w 18 6 ≤ 40 → s.shedStage = 0 → s.laneInUse n = false → bit w 0 = false →
      ∃ t, exec (.laneInject h n w) s = .next t ∧ t.rd (Reg.injCfg n) = setFld w 0 18 0 ∧ Answered s t h Op.laneInject [] ∧
        t.rd (Reg.injCount n) = s.injNow n ∧ Frame s t [Reg.injCfg n, Reg.injCount n] [.link]) ∧
    (s.ready h Op.laneEye = true → s.rxState n ≠ Rx.off → n ∉ s.link.scans → s.shedStage = 0 →
      ∃ t, exec (.laneEye h n) s = .next t ∧ Taken s t h Op.laneEye n 0 ∧ t.link.scans = s.link.scans ++ [n] ∧ Frame s t [] [.link])) ∧
  (∀ (s : State) (n : Nat), n < 144 →
    ((s.lane n).txReturn = true →
      ∃ t, exec (.lanePowerReturn n true) s = .next t ∧ t.txState n = (if s.link.pll.getD (n / 36) true then 2 else 1) ∧ (t.lane n).txReturn = false ∧ Frame s t [Reg.laneState n] [.link]) ∧
    ((s.lane n).rxReturn = true → s.rxState n = Rx.hold →
      ∃ t, exec (.lanePowerReturn n false) s = .next t ∧ t.rxState n = (s.lane n).heldState % 8 ∧ Frame s t [Reg.laneState n] [.link]) ∧
    (s.hubOn = true → s.laneInUse n = false → s.shedStage = 0 → s.laneMode n ≠ 0 → s.laneMode n ≠ 3 → s.rdF (Reg.injCfg n) 30 2 = 1 →
      ∃ t, exec (.injGo n) s = .next t ∧ t.rd (Reg.injCount n) = s.rd (Reg.injCount n) + 1 ∧
        (∃ b, (b, 1) ∈ (t.lane n).flips) ∧ Frame s t [Reg.injCount n] [.link]) ∧
    (∀ (b err : Bool) (k : Nat) (l : LaneSt), s.laneMode n = 4 → s.rxState n ≠ Rx.off → bit (s.rd (Reg.prbsCfg n)) 30 = true →
      k = s.rdF (Reg.prbsCfg n) 26 3 → l = s.lane n → (prbsPoly k).1 ≤ l.chkFill →
      err = (prbsNext k l.chkReg != (b != bit (s.rd (Reg.prbsCfg n)) 29)) →
      (bit (s.rd (Reg.prbsStat n)) 31 = true → l.chkErrs.length < 63 →
        ∃ t, exec (.prbsCheckerLock n [b]) s = .next t ∧ t.rd (Reg.prbsStat n) = s.rd (Reg.prbsStat n) ∧
          t.rd (Reg.prbsBits n 0) = s.rd (Reg.prbsBits n 0) + 1 ∧
          t.rd (Reg.prbsErrs n) = (if err then satInc (s.rd (Reg.prbsErrs n)) else s.rd (Reg.prbsErrs n)) ∧
          Frame s t [Reg.prbsBits n 0, Reg.prbsBits n 1, Reg.prbsErrs n] [.link]) ∧
      (bit (s.rd (Reg.prbsStat n)) 31 = true → err = true → (l.chkErrs.filter (fun x => decide (l.chkBits + 1 < x + 1024))).length = 63 →
        ∃ t, exec (.prbsCheckerLock n [b]) s = .next t ∧ t.rd (Reg.prbsStat n) = 0 ∧ t.rd (Reg.prbsErrs n) = satInc (s.rd (Reg.prbsErrs n)) ∧
          Frame s t [Reg.prbsStat n, Reg.prbsBits n 0, Reg.prbsBits n 1, Reg.prbsErrs n] [.link]) ∧
      (bit (s.rd (Reg.prbsStat n)) 31 = false → err = false → l.chkRun = 63 →
        ∃ t, exec (.prbsCheckerLock n [b]) s = .next t ∧ t.rd (Reg.prbsStat n) = 0x80000000 ∧ Frame s t [Reg.prbsStat n] [.link])) ∧
    (∀ (a : Async) (y x : Nat), n ∈ s.link.scans → s.host.async = [a] → a.opcode = Op.laneEye → a.mask = n → y < 65536 → x < 65536 →
      ∃ t, exec (.laneEyeDone n y x) s = .next t ∧ t.rd (Reg.eye n) = BitVec.ofNat 32 (y * 65536 + x) ∧ n ∉ t.link.scans ∧
        Completed s t a Status.ok [] ∧ t.host.async = [] ∧ Frame s t [Reg.eye n] [.link])) ∧
  ∀ (s : State) (h : Hdr) (g : Nat) (c : GroupCfg), s.ready h Op.laneGroup = true → g < 64 → c.en = true → s.groupLanesOk g c = true →
    c.fcEn = false → c.acceptEn = false →
    s.dev.concentrator = false ∨ s.inboundGrp g = false ∨ s.inboundLanes g + c.lanes.length ≤ 128 → (∀ n ∈ c.lanes, s.laneInUse n = false) → bit (s.rd (Reg.grpCfg g)) 31 = false →
    ∃ t, exec (.laneGroup h g c) s = .next t ∧ Answered s t h Op.laneGroup [] ∧ bit (t.rd (Reg.grpCfg g)) 31 = true ∧ t.grpState g = 0 ∧
      t.declSkew g = c.declSkew ∧ (∀ i, i < c.lanes.length → t.laneGrp (c.lanes.getD i 0) = some g ∧ t.lanePos (c.lanes.getD i 0) = i) ∧
      Frame s t ([Reg.fastCtl g, Reg.grpCfg g, Reg.grpStat g] ++ (List.range 64).map Reg.grpLanesLo ++ (List.range 64).map Reg.grpLanesHi ++
        c.lanes.map Reg.laneCfg) [.link] ∧
      ∀ x, x < 64 → x ≠ g → (∀ n ∈ c.lanes, n ∉ s.grpLanes x) → t.grpLanes x = s.grpLanes x

/-- Event frames are accepted in their place, closed at their trailer, and their fields released on time or by fill (R294, R295, R297, R298,
R299, R306, R307, Table 11.3, log 22). The conclusion for each of eventHdr, trailer, fieldRelease, frameAbsent, outboundFrameSend, on
conditions on the state and the operands alone, is that exec answers a next state, with its own effect. -/
def Obligations.EventFramesAndFields : Prop :=
  ∀ (s : State) (g : Nat), g < 64 →
    (∀ (cyc w st : Nat) (n : W32) (b : Blk), s.frontCtl g isHeader = some b → w = b.w.toNat → w % 256 = 0xE2 → st = wbits w 24 8 →
      n = BitVec.ofNat 32 (wbits w 32 32) → ¬(g = 63 ∧ st = 255 ∧ bit (s.rd Reg.twinCfg) 31 = true) →
      (s.headerFits g st n cyc = true → s.findFrame g st n = none →
        ∃ t f, exec (.eventHdr g cyc) s = .next t ∧ t.link.frames = s.link.frames ++ [f] ∧ f.group = g ∧ f.stream = st ∧ f.tick = n ∧
          f.rows = wbits w 16 8 + 1 ∧ f.closed = false ∧ Frame s t [] [.tod, .link]) ∧
      (s.headerFits g st n cyc = false →
        ∃ t, exec (.eventHdr g cyc) s = .next t ∧ t.link.frames = s.link.frames ∧ Raised s t Code.frameTick ∧
          Frame s t (raiseRegs Code.frameTick) ([.tod, .link] ++ raiseParts))) ∧
    (∀ (st : Nat) (f : RxFrame) (a : Assembled), st < 256 →
      s.link.frames.find? (fun x => x.group == g && x.stream == st && !x.closed) = some f → s.arrived g (f.ix + 1 + f.rows) = true →
      a = s.assemble g f.ix ((List.range f.rows).map (fun r => f.ix + 1 + r)) (f.ix + 1 + f.rows) →
      (a.erased = false → a.crcFail = false →
        ∃ t, exec (.trailer g st) s = .next t ∧ Frame s t [Reg.grpParityUsed g, Reg.grpStat g] [.link] ∧
          t.grpState g = (if s.grpState g = 0 then 0 else if a.rebuilt then max 2 (s.grpByLanes g) else s.grpByLanes g) ∧
          t.link.frames = s.link.frames.map (fun x => if x = f then
            { f with closed := true, bytes := a.bytes, raw := a.raw, rebuilt := a.rebuilt, crcFail := false } else x)) ∧
      (a.erased = true → a.crcFail = true →
        ∃ t, exec (.trailer g st) s = .next t ∧ Raised s t Code.frameCrc ∧ t.clk.failed = (s.failStream g st f.tick).clk.failed ∧
          (s.grpState g ≠ 0 → t.grpState g = 3) ∧
          Frame s t ([Reg.grpStat g, Reg.grpParityUsed g, Reg.grpMissing g] ++ raiseRegs Code.frameCrc ++ raiseRegs Code.groupDegraded)
            ([.clk, .link] ++ raiseParts))) ∧
    (∀ (f st : Nat) (n : W32), f < 1024 → bit (s.rd (Reg.fieldEnt f)) 31 = true → bit (s.rd (Reg.fieldEnt f)) 29 = false →
      s.rdF (Reg.fieldEnt f) 23 6 = g → s.rdF (Reg.fieldEnt f) 15 8 = st → n = s.tickId - BitVec.ofNat 32 (s.rdF (Reg.fieldEnt f + 8) 24 8) →
      (∀ bs, s.payloadBytes g st n (s.rdF (Reg.fieldEnt f) 0 15) (s.rdF (Reg.fieldEnt f + 4) 27 5 + 1) = .ok bs →
        ∃ t, exec (.fieldRelease f) s = .next t ∧ t.ant.mesh = (s.deliverField f n bs).ant.mesh ∧ Frame s t [] [.tod, .ant]) ∧
      (s.payloadBytes g st n (s.rdF (Reg.fieldEnt f) 0 15) (s.rdF (Reg.fieldEnt f + 4) 27 5 + 1) = .error false →
        ∃ t, exec (.fieldRelease f) s = .next t ∧
          t.ant.mesh = (s.deliverField f n (fillBytes (s.rd (Reg.fieldEnt f + 0xC)) (s.rdF (Reg.fieldEnt f + 4) 27 5 + 1))).ant.mesh ∧
          t.rd (Reg.fieldEnt f + 0x10) = satInc (s.rd (Reg.fieldEnt f + 0x10)) ∧ (t.streamEv g st n).filled = true ∧
          Frame s t [Reg.fieldEnt f + 0x10] [.tod, .ant, .link])) ∧
    (∀ (st : Nat) (e : Int) (n : W32), st < 256 → s.expected g st = some e → n = s.tickId - BitVec.ofInt 32 (e / (max 1 s.cTick : Nat)) →
      s.findFrame g st n = none → (s.streamEv g st n).absent = false → s.grpState g ≠ 0 →
      ∃ t, exec (.frameAbsent g st) s = .next t ∧ (t.streamEv g st n).absent = true ∧ Raised s t Code.frameAbsent ∧
        Frame s t (raiseRegs Code.frameAbsent) ([.tod, .link] ++ raiseParts)) ∧
    ∀ st, st < 64 → nbit (s.outEntry st) 63 = true → s.shedStage < 3 →
      ∃ t l f, exec (.outboundFrameSend st) s = .next t ∧ t.link.sent = s.link.sent ++ l ++ [f] ∧
        (s.txClear (wbits (s.outEntry st) 57 6) → l = []) ∧ f.group = wbits (s.outEntry st) 57 6 ∧
        f.hdr.toNat % 256 = 0xE2 ∧ Frame s t [] [.tod, .link]

/-- Control frames run commands, bring replies, announce idle and measure round trips; ACK, NAK and timeouts run the replay (R285, R300,
R301, R302, R310, R312, R314, R373, R380, R398, log 22). The conclusion for each of ctrlCommand, ctrlReply, txIdle, ping, pong, timeHdr,
fastTick, ack, nak, replayTimeout, on conditions on the state and the operands alone, is that exec answers a next state, with its own
effect. -/
def Obligations.ControlTimeAndFastBlocks : Prop :=
  ∀ (s : State) (g : Nat), g < 64 →
    (∀ p : Popped, s.popFrame g 0xE4 = some p → p.ok = true → wbits p.hdr 58 6 = s.dev.partId →
      (∀ ws, s.hubOn = true → wbits p.hdr 48 4 = 0 →
        ws = (wordsOf p.bytes).take (4 + fld ((wordsOf p.bytes).getD 1 0) 0 16) → s.packetRej (.inband g (wbits p.hdr 52 6)) ws = none →
        s.transportOk (.inband g (wbits p.hdr 52 6)) (fld (ws.getD 0 0) 0 16) = true → fld (ws.getD 1 0) 16 16 = 0 →
        ∃ t, exec (.ctrlCommand g) s = .next t ∧ t.host.fetched = s.host.fetched ++ [⟨.inband g (wbits p.hdr 52 6), ws⟩] ∧
          (t.grpSt g).rxSeq = ((s.grpSt g).rxSeq + 1) % 256 ∧ t.fastSent g = s.fastSent g ++ [fastWord s.tickId 3 (s.grpSt g).rxSeq] ∧
          Frame s t [] [.link]) ∧
      (∀ f : Forwarded, s.hubOn = true → wbits p.hdr 48 4 = 1 →
        s.host.forwarded.find? (fun x => x.part == wbits p.hdr 52 6 && x.tag == fld ((wordsOf p.bytes).getD 0 0) 16 16) = some f →
        ∃ t, exec (.ctrlReply g) s = .next t ∧
          t.outbox f.transport = s.outbox f.transport ++ [replyOf f.transport (wordsOf p.bytes)] ∧ Frame s t [] [.link] ∧
          ((replyOf f.transport (wordsOf p.bytes)).status = Status.accepted → t.host.forwarded = s.host.forwarded)) ∧
      (wbits p.hdr 48 4 = 2 →
        ∃ t, exec (.txIdle g) s = .next t ∧
          (∀ n ∈ s.grpLanes g, s.rxState n = Rx.locked ∨ s.rxState n = Rx.aligned →
            (bytesAt p.bytes 0 2 ≤ s.blocksSince n p.last → t.rxState n = Rx.hold) ∧
            (s.blocksSince n p.last < bytesAt p.bytes 0 2 → t.rxState n = s.rxState n ∧
              (t.lane n).holdIn = some (bytesAt p.bytes 0 2 - s.blocksSince n p.last))) ∧
          Frame s t ((s.grpLanes g).map Reg.laneState) [.link]) ∧
      (wbits p.hdr 48 4 = 3 → s.txOpen g →
        ∃ t f, exec (.ping g) s = .next t ∧ t.link.sent = s.link.sent ++ [f] ∧ f.group = g ∧
          wbits f.hdr.toNat 58 6 = wbits p.hdr 52 6 ∧ wbits f.hdr.toNat 48 4 = 4 ∧
          f.payload = bytesLE 8 (bytesAt p.bytes 0 8) ++ bytesLE 8 64 ∧ Frame s t [] [.link]) ∧
      (∀ cyc, wbits p.hdr 48 4 = 4 → (s.grpSt g).declRt = none →
        ∃ t, exec (.pong g cyc) s = .next t ∧
          t.rd (Reg.rtMeas g) = BitVec.ofNat 32 (min (t.tod.fab - bytesAt p.bytes 0 8 - 64) 65535) ∧ Frame s t [Reg.rtMeas g] [.tod, .link])) ∧
    (∀ p : Popped, s.popFrame g 0xE4 = some p → p.ok = false →
      ∃ t, exec (.ping g) s = .next t ∧ t.rd Reg.ctrlDrops = satInc (s.rd Reg.ctrlDrops) ∧ (s.txClear g → t.link.sent = s.link.sent) ∧
        t.fastSent g = s.fastSent g ++ [fastWord s.tickId 4 (s.grpSt g).rxSeq] ∧
        Frame s t [Reg.ctrlDrops] [.link]) ∧
    (∀ p : Popped, s.popFrame g 0xE5 = some p → p.ok = true →
      ∃ t, exec (.timeHdr g) s = .next t ∧ (t.grpSt g).timeCount = (s.grpSt g).timeCount + 1 ∧ Frame s t [] [.link]) ∧
    (∀ w u, s.takeFast g 3 = some (w, u) → (s.grpSt g).kept.any (fun k => k.seq == wbits w 8 8) = true →
      (s.txClear g →
        ∃ t, exec (.ack g) s = .next t ∧ (t.grpSt g).kept = ((s.grpSt g).kept.dropWhile (fun k => k.seq != wbits w 8 8)).drop 1 ∧
          Frame s t [] [.link]) ∧
      (∀ f : TxFrame, (s.grpSt g).waits = [f] → f.group = g → (s.grpSt g).kept.length = 64 → (s.grpSt g).down = false → s.linkSlots g = [] →
        (s.host.inbandReplies.filter (fun e => e.1 == g)).length ≤ (s.grpSt g).repSent →
        ∃ t f', exec (.ack g) s = .next t ∧ (t.grpSt g).waits = [] ∧ t.link.sent = s.link.sent ++ [f'] ∧ f'.group = g ∧
          f'.payload = f.payload ∧ Frame s t [] [.link])) ∧
    (∀ w u ks, s.takeFast g 4 = some (w, u) → ks = (s.grpSt g).kept.dropWhile (fun k => k.seq != wbits w 8 8) → (∀ k ∈ ks, k.resends < 8 ∧ k.frame.group = g) →
      s.txClear g → ∃ t, exec (.nak g) s = .next t ∧ t.link.sent = s.link.sent ++ ks.map (·.frame) ∧ Frame s t [] [.link]) ∧
    (∀ k rest, (s.grpSt g).kept = k :: rest → k.sentAt + 4096 ≤ s.tod.fab →
      ((∀ x ∈ k :: rest, x.resends < 8 ∧ x.frame.group = g) → s.txClear g →
        ∃ t, exec (.replayTimeout g) s = .next t ∧ t.link.sent = s.link.sent ++ (k :: rest).map (·.frame) ∧ Frame s t [] [.link]) ∧
      (8 ≤ k.resends → s.link.remotes = [] → (s.grpSt g).waits = [] → (∀ x ∈ k :: rest, wbits x.frame.hdr.toNat 52 6 = s.dev.partId) →
        ∃ t, exec (.replayTimeout g) s = .next t ∧ (t.grpSt g).down = true ∧ t.link.sent = s.link.sent ∧ Raised s t Code.linkReplay ∧
          Frame s t (raiseRegs Code.linkReplay) (.link :: raiseParts))) ∧
    ∀ age w u, s.hubOn = true → age ≤ 2 * s.cTick → s.takeFast g 0 = some (w, u) → s.relayStandby = false →
      ∃ t, exec (.fastTick g age) s = .next t ∧ t.link = u.link ∧ Frame s t [] [.link]

/-- Memory frames read, write and answer: requests to Store are served, responses reach who waits, class-T data are released at RT (R309,
R310, R311, R312, R313, R314, Table 11.9, log 22). The conclusion for each of readReq, readRsp, memWrite, writeAck, treadReq, treadRsp,
treadRelease, on conditions on the state and the operands alone, is that exec answers a next state, with its own effect. -/
def Obligations.RemoteMemory : Prop :=
  ∀ (s : State) (g : Nat), g < 64 →
    (∀ (p : Popped) (fl addr rb : Nat), s.popFrame g 0xE6 = some p → p.ok = true → s.dev.concentrator = false → fl = wbits p.hdr 38 6 + 1 →
      addr = bytesAt p.bytes 0 8 % 2 ^ 41 → rb = s.rowBytes g →
      (wbits p.hdr 22 8 = (s.grpSt g).rxSeq → wbits p.hdr 58 6 = s.dev.partId → s.txOpen g →
        (wbits p.hdr 48 4 = 0 → 0x100000000 ≤ addr → addr + 32 * fl ≤ 0x140000000 →
          ∃ t f, exec (.readReq g []) s = .next t ∧ t.link.sent = s.link.sent ++ [f] ∧ f.group = g ∧
            f.payload.drop (2 * rb) = (List.range (32 * fl)).map (fun i => s.rdB (addr + i)) ∧ Frame s t [] [.link]) ∧
        (wbits p.hdr 48 4 = 2 → 0x100000000 ≤ addr → addr + 32 * fl ≤ 0x140000000 →
          ∃ t f, exec (.memWrite g) s = .next t ∧ t.link.sent = s.link.sent ++ [f] ∧ f.group = g ∧
            (∀ i, i < 32 * fl → t.rdB (addr + i) = (p.bytes.drop (2 * rb)).getD i 0) ∧
            (∀ b, b < addr ∨ addr + 32 * fl ≤ b → t.rdB b = s.rdB b) ∧ SameRegs s t replyRegs ∧
            ∀ q, q ∉ [Part.poison, .banks, .link] → q.Same s t) ∧
        (∀ (r : Remote) (good : Bool) (n : Nat), wbits p.hdr 48 4 = 1 → good = (bytesAt p.bytes 0 8 % 4 == 0) → n = max 1 (ceilDiv r.len 32) →
          s.link.remotes.find? (fun x => x.part == wbits p.hdr 52 6 && x.tag == wbits p.hdr 30 8 && !x.write && !x.classT) = some r →
          (∀ tg, r.next = some tg →
            ∃ t, exec (.readRsp g) s = .next t ∧ Frame s t [] [.link] ∧ t.host.windowOut = s.host.windowOut ∧
              ∀ x ∈ t.link.remotes, x.part = r.part → x.tag = tg → x.write = false → x.classT = false →
                x.pre = r.pre ++ (p.bytes.drop (2 * rb)).take r.len) ∧
          (r.next = none → r.pre = [] → r.preBad = [] → r.preOk = true → r.who = .window →
            ∃ t, exec (.readRsp g) s = .next t ∧ r ∉ t.link.remotes ∧ Frame s t [] [.link] ∧
              t.host.windowOut = s.host.windowOut ++ [((p.bytes.drop (2 * rb)).take r.len,
                !good || (List.range n).any (nbit (bytesAt p.bytes rb 8)))]) ∧
          (∀ tile lc k dq ev, r.next = none → r.pre = [] → r.preBad = [] → r.preOk = true → r.who = .core tile lc k dq ev →
            ∃ t, exec (.readRsp g) s = .next t ∧ r ∉ t.link.remotes ∧ t.ant.mesh.length = s.ant.mesh.length + n ∧ Frame s t [] [.link, .ant]) ∧
          (∀ tr tag op, r.next = none → r.pre = [] → r.preBad = [] → r.preOk = true → r.who = .command tr tag op →
            ∃ t q, exec (.readRsp g) s = .next t ∧ r ∉ t.link.remotes ∧ t.outbox tr = s.outbox tr ++ [q] ∧ q.tag = tag ∧
              q.status = (if good then Status.ok else Status.addrInvalid) ∧ Frame s t [] [.link])) ∧
        (∀ r : Remote, wbits p.hdr 48 4 = 3 →
          s.link.remotes.find? (fun x => x.part == wbits p.hdr 52 6 && x.tag == wbits p.hdr 30 8 && x.write) = some r → r.next = none →
          ∃ t, exec (.writeAck g) s = .next t ∧ r ∉ t.link.remotes ∧ t.host.windowOut = s.host.windowOut ∧
            (∀ tr tag op, r.who = .command tr tag op → (t.outbox tr).length = (s.outbox tr).length + 1) ∧ Frame s t [] [.link])) ∧
      (wbits p.hdr 48 4 = 4 → wbits p.hdr 58 6 = s.dev.partId → 0x100000000 ≤ addr → addr + 32 * fl ≤ 0x140000000 →
        (∃ e ∈ s.ant.slots, e.2.port = 0x180 + linkStop addr ∧ e.2.owner = linkOwner (wbits p.hdr 52 6)) → s.banks.opened = [] →
        ∃ t q, exec (.treadReq g []) s = .next t ∧ t.ant.requests = s.ant.requests ++ [q] ∧ q.port = 0x180 + linkStop addr ∧
          q.owner = linkOwner (wbits p.hdr 52 6) ∧ q.item.link = some ⟨g, wbits p.hdr 52 6, wbits p.hdr 30 8, addr, fl⟩ ∧
          t.link.sent = s.link.sent ∧ Frame s t [] [.link, .ant]) ∧
      (wbits p.hdr 48 4 = 4 → wbits p.hdr 58 6 = s.dev.partId → 0x100000000 ≤ addr → addr + 32 * fl ≤ 0x140000000 → s.txClear g →
        (∀ e ∈ s.ant.slots, e.2.port ≠ 0x180 + linkStop addr ∨ e.2.owner ≠ linkOwner (wbits p.hdr 52 6)) →
        ∃ t f, exec (.treadReq g []) s = .next t ∧ t.link.sent = s.link.sent ++ [f] ∧ f.group = g ∧
          f.payload.drop (2 * rb) = (List.range (32 * fl)).map (fun i => s.rdB (addr + i)) ∧ Frame s t [] [.link]) ∧
      (wbits p.hdr 48 4 = 5 → wbits p.hdr 58 6 = s.dev.partId →
        ∃ t, exec (.treadRsp g) s = .next t ∧ t.link.remotes.length = s.link.remotes.length ∧
          (∀ r ∈ t.link.remotes, r.classT = true → r.part = wbits p.hdr 52 6 → r.tag = wbits p.hdr 30 8 → r.answered = true) ∧
          Frame s t [] [.link])) ∧
    ∀ (r : Remote) (tile lc k dq : Nat) (ev : W8), s.link.remotes.find? (fun x => x.group == g && x.classT) = some r →
      r.who = .core tile lc k dq ev → ∀ longer, longer = (s.grpSt g).declRt.any (fun d => decide (d < s.rdF (Reg.rtMeas g) 0 16)) →
      (r.answered = true → r.status = 0 → longer = false →
        ∃ t, exec (.treadRelease g) s = .next t ∧ r ∉ t.link.remotes ∧ t.tod.fab = max s.tod.fab r.releaseAt ∧
          t.ant.mesh.length = s.ant.mesh.length + max 1 (ceilDiv r.len 32) ∧ Frame s t [] [.tod, .link, .ant]) ∧
      (r.answered = false ∨ longer = true →
        ∃ t, exec (.treadRelease g) s = .next t ∧ r ∉ t.link.remotes ∧ Raised s t Code.remoteRt ∧
          Frame s t (raiseRegs Code.remoteRt) ([.tod, .link, .ant] ++ raiseParts))

/-- LINK_PERSONALITY, MESH_ROUTE, LINK_FIELD, LINK_AGGREGATE and the time-frame commands write what they name (R29, R297, R307, R310, R372,
R373, Table 11.3, Table 11.11, Table 11.12). The conclusion for each of linkPersonality, meshRoute, linkField, linkAggregate, timeFrame,
timeFrameRead, on conditions on the state and the operands alone, is that exec answers a next state, with its own effect. -/
def Obligations.LinkSetupCommands : Prop :=
  ∀ (s : State) (h : Hdr),
    (∀ proc id, s.ready h Op.linkPersonality = true →
      (id < 64 → ∃ t, exec (.linkPersonality h proc id) s = .next t ∧ Answered s t h Op.linkPersonality [] ∧
        t.dev = { s.dev with concentrator := !proc, partId := id } ∧ Frame s t [] [.dev]) ∧
      (64 ≤ id → ∃ t, exec (.linkPersonality h proc id) s = .next t ∧ Replied s t h Op.linkPersonality Status.valueRange [0xFFFF0000] ∧
        Frame s t [] [])) ∧
    (∀ part v grp, s.ready h Op.meshRoute = true → part < 64 → grp < 64 →
      (¬(v = true ∧ grp = 63 ∧ bit (s.rd Reg.twinCfg) 31 = true) →
        ∃ t, exec (.meshRoute h part v grp) s = .next t ∧ Answered s t h Op.meshRoute [] ∧
          bit (t.rd (Reg.meshRoute part)) 31 = v ∧ t.rdF (Reg.meshRoute part) 0 6 = grp ∧ Frame s t [Reg.meshRoute part] []) ∧
      (v = true → grp = 63 → bit (s.rd Reg.twinCfg) 31 = true →
        ∃ t, exec (.meshRoute h part v grp) s = .next t ∧ Replied s t h Op.meshRoute Status.valueRange [0xFFFF0000] ∧ Frame s t [] [])) ∧
    (∀ f cfg dest ex fill, s.ready h Op.linkField = true → f < 1024 → fieldOk cfg dest ex = true →
      (bit (s.rd (Reg.fieldEnt f)) 31 = false ∨ bit (s.rd (Reg.fieldEnt f)) 30 = false) → fld dest 0 4 = 0 →
      ((bit cfg 31 = true → s.mayTakeIn (fld cfg 23 6) = true) →
      ∃ t, exec (.linkField h f cfg dest ex fill) s = .next t ∧ Answered s t h Op.linkField [] ∧
        t.rd (Reg.fieldEnt f) = setBit cfg 30 false ∧ t.rd (Reg.fieldEnt f + 4) = dest ∧ t.rd (Reg.fieldEnt f + 8) = ex ∧
        t.rd (Reg.fieldEnt f + 0xC) = fill ∧
        Frame s t [Reg.fieldEnt f, Reg.fieldEnt f + 4, Reg.fieldEnt f + 8, Reg.fieldEnt f + 0xC] []) ∧
      (bit cfg 31 = true → s.mayTakeIn (fld cfg 23 6) = false →
        ∃ t, exec (.linkField h f cfg dest ex fill) s = .next t ∧ Replied s t h Op.linkField Status.valueRange [0xFFFF0000] ∧ Frame s t [] [])) ∧
    (∀ st entry items, s.ready h Op.linkAggregate = true → s.aggregateRej st entry items = none → st < 64 → 
      ∃ t, exec (.linkAggregate h st entry items) s = .next t ∧ Answered s t h Op.linkAggregate [] ∧ t.outEntry st = entry.toNat ∧
        (∀ i, i < 64 → t.outItemW st i = (items.getD i 0).toNat) ∧
        Frame s t ([Reg.outStream st, Reg.outStream st + 4] ++ (List.range 64).flatMap (fun i => [Reg.outItem st i, Reg.outItem st i + 4])) []) ∧
    (∀ g, s.ready h Op.timeFrame = true → g < 64 → bit (s.rd (Reg.grpCfg g)) 31 = true →
      ∃ t l f, exec (.timeFrame h g) s = .next t ∧ Answered s t h Op.timeFrame (stampWords ((s.settleTx g).pinTime g)) ∧
        t.link.sent = s.link.sent ++ l ++ [f] ∧ (s.txClear g → l = []) ∧ f.group = g ∧
        f.hdr.toNat % 256 = 0xE5 ∧ Frame s t [] [.link]) ∧
    (∀ g, s.ready h Op.timeFrameRead = true → g < 64 →
      ∃ t out, exec (.timeFrameRead h g) s = .next t ∧ Answered s t h Op.timeFrameRead (BitVec.ofNat 32 (s.grpSt g).timeCount :: out) ∧
        t.grpSt g = { s.grpSt g with timeCount := 0 } ∧ Frame s t [] [.link])

/-- FE_CONFIG, PRIM_CONFIG, CLICK_CONFIG and COMB_CONFIG set their registers, and refuse what their rules refuse (R316, R317, R318, R322,
R323, R327, Table 12.1, Table 12.7, Table 15.9a, log 24). The conclusion for each of feConfig, primConfig, clickConfig, combConfig, on
conditions on the state and the operands alone, is that exec answers a next state, with its own effect. -/
def Obligations.FrontEndConfiguration : Prop :=
  ∀ (s : State) (h : Hdr),
    (∀ (ticks cycle : Nat) (chs : List (Nat × W32 × W32)), s.ready h Op.feConfig = true →
      (ticks < 16 → cycle < s.cTick / 2 → chs.length ≤ 1024 → (∀ e ∈ chs, e.1 < 1024) →
        (∀ ch, ch < 1024 → (s.feConfigure ticks cycle chs).channelOk ch = true) →
        ∃ t, exec (.feConfig h ticks cycle chs) s = .next t ∧ t.rd Reg.feCfg = BitVec.ofNat 32 (ticks * 2 ^ 24 + cycle) ∧
          ((chs.map (·.1)).Nodup → ∀ e ∈ chs, t.rd (Reg.sch e.1) = setFld e.2.1 0 13 0 ∧ t.rd (Reg.sch e.1 + 4) = setFld e.2.2 15 17 0) ∧
          Answered s t h Op.feConfig [] ∧ Frame s t (Reg.feCfg :: chs.flatMap (fun e => [Reg.sch e.1, Reg.sch e.1 + 4])) []) ∧
      (s.cTick / 2 ≤ cycle →
        ∃ t, exec (.feConfig h ticks cycle chs) s = .next t ∧ Replied s t h Op.feConfig Status.valueRange [0xFFFF0000] ∧ Frame s t [] [])) ∧
    (∀ ents : List (Nat × W32 × W32 × W32), s.ready h Op.primConfig = true →
      (1 ≤ ents.length → ents.length ≤ 64 →
        (∀ e ∈ ents, e.1 < 2048 ∧ 1 ≤ fld e.2.2.1 16 16 ∧ fld e.2.1 16 10 / 256 = e.1 / 512 ∧ bit (s.rd (Reg.sch (fld e.2.1 16 10))) 31 = true) →
        ∃ t, exec (.primConfig h ents) s = .next t ∧ Answered s t h Op.primConfig [] ∧
          ((ents.map (·.1)).Nodup → ∀ e ∈ ents, t.rd (Reg.prim e.1) = setFld e.2.1 26 2 0 ∧ t.rd (Reg.prim e.1 + 4) = e.2.2.1 ∧
            t.rd (Reg.prim e.1 + 8) = setFld e.2.2.2 17 11 0) ∧
          (∀ e ∈ ents, bit (t.rd (Reg.prim e.1 + 0x1C)) 31 = false ∧ SMap.get 0 t.fe.based e.1 = 0) ∧
          Frame s t (ents.flatMap (fun e => [Reg.prim e.1, Reg.prim e.1 + 4, Reg.prim e.1 + 8, Reg.prim e.1 + 0x1C])) [.fe]) ∧
      ((∃ e ∈ ents, fld e.2.2.1 16 16 = 0) →
        ∃ t, exec (.primConfig h ents) s = .next t ∧ Replied s t h Op.primConfig Status.valueRange [0xFFFF0000] ∧ Frame s t [] [])) ∧
    (∀ ents : List (Nat × W32 × W32), s.ready h Op.clickConfig = true →
      (1 ≤ ents.length → ents.length ≤ 64 → (∀ e ∈ ents, e.1 < 64 ∧ 2 ≤ fld e.2.2 0 16 ∧ (bit e.2.1 31 = true → fld e.2.1 29 2 ≠ 0)) →
        ∃ t, exec (.clickConfig h ents) s = .next t ∧ Answered s t h Op.clickConfig [] ∧
          ((ents.map (·.1)).Nodup → ∀ e ∈ ents, t.rd (Reg.click e.1) = setFld e.2.1 16 12 0 ∧ t.rd (Reg.click e.1 + 4) = setFld e.2.2 16 16 0) ∧
          Frame s t (ents.flatMap (fun e => [Reg.click e.1, Reg.click e.1 + 4])) []) ∧
      ((∃ e ∈ ents, fld e.2.2 0 16 < 2) →
        ∃ t, exec (.clickConfig h ents) s = .next t ∧ Replied s t h Op.clickConfig Status.valueRange [0xFFFF0000] ∧ Frame s t [] [])) ∧
    ∀ pairs : List (Nat × W32), s.ready h Op.combConfig = true →
      (1 ≤ pairs.length → pairs.length ≤ 2045 → (∀ e ∈ pairs, (combMask e.1).isSome = true) →
        (∀ k, k < 64 → (s.combConfigure pairs).condOk k = true) → (∀ j, j < 8 → (s.combConfigure pairs).rdF (Reg.dec j) 0 16 ≠ 0) →
        ∃ t, exec (.combConfig h pairs) s = .next t ∧ Answered s t h Op.combConfig [] ∧
          ((pairs.map (·.1)).Nodup → ∀ e ∈ pairs, ∀ m, combMask e.1 = some m → t.rd (Reg.comb + e.1) = e.2 &&& BitVec.ofNat 32 m) ∧
          Frame s t (pairs.map (fun e => Reg.comb + e.1)) []) ∧
      ((∃ e ∈ pairs, combMask e.1 = none) →
        ∃ t, exec (.combConfig h pairs) s = .next t ∧ Replied s t h Op.combConfig Status.valueRange [0xFFFF0000] ∧ Frame s t [] []) ∧
      ((∃ k, k < 64 ∧ bit ((s.combConfigure pairs).rd (Reg.cond k)) 31 = true ∧ (s.combConfigure pairs).counting k = []) →
        ∃ t, exec (.combConfig h pairs) s = .next t ∧ Replied s t h Op.combConfig Status.valueRange [0xFFFF0000] ∧ Frame s t [] [])

/-- PRIM_SET, COND_SET and TRIG_ENABLE wait for the strobe they name and take effect then, not before (R161, R317, R332, Table 15.9a, log
24). The conclusion for each of primSet, condSet, trigEnable, primSetStrobe, condSetStrobe, trigEnableStrobe, on conditions on the state
and the operands alone, is that exec answers a next state, with its own effect. -/
def Obligations.SettingsWaitForTheirStrobe : Prop :=
  ∀ (s : State) (h : Hdr) (st : W32),
    (∀ ents : List (Nat × Bool × W32 × W32), s.ready h Op.primSet = true →
      (s.strobeOk st = true → 1 ≤ ents.length → ents.length ≤ 64 → (∀ e ∈ ents, e.1 < 2048 ∧ 1 ≤ fld e.2.2.1 16 16) →
        ∃ t, exec (.primSet h st ents) s = .next t ∧ Answered s t h Op.primSet [s.strobeOf st] ∧ Frame s t [] [.fe] ∧
          t.fe = { s.fe with primSets :=
            s.fe.primSets ++ ents.map (fun e => ⟨s.strobeOf st, e.1, e.2.1, e.2.2.1, setFld e.2.2.2 17 11 0⟩) }) ∧
      (st ≠ 0 → tickDiff st s.tickId < 2 →
        ∃ t, exec (.primSet h st ents) s = .next t ∧ Replied s t h Op.primSet Status.valueRange [0xFFFF0000] ∧ Frame s t [] [])) ∧
    (∀ ents : List (Nat × Nat × Nat × Nat), s.ready h Op.condSet = true → s.strobeOk st = true → 1 ≤ ents.length → ents.length ≤ 64 →
      (∀ e ∈ ents, e.1 < 64 ∧ e.2.1 < 4096 ∧ e.2.2.1 < 16 ∧ e.2.2.2 < 65536 ∧
        (fld (s.rd (Reg.cond e.1)) 28 3 = 3 → e.2.2.1 + 1 ≤ (s.counting e.1).length)) →
      ∃ t, exec (.condSet h st ents) s = .next t ∧ Answered s t h Op.condSet [s.strobeOf st] ∧ Frame s t [] [.fe] ∧
        t.fe = { s.fe with condSets := s.fe.condSets ++ ents.map (fun e => ⟨s.strobeOf st, e.1, e.2.1, e.2.2.1, e.2.2.2⟩) }) ∧
    (∀ (en : Bool) (num : Option W32), s.ready h Op.trigEnable = true →
      (s.strobeOk st = true → num ≠ some 0 → (s.dev.state = .halted → en = false) →
        ∃ t, exec (.trigEnable h st en num) s = .next t ∧ Answered s t h Op.trigEnable [s.strobeOf st] ∧ Frame s t [] [.fe] ∧
          t.fe = { s.fe with trigSets := s.fe.trigSets ++ [(s.strobeOf st, en, num)] }) ∧
      (s.dev.state = .halted → en = true →
        ∃ t, exec (.trigEnable h st en num) s = .next t ∧ Replied s t h Op.trigEnable Status.stateIllegal [0xFFFF0000] ∧ Frame s t [] [])) ∧
    (∀ (x : PrimSet) (n : W32), s.fe.primSets = [x] →
      n = s.tickId - BitVec.ofNat 32 (s.rdF Reg.feCfg 24 4 + (if s.rdF Reg.feCfg 0 15 = 0 then 0 else 1)) →
      (tickReached n x.strobe = true →
        ∃ t, exec .primSetStrobe s = .next t ∧ t.rd (Reg.prim x.unit) = setBit (s.rd (Reg.prim x.unit)) 28 x.freeze ∧
          t.rd (Reg.prim x.unit + 4) = x.level ∧ t.rd (Reg.prim x.unit + 8) = x.adapt ∧ t.fe = { s.fe with primSets := [] } ∧
          Frame s t [Reg.prim x.unit, Reg.prim x.unit + 4, Reg.prim x.unit + 8] [.fe]) ∧
      (tickReached n x.strobe = false → ∃ t, exec .primSetStrobe s = .next t ∧ Frame s t [] [])) ∧
    (∀ x : CondSet, s.fe.condSets = [x] → x.wM1 < 4096 → x.nM1 < 16 → x.holdoff < 65536 →
      (tickReached s.tickId x.strobe = true →
        ∃ t, exec .condSetStrobe s = .next t ∧ t.rdF (Reg.cond x.cond) 0 12 = x.wM1 ∧ t.rdF (Reg.cond x.cond) 23 4 = x.nM1 ∧
          (∀ b, 27 ≤ b → b < 32 → bit (t.rd (Reg.cond x.cond)) b = bit (s.rd (Reg.cond x.cond)) b) ∧
          t.rd (Reg.cond x.cond + 4) = BitVec.ofNat 32 x.holdoff ∧ t.fe = { s.fe with condSets := [] } ∧
          Frame s t [Reg.cond x.cond, Reg.cond x.cond + 4] [.fe]) ∧
      (tickReached s.tickId x.strobe = false → ∃ t, exec .condSetStrobe s = .next t ∧ Frame s t [] [])) ∧
    ∀ (d : W32) (en : Bool) (num : Option W32), s.fe.trigSets = [(d, en, num)] → s.fe.forming = [] →
      (tickReached s.tickId d = true →
        ∃ t, exec .trigEnableStrobe s = .next t ∧ t.rd Reg.trigCtrl = (if en then 0x80000000 else 0) ∧
          t.rd Reg.trigNum = num.getD (s.rd Reg.trigNum) ∧ t.fe = { s.fe with trigSets := [] } ∧
          Frame s t [Reg.trigCtrl, Reg.trigNum] [.fe]) ∧
      (tickReached s.tickId d = false → ∃ t, exec .trigEnableStrobe s = .next t ∧ Frame s t [] [])

/-- A Click unit takes a selected edge outside its dead time, drops one within it, and is calibrated by CLICK_CAL (R322, R323, R324, R370,
Table 12.4, log 24). The conclusion for each of clickCal, clickEdge, clickCalDone, on conditions on the state and the operands alone, is
that exec answers a next state, with its own effect. -/
def Obligations.ClickUnitsCaptureEdges : Prop :=
  (∀ (s : State) (u : Nat) (rising : Bool) (cyc fine c : Nat) (x : Stamp), s.hubOn = true → u < 64 → cyc < s.cTick / 2 → fine < 512 →
    bit (s.rd (Reg.click u)) 31 = true → nbit s.fe.calBusy u = false → bit (s.rd (Reg.click u)) (if rising then 29 else 30) = true →
    s.relayStandby = false → s.relayPrimary = false → s.tod.fab ≤ s.tod.tickFab + 2 * cyc → c = (s.tod.tickFab + 2 * cyc) / 2 →
    x = stampOf ((s.atCycle (2 * cyc)).todIn (5 * (if bit (s.rd (Reg.click u + 0x18)) 31 then fine else 0))) →
    ((SMap.get 0 s.fe.clickLast u = 0 ∨ SMap.get 0 s.fe.clickLast u - 1 + s.rdF (Reg.click u + 4) 0 16 < c) →
      (bit (s.rd (Reg.click u)) 28 = false →
        ∃ t, exec (.clickEdge u rising cyc fine) s = .next t ∧
          t.fe = { s.fe with clickLast := SMap.set 0 s.fe.clickLast u (c + 1),
                             pulses := s.fe.pulses ++ [⟨c + 10 + s.rdF (Reg.click u) 8 8, ⟨0x800 + u, s.tickId, x, false, false, false, true⟩⟩] } ∧
          t.rd (Reg.click u + 8) = s.rd (Reg.click u + 8) + 1 ∧ t.rd (Reg.click u + 0x10) = s.tickId ∧
          Frame s t [Reg.click u + 8, Reg.click u + 0x10, Reg.click u + 0x14] [.tod, .fe]) ∧
      (bit (s.rd (Reg.click u)) 28 = true → bit (s.rd Reg.tsCfg) 31 = true → s.stagedOf (68 + u / 16) < 128 →
        (s.gapOf (68 + u / 16)).dropped = 0 →
        ∃ t, exec (.clickEdge u rising cyc fine) s = .next t ∧
          (t.strSt (s.rdF Reg.tsCfg 26 4)).items = (s.strSt (s.rdF Reg.tsCfg 26 4)).items ++
            [.edge (68 + u / 16) s.tickId (edgeRec u (!rising) s.holdover x)] ∧
          Frame s t [Reg.click u + 8, Reg.click u + 0x10, Reg.click u + 0x14] [.tod, .fe, .acq])) ∧
    (0 < SMap.get 0 s.fe.clickLast u → c ≤ SMap.get 0 s.fe.clickLast u - 1 + s.rdF (Reg.click u + 4) 0 16 →
      ∃ t, exec (.clickEdge u rising cyc fine) s = .next t ∧ t.rd (Reg.click u + 0xC) = satInc (s.rd (Reg.click u + 0xC)) ∧
        Raised s t Code.clickDrop ∧ Frame s t ((Reg.click u + 0xC) :: raiseRegs Code.clickDrop) (.tod :: raiseParts))) ∧
  (∀ (s : State) (h : Hdr) (mask : Nat), s.ready h Op.clickCal = true → mask < 2 ^ 64 →
    (Nat.land mask s.fe.calBusy = 0 → s.shedStage = 0 →
      ∃ t, exec (.clickCal h mask) s = .next t ∧ Taken s t h Op.clickCal mask 0 ∧
        (∀ u, u < 64 → nbit mask u = true → t.rd (Reg.click u + 0x18) = 0) ∧
        t.fe = { s.fe with calBusy := Nat.lor s.fe.calBusy mask } ∧
        Frame s t ((bitsOf mask 64).map (fun u => Reg.click u + 0x18)) [.fe]) ∧
    (Nat.land mask s.fe.calBusy ≠ 0 →
      ∃ t, exec (.clickCal h mask) s = .next t ∧ Replied s t h Op.clickCal Status.resourceBusy [0xFFFF0000] ∧ Frame s t [] [])) ∧
  ∀ (s : State) (res : List CalResult) (a : Async), (∀ r ∈ res, r.unit < 64) → s.openOf Op.clickCal = [a] → a.mask = calMask res →
    ((∀ r ∈ res, calOk r = true) →
      ∃ t, exec (.clickCalDone res) s = .next t ∧ Completed s t a Status.ok [0, 0] ∧
        t.host.async = s.host.async.filter (fun x => x.opcode != Op.clickCal) ∧
        (∀ r ∈ res, bit (t.rd (Reg.click r.unit + 0x18)) 31 = true ∧ nbit t.fe.calBusy r.unit = false) ∧
        Frame s t (res.map (fun r => Reg.click r.unit + 0x18)) [.fe]) ∧
    (∀ r, res = [r] → calOk r = false →
      ∃ t, exec (.clickCalDone res) s = .next t ∧ Completed s t a Status.ok (wordsLE 2 (2 ^ r.unit)) ∧
        bit (t.rd (Reg.click r.unit + 0x18)) 31 = false ∧ Raised s t Code.clickCalFail ∧
        Frame s t ((Reg.click r.unit + 0x18) :: raiseRegs Code.clickCalFail) (.fe :: raiseParts))

/-- A sample enters its channel once: a Disarmed primitive arms below its level, an Armed one fires at it, a fill skips it (R317, R318,
R319, R320, R321, R322, Table 12.2). The conclusion for each of sampleEntry, on conditions on the state and the operands alone, is that
exec answers a next state, with its own effect. -/
def Obligations.PrimitivesFireOnCrossings : Prop :=
  ∀ (s : State) (ch j w c : Nat) (n : W32), s.hubOn = true → ch < 1024 → j < 32768 → bit (s.rd (Reg.sch ch)) 31 = true → j < s.perEvent ch →
    w = s.rdF Reg.feCfg 0 15 + j * 2 ^ s.decim ch → c = s.tod.tickFab / 2 + w % max 1 (s.cTick / 2) →
    n = s.tickId - BitVec.ofNat 32 (s.rdF Reg.feCfg 24 4 + w / max 1 (s.cTick / 2)) →
    SMap.get 0 s.fe.entered ch ≤ c → s.reach (2 * c) = true → s.tod.fab ≤ 2 * c → s.fe.primSets = [] →
    (∀ g, g < 64 → s.covers g ch = false) → (∀ u, u < 1024 → s.chgEn u = true → s.rdF (Reg.chg u) 0 10 ≠ ch) →
    (∀ bs, s.payloadBytes (s.rdF (Reg.sch ch) 21 6) (s.rdF (Reg.sch ch) 13 8) n (s.rdF (Reg.sch ch + 4) 0 15 + 2 * j) 2 = .ok bs →
      (s.primsOf ch = [] →
        ∃ t, exec (.sampleEntry ch j) s = .next t ∧ t.fe = { s.fe with entered := SMap.set 0 s.fe.entered ch (c + 1) } ∧
          Frame s t [] [.tod, .fe]) ∧
      (∀ (p : Nat) (x y l : Int), s.primsOf ch = [p] → bit (s.rd (Reg.prim p)) 29 = false →
        x = s.sampleVal ch (BitVec.ofNat 16 (ofBytesLE bs)) → y = (if bit (s.rd (Reg.prim p)) 30 then -x else x) →
        l = (if bit (s.rd (Reg.prim p)) 30 then -s.primLevel p ch else s.primLevel p ch) →
        (bit (s.rd (Reg.prim p + 0x1C)) 31 = false → y ≤ l - s.rdF (Reg.prim p + 4) 16 16 →
          ∃ t, exec (.sampleEntry ch j) s = .next t ∧ bit (t.rd (Reg.prim p + 0x1C)) 31 = true ∧ t.fe.pulses = s.fe.pulses ∧
            Frame s t [Reg.prim p + 0x1C] [.tod, .fe]) ∧
        (bit (s.rd (Reg.prim p + 0x1C)) 31 = true → y < l →
          ∃ t, exec (.sampleEntry ch j) s = .next t ∧ bit (t.rd (Reg.prim p + 0x1C)) 31 = true ∧ t.fe.pulses = s.fe.pulses ∧
            Frame s t [Reg.prim p + 0x1C] [.tod, .fe]) ∧
        (bit (s.rd (Reg.prim p + 0x1C)) 31 = true → l ≤ y →
          ∃ t q, exec (.sampleEntry ch j) s = .next t ∧ bit (t.rd (Reg.prim p + 0x1C)) 31 = false ∧
            t.rd (Reg.prim p + 0x14) = s.rd (Reg.prim p + 0x14) + 1 ∧
            t.fe.pulses = s.fe.pulses ++ [(c + 12 + s.rdF (Reg.prim p) 8 8, q)] ∧ q.input = p ∧ q.event = n ∧ q.fallback = false ∧
            Frame s t [Reg.prim p + 0x14, Reg.prim p + 0x1C] [.tod, .fe]))) ∧
    (s.payloadBytes (s.rdF (Reg.sch ch) 21 6) (s.rdF (Reg.sch ch) 13 8) n (s.rdF (Reg.sch ch + 4) 0 15 + 2 * j) 2 = .error false →
      ∀ p, s.primsOf ch = [p] → SMap.get 0 s.fe.filledEv ch ≠ n.toNat + 1 →
      ∃ t, exec (.sampleEntry ch j) s = .next t ∧ t.rd (Reg.sch ch + 8) = satInc (s.rd (Reg.sch ch + 8)) ∧
        t.rd (Reg.prim p + 0x18) = satInc (s.rd (Reg.prim p + 0x18)) ∧ bit (t.rd (Reg.prim p + 0x1C)) 31 = false ∧
        t.fe.pulses = s.fe.pulses ∧ Raised s t Code.feSkip ∧
        Frame s t ([Reg.sch ch + 8, Reg.prim p + 0x18, Reg.prim p + 0x1C] ++ raiseRegs Code.feSkip) ([.tod, .link, .fe] ++ raiseParts))

/-- The combiner evaluates its condition by type, forms and numbers a trigger record, and drives the DECISION pins (R325, R326, R327, R328,
R329, R330, R331, R337, Table 12.6, Table 12.8). The conclusion for each of combinerPulse, triggerRecord, decisionDrive,
decisionRelease, on conditions on the state and the operands alone, is that exec answers a next state, with its own effect. -/
def Obligations.CombinerMeetsConditions : Prop :=
  (∀ (s : State) (c k : Nat) (p : Pulse) (u : State) (now : List Nat), s.hubOn = true → s.fe.pulses = [(c, p)] → s.reach (2 * c) = true → s.tod.fab ≤ 2 * c →
    s.fe.condSets = [] → s.fe.trigSets = [] → k < 64 → (∀ j, j < 64 → j ≠ k → bit (s.rd (Reg.cond j)) 31 = false) →
    bit (s.rd Reg.busCfg) 31 = false → now = (if p.on then [p.input] else []) →
    u = { s with fe.pulses := [], fe.last := if p.on then SMap.set LastPulse.none' s.fe.last p.input ⟨c + 1, p.gap, p.fallback⟩ else s.fe.last } →
    (p.poison = true → u.evalCond k c now = .no → bit (s.rd (Reg.cond k)) 31 = true → (∃ m ∈ s.members k, m.1 = p.input) →
      ∃ t, exec .combinerPulse s = .next t ∧ t.fe = u.fe ∧ Raised s t Code.poisonConsumed ∧
        Frame s t (raiseRegs Code.poisonConsumed) ([.tod, .fe] ++ raiseParts)) ∧
    (p.poison = false → u.evalCond k c now = .held →
      ∃ t, exec .combinerPulse s = .next t ∧ t.fe = u.fe ∧ t.rd (Reg.cond k + 0x2C) = satInc (s.rd (Reg.cond k + 0x2C)) ∧
        Frame s t [Reg.cond k + 0x2C] [.tod, .fe]) ∧
    (p.poison = false → u.evalCond k c now = .no → ∃ t, exec .combinerPulse s = .next t ∧ t.fe = u.fe ∧ Frame s t [] [.tod, .fe]) ∧
    (∀ gap fb, p.poison = false → u.evalCond k c now = .met p.input gap fb →
      ∃ t, exec .combinerPulse s = .next t ∧ t.rd (Reg.cond k + 0x28) = s.rd (Reg.cond k + 0x28) + 1 ∧
        t.rd (Reg.cond k + 0x30) = s.tickId ∧ t.fe.pulses = [] ∧ SMap.get 0 t.fe.condMet k = c + 1 ∧
        (∀ j, j < 8 → bit (s.rd (Reg.dec j)) 31 = true →
          nbit ((s.rd (Reg.dec j + 4)).toNat + (s.rd (Reg.dec j + 8)).toNat * 2 ^ 32) k = true → (j, c + 14) ∈ t.fe.drives) ∧
        (if bit (s.rd (Reg.cond k)) 27 = true ∧ bit (s.rd Reg.trigCtrl) 31 = true then
          t.fe.forming = s.fe.forming ++ [⟨c, none, s.tickId, 2 ^ k, p.stamp, k, p.input,
            if 0xA00 ≤ p.input then 0 else (s.tickId - p.event).toNat % 256, gap, fb, s.holdover⟩]
         else t.fe.forming = s.fe.forming) ∧
        Frame s t [Reg.cond k + 0x28, Reg.cond k + 0x30] [.tod, .fe])) ∧
  (∀ (s : State) (k c : Nat) (now : List Nat), bit (s.rd (Reg.cond k)) 31 = true → (∃ i ∈ s.counting k, i ∈ now) →
    ((∃ m ∈ s.members k, m.2 = true ∧ s.pulsedWithin m.1 c (s.inputStretch m.1) = true) → s.evalCond k c now = .no) ∧
    ((∀ m ∈ s.members k, m.2 = true → s.pulsedWithin m.1 c (s.inputStretch m.1) = false) → SMap.get 0 s.fe.condMet k = 0 →
      ((∃ src gap fb, s.evalCond k c now = .met src gap fb) ↔
        (if s.rdF (Reg.cond k) 28 3 = 0 then ∀ i ∈ s.counting k, s.pulsedWithin i c (s.inputStretch i) = true
         else if s.rdF (Reg.cond k) 28 3 = 1 then True
         else if s.rdF (Reg.cond k) 28 3 = 2 then ∀ i ∈ s.counting k, s.pulsedWithin i c (s.rdF (Reg.cond k) 0 12) = true
         else s.rdF (Reg.cond k) 28 3 = 3 ∧
           s.rdF (Reg.cond k) 23 4 + 1 ≤ ((s.counting k).filter (fun i => s.pulsedWithin i c (s.rdF (Reg.cond k) 0 12))).length)))) ∧
  (∀ (s : State) (r : TrigRec) (rest : List TrigRec) (n : W32), s.hubOn = true → s.fe.forming = r :: rest →
    s.reach (2 * (r.cyc + 7)) = true → r.num = none → n = s.rd Reg.trigNum → (∀ g, g < 64 → (s.acqGrp g).disarming = none) →
    (∀ g, g < 64 → bit (s.rd (Reg.fastCtl g)) 31 = false) →
    ∃ t, exec .triggerRecord s = .next t ∧ t.rd Reg.trigNum = (if n = 0xFFFFFFFF then 1 else n + 1) ∧
      t.rd Reg.trigCount = s.rd Reg.trigCount + 1 ∧ t.fe.forming = rest ∧
      t.fe.records = s.fe.records ++ [(s.tickId, { r with num := some n })] ∧
      (∀ g, g < 64 → (t.acqGrp g).trigs = (if s.acqEn g = true ∧ s.acqState g ≠ Acq.off ∧ (s.acqGrp g).armedCyc ≤ r.cyc ∧ Nat.land (s.acqMask g) r.mask ≠ 0 then
        (s.acqGrp g).trigs ++ [{ r with num := some n }] else (s.acqGrp g).trigs)) ∧
      Frame s t [Reg.trigNum, Reg.trigCount] [.tod, .fe, .acq]) ∧
  ∀ (s : State) (j d : Nat), s.hubOn = true → j < 8 → s.reach (2 * d) = true →
    (s.fe.drives.find? (fun e => e.1 == j) = some (j, d) →
      ∃ t, exec (.decisionDrive j) s = .next t ∧ SMap.get 0 t.fe.decUntil j = d + s.rdF (Reg.dec j) 0 16 ∧
        t.fe.drives = s.fe.drives.erase (j, d) ∧
        t.rd (Reg.dec j + 0xC) = (if d < SMap.get 0 s.fe.decUntil j then satInc (s.rd (Reg.dec j + 0xC)) else s.rd (Reg.dec j + 0xC)) ∧
        Frame s t [Reg.dec j + 0xC] [.tod, .fe]) ∧
    (0 < d → d = SMap.get 0 s.fe.decUntil j → (∀ e ∈ s.fe.drives, e.1 = j → d < e.2) →
      ∃ t, exec (.decisionRelease j) s = .next t ∧ t.fe = { s.fe with decUntil := SMap.set 0 s.fe.decUntil j 0 } ∧
        Frame s t [] [.tod, .fe])

/-- ACQ_CONFIG, CHG_CONFIG, ACQ_STREAM and ACQ_STATS set and read their registers; ACQ_ARM and ACQ_DISARM act at their strobe (R334, R335,
R338, R341, R344, R347, R348, R352, Table 13.7, Table 13.8, Table 13.9, log 23). The conclusion for each of acqConfig, acqArm,
acqDisarm, chgConfig, acqStream, acqStats, strRd, acqArmStrobe, acqDisarmStrobe, on conditions on the state and the operands alone, is
that exec answers a next state, with its own effect. -/
def Obligations.AcquisitionIsConfiguredAndArmed : Prop :=
  (∀ (s : State) (h : Hdr) (c : AcqCfg), s.ready h Op.acqConfig = true →
    (s.acqCfgOk c = true → s.acqTogether [c] = true →
      ∃ t, exec (.acqConfig h [c]) s = .next t ∧ Answered s t h Op.acqConfig [] ∧
        t.acqEn c.g = c.en ∧ t.acqStream c.g = c.stream ∧ t.acqNbuf c.g = c.nbuf ∧ t.acqNch c.g = c.nch ∧ t.acqFirst c.g = c.firstCh ∧
        (c.en = true → t.acqPre c.g = c.pre ∧ t.acqPost c.g = c.post ∧ t.acqHoldoff c.g = c.holdoff ∧ t.acqLook c.g = c.look) ∧
        t.acqMask c.g = c.mask ∧ t.rd (Reg.acq c.g + 0x18) = BitVec.ofNat 32 c.base ∧
        t.acqState c.g = Acq.off ∧ (t.acqGrp c.g).freeBufs = List.range c.nbuf ∧
        Frame s t ((List.range 8).map (fun i => Reg.acq c.g + 4 * i)) [.acq]) ∧
    (c.en = true → 65536 < c.pre ∨ c.post = 0 ∨ c.holdoff < 16 →
      ∃ t, exec (.acqConfig h [c]) s = .next t ∧ Replied s t h Op.acqConfig Status.valueRange [0xFFFF0000] ∧ Frame s t [] [])) ∧
  (∀ (s : State) (h : Hdr) (ents : List (Nat × W32 × W32)), s.ready h Op.chgConfig = true → 1 ≤ ents.length → ents.length ≤ 256 →
    (∀ e ∈ ents, e.1 < 1024 ∧ fld e.2.1 22 5 ≤ 20 ∧
      (bit e.2.1 31 = true → fld e.2.1 0 10 / 256 = e.1 / 256 ∧ bit (s.rd (Reg.sch (fld e.2.1 0 10))) 31 = true)) →
    ∃ t, exec (.chgConfig h ents) s = .next t ∧ Answered s t h Op.chgConfig [] ∧ (∀ e ∈ ents, t.chgSt e.1 = ChgSt.init) ∧
      ((ents.map (·.1)).Nodup → ∀ e ∈ ents, t.rd (Reg.chg e.1) = setFld e.2.1 10 12 0 ∧ t.rd (Reg.chg e.1 + 4) = setFld e.2.2 16 2 0) ∧
      Frame s t (ents.flatMap (fun e => [Reg.chg e.1, Reg.chg e.1 + 4])) [.acq]) ∧
  (∀ (s : State) (h : Hdr) (st : Nat) (c : StrCfg), s.ready h Op.acqStream = true → st < 16 → c.dest < 3 → c.group < 64 → c.strStream < 256 →
    c.size4k < 2 ^ 32 → c.base % 4096 = 0 → c.shadow % 8 = 0 → (c.en = true → c.dest ≠ 2 → 1 ≤ c.size4k) →
    (c.en = true → c.dest = 0 → strClear c s.allSegs = true) →
    (c.en = true → c.dest = 2 → bit (s.rd (Reg.grpCfg c.group)) 31 = true) → c.base < 2 ^ 64 → c.shadow < 2 ^ 64 →
    ∃ t, exec (.acqStream h st c) s = .next t ∧ Answered s t h Op.acqStream [] ∧ bit (t.rd (Reg.str st)) 31 = c.en ∧ t.strDest st = c.dest ∧
      t.strBase st = c.base ∧ t.strSize st = c.size4k * 4096 ∧ t.rdF (Reg.str st) 23 6 = c.group ∧ t.rdF (Reg.str st) 15 8 = c.strStream ∧
      t.rd (Reg.str st + 0x10) = BitVec.ofNat 32 c.shadow ∧ t.rd (Reg.str st + 0x18) = 0 ∧
      Frame s t ((List.range 7).map (fun i => Reg.str st + 4 * i)) []) ∧
  (∀ (s : State) (h : Hdr) (kind ix : Nat) (clear : Bool), s.ready h Op.acqStats = true → kind < 3 → ix < [64, 16, 1024].getD kind 0 →
    ∃ t, exec (.acqStats h kind ix clear) s = .next t ∧ Answered s t h Op.acqStats ((statAddrs kind ix).map s.rd) ∧
      (∀ a ∈ statAddrs kind ix, t.rd a = if clear then 0 else s.rd a) ∧ Frame s t (statAddrs kind ix) []) ∧
  (∀ (s : State) (h : Hdr) (mask : Nat) (d : W32), mask ≠ 0 → mask < 2 ^ 64 → s.strobeOk d = true →
    (∀ g, g < 64 → nbit mask g = true → s.acqEn g = true) →
    (s.ready h Op.acqArm = true →
      ((∀ g, g < 64 → nbit mask g = true → s.strobeOf d ∉ (s.acqGrp g).disarms) →
        ∃ t, exec (.acqArm h mask d) s = .next t ∧ Answered s t h Op.acqArm [s.strobeOf d] ∧ Frame s t [] [.acq] ∧
          ∀ g, g < 64 → t.acqGrp g = if nbit mask g then { s.acqGrp g with arms := (s.acqGrp g).arms ++ [s.strobeOf d] } else s.acqGrp g) ∧
      (∀ g, g < 64 → nbit mask g = true → s.strobeOf d ∈ (s.acqGrp g).disarms →
        ∃ t, exec (.acqArm h mask d) s = .next t ∧ Replied s t h Op.acqArm Status.valueRange [0xFFFF0000] ∧ Frame s t [] [])) ∧
    (s.ready h Op.acqDisarm = true → (∀ g, g < 64 → nbit mask g = true → s.strobeOf d ∉ (s.acqGrp g).arms) →
      ∃ t, exec (.acqDisarm h mask d) s = .next t ∧ Answered s t h Op.acqDisarm [s.strobeOf d] ∧ Frame s t [] [.acq] ∧
        ∀ g, g < 64 → t.acqGrp g = if nbit mask g then { s.acqGrp g with disarms := (s.acqGrp g).disarms ++ [s.strobeOf d] } else s.acqGrp g)) ∧
  (∀ (s : State) (g : Nat) (d : W32), g < 64 → tickReached s.tickId d = true →
    (∀ j, j < 64 → j ≠ g → (s.acqGrp j).arms = [] ∧ (s.acqGrp j).disarms = []) →
    (∀ b rest, (s.acqGrp g).arms = [d] → s.acqState g = Acq.off → (s.acqGrp g).freeBufs = b :: rest →
      ∃ t, exec .acqArmStrobe s = .next t ∧ t.acqState g = Acq.rearm ∧ (t.acqGrp g).buf = b ∧ (t.acqGrp g).freeBufs = rest ∧
        (t.acqGrp g).startEvent = d ∧ (t.acqGrp g).first = 0 ∧ (t.acqGrp g).arms = [] ∧ (t.acqGrp g).armedCyc = s.tod.tickFab / 2 ∧
        (t.acqGrp g).rearm = max (s.tod.tickFab / 2 + s.feDelay + s.acqLook g) (s.tod.tickFab / 2 + s.acqHoldoff g) ∧
        Frame s t [Reg.acq g + 0x1C] [.acq]) ∧
    ((s.acqGrp g).disarms = [d] → (s.acqGrp g).disarming = none → s.acqState g ≠ Acq.off → (s.acqGrp g).seg = none → s.trigPending g d = false →
      ∃ t, exec .acqDisarmStrobe s = .next t ∧ t.acqState g = Acq.off ∧ (t.acqGrp g).disarms = [] ∧
        Frame s t [Reg.acq g + 0x1C] [.acq])) ∧
  ∀ (s : State) (st : Nat) (v : W32), s.hubOn = true → st < 16 →
    ∃ t, exec (.strRd st v) s = .next t ∧ t.rd (Reg.str st + 0x1C) = setFld v 0 5 0 ∧ Frame s t [Reg.str st + 0x1C] []

/-- A trigger opens a segment in an Armed group and is Dead in others; a full segment closes; buffers rotate; lines are written (R336, R337,
R338, R339, R340, R343, Table 13.1, Table 13.4, log 23). The conclusion for each of acqTrigger, acqCapture, segmentClose, acqRearm,
acqBufferFree, on conditions on the state and the operands alone, is that exec answers a next state, with its own effect. -/
def Obligations.TriggersOpenAndCloseSegments : Prop :=
  ∀ (s : State) (g : Nat), g < 64 →
    (s.closeDue g = false →
      (∀ (r : TrigRec) (rest : List TrigRec), (s.acqGrp g).trigs = r :: rest → s.reach (2 * (r.cyc + 10)) = true →
        (s.acqGrp g).disarming = none →
        (∀ t0, s.acqState g = Acq.armed → (s.acqGrp g).rearm ≤ r.cyc → s.shedStage < 5 →
          t0 = (s.acqGrp g).latest - 1 - ceilDiv ((s.acqGrp g).latestCyc - (r.cyc - s.acqLook g)) (s.acqStep g) →
          ∃ t sg, exec (.acqTrigger g) s = .next t ∧ t.acqState g = Acq.post ∧ (t.acqGrp g).trigs = rest ∧ (t.acqGrp g).seg = some sg ∧
            sg.t0 = t0 ∧ sg.buf = (s.acqGrp g).buf ∧ sg.trig = r ∧ sg.preEff = min (t0 - (s.acqGrp g).first) (s.acqPre g) ∧
            sg.shortPre = decide (t0 - (s.acqGrp g).first < s.acqPre g) ∧
            t.rd (Reg.acq g + 0x28) = (if t0 - (s.acqGrp g).first < s.acqPre g then satInc (s.rd (Reg.acq g + 0x28)) else s.rd (Reg.acq g + 0x28)) ∧
            Frame s t [Reg.acq g + 0x1C, Reg.acq g + 0x28] [.tod, .acq]) ∧
        (s.acqState g = Acq.post → (s.acqGrp g).waitFrom = none → s.shedStage < 5 → s.stagedOf g < 64 → (s.gapOf g).dropped = 0 →
          ∃ t, exec (.acqTrigger g) s = .next t ∧ t.acqGrp g = { s.acqGrp g with trigs := rest } ∧
            t.rd (Reg.acq g + 0x24) = satInc (s.rd (Reg.acq g + 0x24)) ∧ Raised s t Code.acqDead ∧
            (t.strSt (s.acqStream g)).items = (s.strSt (s.acqStream g)).items ++ [.flit g r.tick (deadRec g 0 r)] ∧
            Frame s t ((Reg.acq g + 0x24) :: raiseRegs Code.acqDead) ([.tod, .acq] ++ raiseParts))) ∧
      (s.acqState g = Acq.rearm → s.reach (2 * (s.acqGrp g).rearm) = true →
        ∃ t, exec (.acqRearm g) s = .next t ∧ t.acqState g = Acq.armed ∧ t.acq = s.acq ∧ Frame s t [Reg.acq g + 0x1C] [.tod]) ∧
      (∀ b, b < 256 → b ∈ (s.acqGrp g).written →
        (s.acqState g ≠ Acq.waiting →
          ∃ t, exec (.acqBufferFree g b) s = .next t ∧ (t.acqGrp g).freeBufs = (s.acqGrp g).freeBufs ++ [b] ∧
            b ∉ (t.acqGrp g).written ∧ t.acqState g = s.acqState g ∧ Frame s t [Reg.acq g + 0x1C] [.acq]) ∧
        (s.acqState g = Acq.waiting →
          ∃ t, exec (.acqBufferFree g b) s = .next t ∧ (t.acqGrp g).buf = b ∧ (t.acqGrp g).freeBufs = [] ∧ t.acqState g = Acq.rearm ∧
            ((s.acqGrp g).latestCyc < s.sampleNow ∨ (s.acqGrp g).held = [] →
              (t.acqGrp g).first = (s.acqGrp g).latest - 1 + ceilDiv (s.sampleNow - (s.acqGrp g).latestCyc) (s.acqStep g) ∧
              Frame s t [Reg.acq g + 0x1C] [.acq]))) ∧
      (∀ i n b v rest ecc, s.acq.staging = ⟨g, [(i, n, b, v)]⟩ :: rest → s.shedStage < 5 →
        ∃ t, exec (.acqCapture g ecc) s = .next t ∧ t.acq.staging = rest ∧
          t.mem = (s.seal (s.memWrite (s.sampleAddr g b i n) (bytesLE 2 v.toNat) false)).mem ∧
          (∀ a, a ∉ [s.sampleAddr g b i n, s.sampleAddr g b i n + 1] → t.rdB a = s.rdB a))) ∧
    (∀ i n b v rest, (s.acqGrp g).lines = (i, n, b, v) :: rest → (∀ l ∈ rest, ¬(l.1 = i ∧ l.2.2.1 = b ∧ l.2.1 / 16 = n / 16)) →
      (s.shedStage < 5 → s.stagedLines (s.acqFirst g / 256) < 256 →
        ((s.stageLine g i b (n / 16)).acqGrp g).lines = rest ∧
        (s.stageLine g i b (n / 16)).acq.staging = s.acq.staging ++ [⟨g, [(i, n, b, v)]⟩] ∧ Frame s (s.stageLine g i b (n / 16)) [] [.acq]) ∧
      (256 ≤ s.stagedLines (s.acqFirst g / 256) →
        ((s.stageLine g i b (n / 16)).acqGrp g).lines = rest ∧ (s.stageLine g i b (n / 16)).acq.staging = s.acq.staging ∧
        SMap.get 0 ((s.stageLine g i b (n / 16)).acqGrp g).lost b = SMap.get 0 (s.acqGrp g).lost b + 1 ∧
        (s.stageLine g i b (n / 16)).rd (Reg.acq g + 0x2C) = satInc (s.rd (Reg.acq g + 0x2C)) ∧
        Raised s (s.stageLine g i b (n / 16)) Code.acqHole ∧
        Frame s (s.stageLine g i b (n / 16)) ((Reg.acq g + 0x2C) :: raiseRegs Code.acqHole) (.acq :: raiseParts))) ∧
    ∀ sg : Segment, s.acqState g = Acq.post → (s.acqGrp g).seg = some sg → sg.t0 + s.acqPost g < (s.acqGrp g).latest →
      (s.acqGrp g).disarming = none → s.shedStage < 5 → s.stagedLines (s.acqFirst g / 256) + (s.acqGrp g).lines.length ≤ 256 →
      (∀ b rest, (s.acqGrp g).freeBufs = b :: rest →
        ∃ t x, exec (.segmentClose g) s = .next t ∧ t.acqState g = Acq.rearm ∧ (t.acqGrp g).seg = none ∧ (t.acqGrp g).buf = b ∧
          (t.acqGrp g).first = sg.t0 + s.acqPost g ∧ (t.acqGrp g).freeBufs = rest ∧
          (t.strSt (s.acqStream g)).items = (s.strSt (s.acqStream g)).items ++ [.segment { sg with filled := x }] ∧
          t.rd (Reg.acq g + 0x20) = s.rd (Reg.acq g + 0x20) + 1 ∧ SameRegs s t (replyRegs ++ [Reg.acq g + 0x1C, Reg.acq g + 0x20]) ∧
          (∀ a, (∀ i n o, o < 2 → a ≠ s.sampleAddr g b i n + o) → t.rdB a = s.rdB a) ∧ ∀ p, p ∉ [Part.acq, .poison] → p.Same s t) ∧
      ((s.acqGrp g).freeBufs = [] →
        ∃ t, exec (.segmentClose g) s = .next t ∧ t.acqState g = Acq.waiting ∧ (t.acqGrp g).seg = none ∧
          t.rd (Reg.acq g + 0x20) = s.rd (Reg.acq g + 0x20) + 1 ∧ Frame s t [Reg.acq g + 0x1C, Reg.acq g + 0x20] [.acq])

/-- A change unit records, skips or drops the sample it takes; a stream writes a whole item where it fits and holds it otherwise (R343,
R344, R345, R346, R347, R348, R349, Table 13.5, log 23). The conclusion for each of changeSample, streamItemWrite, on conditions on the
state and the operands alone, is that exec answers a next state, with its own effect. -/
def Obligations.ChangesAndItemsReachTheirStream : Prop :=
  (∀ (s : State) (u : Nat) (x : Sample) (rest : List Sample) (v : Int), u < 1024 → (s.chgSt u).due = x :: rest → x.filled = false →
    (∀ e ∈ s.acq.units, e.1 / 256 = u / 256 ∨ s.rdF (Reg.chg e.1) 27 4 = s.rdF (Reg.chg u) 27 4 → ∀ y ys, e.2.due = y :: ys → x.cyc < y.cyc ∨ (x.cyc = y.cyc ∧ u ≤ e.1)) →
    v = s.sampleVal (s.rdF (Reg.chg u) 0 10) x.v →
    ((s.chgSt u).started = true → (v - (s.chgSt u).value).natAbs ≤ s.rdF (Reg.chg u + 4) 0 16 →
      ∃ t, exec (.changeSample u) s = .next t ∧ t.chgSt u = { s.chgSt u with due := rest } ∧ t.acq.streams = s.acq.streams ∧
        Frame s t [] [.acq]) ∧
    ((s.chgSt u).started = false → s.stagedOf (64 + u / 256) + 2 ≤ 512 → (s.gapOf (64 + u / 256)).dropped = 0 →
      ∃ t, exec (.changeSample u) s = .next t ∧ (t.chgSt u).started = true ∧ (t.chgSt u).value = v ∧ (t.chgSt u).due = rest ∧
        (t.strSt (s.rdF (Reg.chg u) 27 4)).items = (s.strSt (s.rdF (Reg.chg u) 27 4)).items ++
          [.change (u / 256) (s.tickOf x.cyc) (chgRec (s.rdF (Reg.chg u + 4) 18 14) x.v.toNat (s.cycIn x.cyc) 8),
           .change (u / 256) (s.tickOf x.cyc) (chgRec (s.rdF (Reg.chg u + 4) 18 14) ((s.tickOf x.cyc).toNat / 65536)
             ((s.tickOf x.cyc).toNat % 65536 * 2 ^ 14) 9)] ∧
        t.rd (Reg.chg u + 8) = s.rd (Reg.chg u + 8) + 2 ∧ Frame s t [Reg.chg u + 8] [.acq]) ∧
    ((s.chgSt u).started = true → (s.chgSt u).needAnchor = false → (s.chgSt u).wasFilled = false → x.cyc - (s.chgSt u).lastCyc < 2 ^ 30 →
      s.rdF (Reg.chg u + 4) 0 16 < (v - (s.chgSt u).value).natAbs →
      (s.stagedOf (64 + u / 256) < 512 → (s.gapOf (64 + u / 256)).dropped = 0 →
        ∃ t, exec (.changeSample u) s = .next t ∧ (t.chgSt u).value = v ∧ (t.chgSt u).lastCyc = x.cyc ∧
          (t.strSt (s.rdF (Reg.chg u) 27 4)).items = (s.strSt (s.rdF (Reg.chg u) 27 4)).items ++
            [.change (u / 256) (s.tickOf x.cyc) (chgRec (s.rdF (Reg.chg u + 4) 18 14) x.v.toNat (x.cyc - (s.chgSt u).lastCyc) 0)] ∧
          t.rd (Reg.chg u + 8) = s.rd (Reg.chg u + 8) + 1 ∧ Frame s t [Reg.chg u + 8] [.acq]) ∧
      (512 ≤ s.stagedOf (64 + u / 256) → (s.gapOf (64 + u / 256)).dropped = 0 →
        ∃ t, exec (.changeSample u) s = .next t ∧ (t.gapOf (64 + u / 256)).dropped = 1 ∧ (t.chgSt u).needAnchor = true ∧
          t.acq.streams = s.acq.streams ∧ Raised s t Code.acqGap ∧
          Frame s t ((Reg.chg u + 0xC) :: raiseRegs Code.acqGap) (.acq :: raiseParts)))) ∧
  ∀ (s : State) (st src wr size : Nat) (tick : W32) (d : BitVec 256) (rest : List Item), st < 16 →
    (s.strSt st).items = .flit src tick d :: rest → bit (s.rd (Reg.str st)) 31 = true → wr = (s.rd (Reg.str st + 0x18)).toNat →
    size = s.strSize st → wr % 32 = 0 → wr < size →
    (s.strDest st = 0 → s.shedStage < 5 → s.strFits st 32 = true → s.asleep (s.strBase st) = false →
      ∃ t, exec (.streamItemWrite st []) s = .next t ∧ (t.strSt st).items = rest ∧ (t.strSt st).heldSince = none ∧
        t.rd (Reg.str st + 0x18) = BitVec.ofNat 32 ((wr + 32) % size) ∧ t.rd (Reg.str st + 0x20) = s.rd (Reg.str st + 0x20) + 1 ∧
        t.mem = (s.seal (s.memWrite (s.strBase st + wr) (bytesLE 32 d.toNat) false)).mem ∧
        (∀ a, a < s.strBase st + wr ∨ s.strBase st + wr + 32 ≤ a → t.rdB a = s.rdB a)) ∧
    (s.strDest st = 0 → s.strFits st 32 = false →
      ∃ t, exec (.streamItemWrite st []) s = .next t ∧ (t.strSt st).items = (s.strSt st).items ∧
        (t.strSt st).heldSince = some ((s.strSt st).heldSince.getD s.tod.fab) ∧ Frame s t [] [.acq]) ∧
    (s.strDest st = 1 → s.shedStage = 0 → s.host.inReset = false → s.strFits st 32 = true →
      ∃ t, exec (.streamItemWrite st []) s = .next t ∧ (t.strSt st).items = rest ∧ nbit (t.rd Reg.irqStatus).toNat irqStream = true ∧
        t.acq.posted = s.acq.posted ++ [(s.strBase st + wr, bytesLE 32 d.toNat, false),
          ((s.rd (Reg.str st + 0x10)).toNat + (s.rd (Reg.str st + 0x14)).toNat * 2 ^ 32, bytesLE 4 ((wr + 32) % size), false)] ∧
        t.rd (Reg.str st + 0x18) = BitVec.ofNat 32 ((wr + 32) % size) ∧
        Frame s t [Reg.str st + 0x18, Reg.str st + 0x20, Reg.str st + 0x24] [.acq])

/-- After reset and with OUT_EN clear a part sends zeros and adds nothing; with IN_EN clear its input lines are ignored (R355). The
conclusion for each of busCal, busSlotLaunch, busSlotReceive, busCalDone, on conditions on the state and the operands alone, is that
exec answers a next state, with its own effect. -/
def Obligations.BusSilentWhileDisabled : Prop :=
  (bit (State.reset.rd Reg.busCfg) 31 = false ∧ bit (State.reset.rd Reg.busCfg) 30 = false) ∧
  (∀ (s : State) (l : Nat), s.hubOn = true → bit (s.rd Reg.busCfg) 31 = false → s.nextLaunch = some l → s.reach (2 * l) = true →
    ∃ t x, exec .busSlotLaunch s = .next t ∧ t.bus.launched.getLast? = some (l, 0, x) ∧ Frame s t [Reg.busStat] [.tod, .bus]) ∧
  (∀ (s : State) (c : Nat) (met : List Nat), bit (s.rd Reg.busCfg) 31 = false → s.busMet c met = s) ∧
  (∀ (s : State) (h : Hdr) (busy : Nat), bit (s.rd Reg.busCfg) 30 = false → exec (.busCal h busy) s = exec (.busCal h 0) s) ∧
  (∀ (s : State) (loops : List (Nat × Nat)), bit (s.rd Reg.busCfg) 30 = false → (∀ e ∈ loops, e.1 < 8 ∧ e.2 < 8192) →
    exec (.busCalDone loops) s = exec (.busCalDone []) s) ∧
  ∀ (s : State) (lines : List Nat) (cyc : Nat), s.hubOn = true → bit (s.rd Reg.busCfg) 30 = false → s.relayStandby = false →
    cyc < s.cTick / 2 → lines.length = 8 → (∀ w ∈ lines, w < 65536) →
    ∃ t, exec (.busSlotReceive lines cyc) s = .next t ∧ Frame s t [] [.tod]

/-- The trigger bus is configured, calibrated, compensated and aligned; slots are launched on the grid, checked, and pulse TB inputs (R354,
R356, R357, R359, R360, R361, R362, R363, R364, Table 14.1, Table 14.2, log 24). The conclusion for each of busConfig, busCal, busComp,
busAlign, busTxMap, busSlotLaunch, busSlotReceive, busCalDone, busAlignDone, on conditions on the state and the operands alone, is that
exec answers a next state, with its own effect. -/
def Obligations.TriggerBusRunsItsSlots : Prop :=
  (∀ (s : State) (h : Hdr) (master : Bool) (o i : Nat), s.ready h Op.busConfig = true → o < 2 → i < 2 →
    ∃ t, exec (.busConfig h master o i) s = .next t ∧ Answered s t h Op.busConfig [] ∧ bit (t.rd Reg.busCfg) 29 = master ∧
      bit (t.rd Reg.busCfg) 30 = decide (i = 1) ∧ bit (t.rd Reg.busCfg) 31 = (decide (o = 1) && !s.relayStandby) ∧ t.lSys = s.lSys ∧
      Frame s t [Reg.busCfg] []) ∧
  (∀ (s : State) (h : Hdr) (busy : Nat), s.ready h Op.busCal = true → s.bus.calibrating = false →
    (busy % 256 = 0 ∨ bit (s.rd Reg.busCfg) 30 = false →
      ∃ t, exec (.busCal h busy) s = .next t ∧ Taken s t h Op.busCal 0 0 ∧ t.bus = { s.bus with calibrating := true, gridAt := some (s.bus.gridAt.getD s.sampleNow) } ∧ t.busState = 1 ∧
        Frame s t [Reg.busStat] [.bus]) ∧
    (busy % 256 ≠ 0 → bit (s.rd Reg.busCfg) 30 = true →
      ∃ t, exec (.busCal h busy) s = .next t ∧ Frame s t [] [] ∧
        Replied s t h Op.busCal Status.busNotQuiet [BitVec.ofNat 32 (0xFFFF0000 + busy % 256)])) ∧
  (∀ (s : State) (l : Nat → Nat) (a : Async), s.bus.calibrating = true → s.openOf Op.busCal = [a] → bit (s.rd Reg.busCfg) 30 = true →
    (∀ k, k < 8 → 144 ≤ l k ∧ l k ≤ 7680) →
    (∃ t, exec (.busCalDone ((List.range 8).map (fun k => (k, l k)))) s = .next t ∧ Completed s t a Status.ok [] ∧ t.busState = 0 ∧
      t.bus.calibrating = false ∧ (∀ k, k < 8 → t.rd (Reg.busLoop k) = BitVec.ofNat 32 (l k)) ∧
      Frame s t (Reg.busStat :: (List.range 8).map Reg.busLoop) [.bus]) ∧
    ∀ j, j < 8 →
      ∃ t, exec (.busCalDone (((List.range 8).filter (fun k => k != j)).map (fun k => (k, l k)))) s = .next t ∧ Completed s t a Status.ok [] ∧
        t.rd (Reg.busLoop j) = 0 ∧ Raised s t Code.busCalFail ∧
        Frame s t (Reg.busStat :: (List.range 8).map Reg.busLoop ++ raiseRegs Code.busCalFail) (.bus :: raiseParts)) ∧
  (∀ (s : State) (h : Hdr) (lSys : Nat) (asym : List Int), s.ready h Op.busComp = true → lSys < 512 → asym.length = 8 →
    (∀ a ∈ asym, -128 ≤ a ∧ a ≤ 127) →
    ((∀ k, k < 8 → s.rd (Reg.busLoop k) ≠ 0 ∧ ((asym.getD k 0).natAbs : Int) ≤ 16 * lSys - ((s.rd (Reg.busLoop k)).toNat : Int)) →
      ∃ t, exec (.busComp h lSys asym) s = .next t ∧ Answered s t h Op.busComp [] ∧ t.lSys = lSys ∧
        (∀ k, k < 8 → ∃ tx : Nat, (tx : Int) = (16 * lSys - ((s.rd (Reg.busLoop k)).toNat : Int) - asym.getD k 0) / 2 ∧
          t.rdF (Reg.busTxc k) 0 13 = tx ∧ t.rdF (Reg.busTxc k) 16 8 = ofSigned 8 (asym.getD k 0) ∧
          (t.rd (Reg.busRxc k)).toNat = 16 * lSys - (s.rd (Reg.busLoop k)).toNat - tx) ∧
        Frame s t (Reg.busCfg :: (List.range 8).map Reg.busTxc ++ (List.range 8).map Reg.busRxc) []) ∧
    (∀ k, k < 8 → s.rd (Reg.busLoop k) = 0 →
      ∃ t, exec (.busComp h lSys asym) s = .next t ∧ Replied s t h Op.busComp Status.valueRange [0xFFFF0000] ∧ Frame s t [] [])) ∧
  (∀ (s : State) (h : Hdr), s.ready h Op.busAlign = true →
    ∃ t, exec (.busAlign h) s = .next t ∧ Taken s t h Op.busAlign 0 0 ∧ Frame s t [] [.bus] ∧
      (bit (s.rd Reg.busCfg) 29 = true → t.bus = { s.bus with masterWaits := true }) ∧
      (bit (s.rd Reg.busCfg) 29 = false → t.bus.alignFrom = some s.tod.fab ∧ t.bus.good = 0)) ∧
  (∀ (s : State) (f : Nat) (a : Async), s.bus.alignFrom = some f → s.openOf Op.busAlign = [a] →
    (s.bus.good < 16 → s.tod.fab < f + 1600000 → ∃ t, exec .busAlignDone s = .next t ∧ Frame s t [] []) ∧
    (s.bus.good < 16 → f + 1600000 ≤ s.tod.fab →
      ∃ t, exec .busAlignDone s = .next t ∧ Completed s t a Status.busNoMaster [0xFFFF0000] ∧ t.bus = { s.bus with alignFrom := none } ∧
        Frame s t [] [.bus]) ∧
    ∀ (x : Nat) (d : BusSlot), 16 ≤ s.bus.good → s.bus.last = some (x, d) → d.cTick = s.cTick →
      (bit (s.rd Reg.tickCfg) 31 = true → s.busMatches x d = true →
        ∃ t, exec .busAlignDone s = .next t ∧ Completed s t a Status.ok [] ∧ t.busState = 2 ∧ t.bus.gridAt = some (x - s.lSys) ∧
          Frame s t [Reg.busStat] [.bus]) ∧
      (bit (s.rd Reg.tickCfg) 31 = true → s.busMatches x d = false →
        ∃ t, exec .busAlignDone s = .next t ∧ Frame s t [] [.bus] ∧
          Completed s t a Status.busTickDiffers [BitVec.ofNat 32 (0xFFFF0000 + ofSigned 16 (s.busOffset x d))]) ∧
      (bit (s.rd Reg.tickCfg) 31 = false →
        ∃ t, exec .busAlignDone s = .next t ∧ Completed s t a Status.ok [] ∧ t.busState = 2 ∧ t.bus.gridAt = some (x - s.lSys) ∧
          t.tickId = d.tick + BitVec.ofNat 32 ((s.sampleNow + d.phase + s.lSys - x) / max 1 (s.cTick / 2)) ∧
          Frame s t [Reg.busStat, Reg.tickId] [.tod, .tick, .fe, .bus])) ∧
  (∀ (s : State) (h : Hdr) (ents : List (Nat × W64)), s.ready h Op.busTxMap = true → 1 ≤ ents.length → ents.length ≤ 16 →
    (∀ e ∈ ents, e.1 < 16) →
    ∃ t, exec (.busTxMap h ents) s = .next t ∧ Answered s t h Op.busTxMap [] ∧
      ((ents.map (·.1)).Nodup → ∀ e ∈ ents, t.rd (Reg.txMap e.1 0) = e.2.extractLsb' 0 32 ∧ t.rd (Reg.txMap e.1 1) = e.2.extractLsb' 32 32) ∧
      Frame s t (ents.flatMap (fun e => [Reg.txMap e.1 0, Reg.txMap e.1 1])) []) ∧
  (∀ (s : State) (l : Nat), s.hubOn = true → bit (s.rd Reg.busCfg) 31 = true → s.shedStage < 6 → s.nextLaunch = some l →
    s.reach (2 * l) = true → s.bus.calibrating = false →
    ∃ t, ∃ (d : BusSlot) (x : Nat), exec .busSlotLaunch s = .next t ∧ t.bus.launched.getLast? = some (l, slotBits d, x) ∧
      (∀ b, b < 16 → (bit (d.word.setWidth 32) b = true ↔ (b, l) ∈ s.bus.due)) ∧
      (bit (s.rd Reg.busCfg) 29 = true → d.sync = 0xC5A3 ∧ d.tick = s.tickId ∧ d.phase = l - s.tod.tickFab / 2 ∧ d.cTick = s.cTick) ∧
      (bit (s.rd Reg.busCfg) 29 = false → d.sync = 0 ∧ d.tick = 0 ∧ d.phase = 0 ∧ d.cTick = 0) ∧ Frame s t [Reg.busStat] [.tod, .bus]) ∧
  (∀ (s : State) (l : Nat), s.hubOn = true → bit (s.rd Reg.busCfg) 31 = true → s.shedStage < 6 → s.nextLaunch = some l →
    s.reach (2 * l) = true → s.bus.calibrating = true →
    ∃ t x, exec .busSlotLaunch s = .next t ∧ t.bus.launched.getLast? = some (l, (if l / 8 % 8 = 0 then 0x3C960000 else 0), x) ∧
      Frame s t [Reg.busStat] [.tod, .bus]) ∧
  (∀ (b : BitVec 128), slotOfLines ((List.range 8).map (lineBits b)) = b ∧
    ∀ k c, k < 8 → c < 8 → nbit (lineBits b k) (2 * c) = b.getLsbD (16 * c + 2 * k) ∧ nbit (lineBits b k) (2 * c + 1) = b.getLsbD (16 * c + 2 * k + 1)) ∧
  ∀ (s : State) (lines : List Nat) (d : BusSlot) (cyc x : Nat), s.hubOn = true → bit (s.rd Reg.busCfg) 30 = true → s.relayStandby = false →
    lines.length = 8 → (∀ w ∈ lines, w < 65536) → slotFields (slotOfLines lines) = d →
    s.relayPrimary = false → s.bus.alignFrom = none → cyc < s.cTick / 2 → x = (s.atCycle (2 * cyc)).sampleNow → s.busState = 2 →
    ((s.atCycle (2 * cyc)).slotGood x d = true →
      ∃ t st, exec (.busSlotReceive lines cyc) s = .next t ∧ t.bus = { s.bus with bad := 0, good := s.bus.good + 1 } ∧
        t.fe.pulses = s.fe.pulses ++ (bitsOf d.word.toNat 16).map (fun b => (x + 2 + s.inputDly (0xA00 + b), ⟨0xA00 + b, s.tickId, st, false, false, false, true⟩)) ∧
        Frame s t [] [.tod, .fe, .bus]) ∧
    ((s.atCycle (2 * cyc)).slotGood x d = false →
      (s.bus.bad < 15 →
        ∃ t, exec (.busSlotReceive lines cyc) s = .next t ∧ t.bus = { s.bus with good := 0, bad := s.bus.bad + 1 } ∧ t.busState = 2 ∧
          t.rd Reg.busSlotErrs = satInc (s.rd Reg.busSlotErrs) ∧ Raised s t Code.busSyncLoss ∧
          Frame s t (Reg.busSlotErrs :: raiseRegs Code.busSyncLoss) ([.tod, .bus] ++ raiseParts)) ∧
      (s.bus.bad = 15 →
        ∃ t, exec (.busSlotReceive lines cyc) s = .next t ∧ t.busState = 3 ∧ Raised s t Code.busLost ∧
          Frame s t ([Reg.busSlotErrs, Reg.busStat] ++ raiseRegs Code.busSyncLoss ++ raiseRegs Code.busLost) ([.tod, .bus] ++ raiseParts)))

/-- TIME_SET, TIME_STEP and TIME_INC set the counter and its rate; HOLDOVER follows its causes; TOD_LATCH and TS_TICK latch (R366, R367,
R368, R369, R374, R395, R495, Table 14.6, log 8). The conclusion for each of timeSet, timeStep, timeInc, timeHoldover, todLatch, tsTick,
holdoverTimeout, timePllUnlock, timePllRelock, on conditions on the state and the operands alone, is that exec answers a next state,
with its own effect. -/
def Obligations.TimeOfDayFollowsItsCommands : Prop :=
  (∀ (s : State) (h : Hdr) (sec ns : Nat), s.ready h Op.timeSet = true →
    (sec < 2 ^ 48 → ns < 1000000000 →
      ∃ t, exec (.timeSet h sec ns) s = .next t ∧ t.tod.sec = sec ∧ t.tod.ns = ns ∧ t.tod.frac = 0 ∧
        t.rd Reg.timeSteps = s.rd Reg.timeSteps + 1 ∧ Raised s t Code.timeStepped ∧
        Answered s t h Op.timeSet [BitVec.ofNat 32 sec, BitVec.ofNat 32 (sec / 2 ^ 32), BitVec.ofNat 32 ns, 0] ∧
        Frame s t (Reg.timeSteps :: raiseRegs Code.timeStepped) (.tod :: raiseParts)) ∧
    (1000000000 ≤ ns →
      ∃ t, exec (.timeSet h sec ns) s = .next t ∧ Replied s t h Op.timeSet Status.valueRange [0xFFFF0000] ∧ Frame s t [] [])) ∧
  (∀ (s : State) (h : Hdr) (off : W64), s.ready h Op.timeStep = true →
    (0 ≤ (s.now : Int) + off.toInt * 256 → (s.now : Int) + off.toInt * 256 < (todOf (2 ^ 48) 0 0 : Nat) →
      ∃ t, exec (.timeStep h off) s = .next t ∧ (t.now : Int) = (s.now : Int) + off.toInt * 256 ∧
        t.rd Reg.timeSteps = s.rd Reg.timeSteps + 1 ∧ Raised s t Code.timeStepped ∧ Answered s t h Op.timeStep t.timeWords ∧
        Frame s t (Reg.timeSteps :: raiseRegs Code.timeStepped) (.tod :: raiseParts)) ∧
    ((s.now : Int) + off.toInt * 256 < 0 →
      ∃ t, exec (.timeStep h off) s = .next t ∧ Replied s t h Op.timeStep Status.valueRange [0xFFFF0000] ∧ Frame s t [] [])) ∧
  (∀ (s : State) (h : Hdr) (frac whole : Nat), s.ready h Op.timeInc = true → frac < 2 ^ 32 → 1 ≤ whole → whole * 2 ^ 32 + frac ≤ 4 * 2 ^ 32 →
    (bit (s.rd Reg.timeStat) 30 = true → bit (s.rd Reg.timeStat) 31 = true) →
    ∃ t, exec (.timeInc h frac whole) s = .next t ∧ t.inc = whole * 2 ^ 32 + frac ∧
      t.tod = { s.tod with autoHold := false, incOld := some s.incNow } ∧ (∀ u, 256 * s.tod.sixteenths + u ≤ 4096 → t.todIn u = s.todIn u) ∧
      bit (t.rd Reg.timeStat) 31 = bit (s.rd Reg.timeStat) 30 ∧ Answered s t h Op.timeInc s.timeWords ∧
      Frame s t [Reg.timeIncLo, Reg.timeIncHi, Reg.timeStat] [.tod]) ∧
  (∀ (s : State) (h : Hdr), s.ready h Op.timeHoldover = true →
    (bit (s.rd Reg.timeStat) 31 = false →
      ∃ t, exec (.timeHoldover h true) s = .next t ∧ bit (t.rd Reg.timeStat) 31 = true ∧ bit (t.rd Reg.timeStat) 30 = true ∧
        Raised s t Code.timeHoldover ∧ Answered s t h Op.timeHoldover (s.timeWords ++ [3]) ∧
        Frame s t (Reg.timeStat :: raiseRegs Code.timeHoldover) raiseParts) ∧
    (s.tod.autoHold = false →
      ∃ t, exec (.timeHoldover h false) s = .next t ∧ bit (t.rd Reg.timeStat) 31 = false ∧ bit (t.rd Reg.timeStat) 30 = false ∧
        Answered s t h Op.timeHoldover (s.timeWords ++ [0]) ∧ Frame s t [Reg.timeStat] [])) ∧
  ∀ s : State,
    (s.hubOn = true → bit (s.rd Reg.timeStat) 31 = false →
      ∃ t, exec .holdoverTimeout s = .next t ∧ t.tod = { s.tod with autoHold := true } ∧ bit (t.rd Reg.timeStat) 31 = true ∧
        Raised s t Code.timeHoldover ∧ Frame s t (Reg.timeStat :: raiseRegs Code.timeHoldover) (.tod :: raiseParts)) ∧
    (∃ t, exec .timePllUnlock s = .next t ∧ bit (t.rd Reg.timeStat) 29 = false ∧ Frame s t [Reg.timeStat] []) ∧
    (bit (s.rd Reg.timeStat) 29 = false →
      ∃ t, exec .timePllRelock s = .next t ∧ bit (t.rd Reg.timeStat) 29 = true ∧ Raised s t Code.timePllRelock ∧
        Frame s t (Reg.timeStat :: raiseRegs Code.timePllRelock) raiseParts) ∧
    (s.hubOn = true →
      ∃ t, exec .todLatch s = .next t ∧ t.rd 0x3002D0000 = BitVec.ofNat 32 (s.tod.sec / 2 ^ 32) ∧
        t.rd 0x3002D0004 = BitVec.ofNat 32 s.tod.sec ∧ t.rd 0x3002D0008 = BitVec.ofNat 32 s.tod.ns ∧
        t.rd 0x3002D000C = BitVec.ofNat 32 (s.tod.frac / 256 * 256) ∧
        Frame s t [Reg.todLatch, Reg.todSecLo, Reg.todNs, Reg.todFrac] []) ∧
    (s.hubOn = true →
      ∃ t, exec .tsTick s = .next t ∧ t.rd Reg.tsTick = s.tickId ∧ t.rd Reg.tsSecLo = BitVec.ofNat 32 (stampOf (s.todIn 0)).sec ∧
        t.rd Reg.tsNs = BitVec.ofNat 32 (stampOf (s.todIn 0)).ns ∧ t.rd Reg.tsFrac = BitVec.ofNat 32 ((stampOf (s.todIn 0)).frac * 256) ∧
        Frame s t [Reg.tsTick, Reg.tsSecLo, Reg.tsNs, Reg.tsFrac] [])

/-- PPS_CONFIG and TS_CONFIG set their registers, the 1PPS pins follow, and time-port lanes stamp event messages (R370, R371, R372, Table
14.3, Table 14.5, Table 14.6, log 24). The conclusion for each of ppsConfig, tsConfig, ptpConfig, ppsOutRise, ppsOutFall, ppsInEdge,
ptpRx, ptpTx, on conditions on the state and the operands alone, is that exec answers a next state, with its own effect. -/
def Obligations.PulsesAndTimePortFrames : Prop :=
  (∀ (s : State) (h : Hdr) (cfg ofs : W32), s.ready h Op.ppsConfig = true → 1 ≤ fld cfg 20 10 → fld cfg 20 10 ≤ 999 →
    -500000000 ≤ ofs.toInt → ofs.toInt ≤ 499999999 →
    ∃ t, exec (.ppsConfig h cfg ofs) s = .next t ∧ Answered s t h Op.ppsConfig [] ∧
      t.rd Reg.ppsOutCfg = setFld (setBit cfg 30 false) 0 20 0 ∧ t.rd Reg.ppsOutOfs = ofs ∧
      t.tod = { s.tod with ppsOut := if bit cfg 31 then s.tod.ppsOut else false } ∧ Frame s t [Reg.ppsOutCfg, Reg.ppsOutOfs] [.tod]) ∧
  (∀ (s : State) (h : Hdr) (cfg : W32), s.ready h Op.tsConfig = true →
    ∃ t, exec (.tsConfig h cfg) s = .next t ∧ Answered s t h Op.tsConfig [] ∧ t.rd Reg.tsCfg = setFld cfg 0 26 0 ∧ Frame s t [Reg.tsCfg] []) ∧
  (∀ s : State, s.hubOn = true →
    (bit (s.rd Reg.ppsOutCfg) 31 = true →
      ∃ t, exec .ppsOutRise s = .next t ∧ t.tod = { s.tod with ppsOut := true } ∧ Frame s t [] [.tod]) ∧
    (∃ t, exec .ppsOutFall s = .next t ∧ t.tod = { s.tod with ppsOut := false } ∧ Frame s t [] [.tod]) ∧
    (bit (s.rd Reg.tsCfg) 30 = false →
      ∃ t, exec .ppsInEdge s = .next t ∧ t.rd Reg.ppsInSecLo = BitVec.ofNat 32 (stampOf (s.todIn 0)).sec ∧
        t.rd Reg.ppsInSecHi = BitVec.ofNat 32 ((stampOf (s.todIn 0)).sec / 2 ^ 32) ∧
        t.rd Reg.ppsInNs = BitVec.ofNat 32 (stampOf (s.todIn 0)).ns ∧
        t.rd Reg.ppsInFrac = BitVec.ofNat 32 ((stampOf (s.todIn 0)).frac * 256) ∧ t.rd Reg.ppsInCount = s.rd Reg.ppsInCount + 1 ∧
        Frame s t [Reg.ppsInSecHi, Reg.ppsInSecLo, Reg.ppsInNs, Reg.ppsInFrac, Reg.ppsInCount] []) ∧
    (bit (s.rd Reg.tsCfg) 30 = true → bit (s.rd Reg.tsCfg) 31 = true → s.stagedOf 72 < 4 → (s.gapOf 72).dropped = 0 →
      ∃ t, exec .ppsInEdge s = .next t ∧ t.rd Reg.ppsInCount = s.rd Reg.ppsInCount + 1 ∧
        (t.strSt (s.rdF Reg.tsCfg 26 4)).items = (s.strSt (s.rdF Reg.tsCfg 26 4)).items ++
          [.edge 72 s.tickId (edgeRec 64 false s.holdover (stampOf (s.todIn 0)))] ∧
        Frame s t [Reg.ppsInSecHi, Reg.ppsInSecLo, Reg.ppsInNs, Reg.ppsInFrac, Reg.ppsInCount] [.acq])) ∧
  (∀ (s : State) (h : Hdr) (n : Nat) (en one : Bool), s.ready h Op.ptpConfig = true → laneOk n = true →
    (s.laneMode n = 3 →
      ∃ t, exec (.ptpConfig h n en one) s = .next t ∧ Answered s t h Op.ptpConfig [] ∧ Frame s t [] [.tod] ∧
        t.tod.ptp.find? (fun e => e.1 == n) = (if en then some (n, one) else none) ∧
        ∀ m, m ≠ n → t.tod.ptp.find? (fun e => e.1 == m) = s.tod.ptp.find? (fun e => e.1 == m)) ∧
    (s.laneMode n ≠ 3 →
      ∃ t, exec (.ptpConfig h n en one) s = .next t ∧ Replied s t h Op.ptpConfig Status.valueRange [0xFFFF0000] ∧ Frame s t [] [])) ∧
  ∀ (s : State) (n cyc tag : Nat) (f : List W8) (one : Bool) (x : Stamp), s.hubOn = true → laneOk n = true → cyc < s.cTick → s.laneMode n = 3 →
    s.tod.ptp.find? (fun e => e.1 == n) = some (n, one) → x = stampOf ((s.atCycle cyc).todIn 0) →
    (s.rxState n = Rx.locked →
      ∃ t, exec (.ptpRx n cyc f) s = .next t ∧ Frame s t [] [.tod] ∧
        t.tod.ptpIn = s.tod.ptpIn ++ [(n, f, if (ptpEvent f).isSome then some x else none)]) ∧
    (s.txState n = 2 →
      (ptpEvent f = none →
        ∃ t, exec (.ptpTx n cyc tag f) s = .next t ∧ t.tod.ptpOut = s.tod.ptpOut ++ [(n, f)] ∧ t.tod.ptpStamps = s.tod.ptpStamps ∧
          Frame s t [] [.tod]) ∧
      (∀ p u, ptpEvent f = some (p, u) →
        (one = false →
          ∃ t, exec (.ptpTx n cyc tag f) s = .next t ∧ t.tod.ptpOut = s.tod.ptpOut ++ [(n, f)] ∧
            t.tod.ptpStamps = s.tod.ptpStamps ++ [(n, tag, x)] ∧ Frame s t [] [.tod]) ∧
        (one = true → be f p 1 % 16 = 0 → u ≠ 1 →
          ∃ t, exec (.ptpTx n cyc tag f) s = .next t ∧ t.tod.ptpOut = s.tod.ptpOut ++ [(n, oneStepSync f p u x)] ∧
            t.tod.ptpStamps = s.tod.ptpStamps ∧ Frame s t [] [.tod])))

/-- An arbiter queues requests, revokes for a higher priority, grants after two cycles, parks, protects, and follows REQ_PRIO (R206, R207,
R208, R209, R210, R211, Table 7.9, Table 7.10, log 24). The conclusion for each of reqPrio, arbRequest, arbGrant, arbTransferEnd, on
conditions on the state and the operands alone, is that exec answers a next state, with its own effect. -/
def Obligations.ArbitersGrantByPriority : Prop :=
  ∀ (s : State) (i id len cyc : Nat) (acc : Option ArbAccess), s.hubOn = true → arbOk i = true → requesterOk id = true →
    arbServes i id = true → arbLenOk i len = true → (∀ q, acc = some q → accessOk i len q = true) → (s.arb i).lastCyc ≤ cyc →
    s.arbAwake i = true →
    ((∀ r ∈ (s.arb i).waiting, r.id ≠ id) → (∀ r, (s.arb i).holder = some r → r.id ≠ id) →
      ((s.arb i).holder = none ∨ (s.arb i).guarded = true ∨ s.prio id ≤ s.holdPrio i →
        ∃ t, exec (.arbRequest i id len cyc acc) s = .next t ∧
          t.arb i = { s.arb i with waiting := (s.arb i).waiting ++ [⟨id, len, cyc, acc⟩], lastCyc := cyc } ∧ Frame s t [] [.banks]) ∧
      (∀ r, (s.arb i).holder = some r → (s.arb i).guarded = false → s.holdPrio i < s.prio id →
        ∃ t, exec (.arbRequest i id len cyc acc) s = .next t ∧ (t.arb i).holder = none ∧
          (t.arb i).waiting = (s.arb i).waiting ++ [⟨id, len, cyc, acc⟩, r] ∧ (t.arb i).earliest = cyc + 2 ∧
          SMap.get 0 (t.arb i).losses r.id = SMap.get 0 (s.arb i).losses r.id + 1 ∧
          t.rd (Reg.arb i + 8) = satInc (s.rd (Reg.arb i + 8)) ∧ bit (t.rd (Reg.arb i)) 31 = false ∧
          Frame s t [Reg.arb i, Reg.arb i + 8] [.banks])) ∧
    (∀ r : ArbReq, (s.arb i).holder = none → (s.arb i).earliest ≤ cyc → (s.arb i).waiting.Nodup → r ∈ (s.arb i).waiting → r.id < 512 →
      s.arbRipe i cyc r = true → (∀ x ∈ (s.arb i).waiting, x ≠ r → s.arbRipe i cyc x = false ∨ s.prio x.id < s.prio r.id) →
      (s.arbRoom i r.dir cyc = 0 → ∃ t, exec (.arbGrant i cyc) s = .next t ∧ Frame s t [] []) ∧
      (s.arbRoom i r.dir cyc ≠ 0 →
      ∃ t, exec (.arbGrant i cyc) s = .next t ∧ (t.arb i).holder = some r ∧ (t.arb i).waiting = (s.arb i).waiting.erase r ∧
        ((∀ e ∈ s.ant.slots, e.2.port ≠ i) → r.len ≤ (if i < 0x200 then 64 else 1) →
          (t.arb i).earliest = cyc + max 1 (if 0x100 ≤ i ∧ i < 0x140 then ceilDiv r.len 2 else r.len)) ∧
        (t.arb i).guarded = decide (s.rdF (Reg.arb i + 0x14) 0 5 ≠ 0 ∧ s.rdF (Reg.arb i + 0x14) 0 5 ≤ SMap.get 0 (s.arb i).losses r.id) ∧
        t.rd (Reg.arb i + 4) = s.rd (Reg.arb i + 4) + 1 ∧ bit (t.rd (Reg.arb i)) 31 = true ∧ t.rdF (Reg.arb i) 27 3 = s.prio r.id ∧
        t.rdF (Reg.arb i) 0 9 = r.id ∧ Frame s t [Reg.arb i, Reg.arb i + 4, Reg.arb i + 0xC, Reg.arb i + 0x10] [.banks])) ∧
    (∀ r : ArbReq, (s.arb i).holder = some r → (s.arb i).earliest ≤ cyc + 1 → r.id < 512 →
      ∃ t, exec (.arbTransferEnd i cyc []) s = .next t ∧ (t.arb i).holder = none ∧ (t.arb i).earliest = cyc + 1 ∧
        (t.arb i).waiting = (s.arb i).waiting ∧ bit (t.rd (Reg.arb i)) 30 = (s.arb i).waiting.isEmpty ∧ t.rdF (Reg.arb i) 0 9 = r.id ∧
        bit (t.rd (Reg.arb i)) 31 = false ∧
        (r.acc = none → Frame s t [Reg.arb i] [.banks]) ∧
        (∀ a bs bad, r.acc = some ⟨a, some bs, bad⟩ → (∀ b ∈ bs, b ≠ none) →
          (∀ j v, bs[j]? = some (some v) → t.rdB (a + j) = v) ∧ (∀ b, b < a ∨ a + bs.length ≤ b → t.rdB b = s.rdB b) ∧
          SameRegs s t (replyRegs ++ [Reg.arb i])) ∧
        (∀ a bad, r.acc = some ⟨a, none, bad⟩ → 1 ≤ r.len → 0x100000000 ≤ a → a + 32 * r.len ≤ 0x140000000 → Frame s t [Reg.arb i] [.banks] ∧
          t.banks.arbReads = s.banks.arbReads ++ [if (s.arb i).lines = [] then
            (r.id, a, (List.range (32 * r.len)).map (fun j => s.rdB (a + j)), (List.range (32 * r.len)).any (fun j => s.isPoisonAt (a + j)))
            else (r.id, a, ((s.arb i).lines.map (fun e => e.2.2.getD (s.lineNow e.2.1))).flatMap (·.1),
              ((s.arb i).lines.map (fun e => e.2.2.getD (s.lineNow e.2.1))).any (·.2))])) ∧
    ∀ v : W32,
      (s.prio id ≤ fld v 0 3 →
        ∃ t, exec (.reqPrio id v) s = .next t ∧ t.prio id = fld v 0 3 ∧ Frame s t [Reg.reqPrio id] []) ∧
      ((∀ a ∈ s.banks.arbs, ∀ r, a.holder = some r → r.id ≠ id) →
        ∃ t, exec (.reqPrio id v) s = .next t ∧ t.prio id = fld v 0 3 ∧ Frame s t [Reg.reqPrio id] [])

/-- A flit arrives in its queue or is flushed, credits return, a reserved slot serves its owner, and scrub finds what it finds (R76, R81,
R82, R84, R85, R154, R158, R194, R198, R199, R202, log 17). The conclusion for each of flitWrite, creditReturn, reservedSlot, scrubRead,
scrubPassEnd, on conditions on the state and the operands alone, is that exec answers a next state, with its own effect. -/
def Obligations.FlitsSlotsAndScrub : Prop :=
  (∀ (s : State) (i tile lc c k q : Nat) (m : MeshItem), s.hubOn = true → s.ant.mesh[i]? = some m → m.link = none → m.dest = .core tile lc →
    c = s.phys tile lc → k = m.flit.ctx → q = m.flit.dq → tile < 16 → c < 544 → k < 4 → q < 8 →
    (s.ctxValid tile c k = true → s.qEn tile c k q = true → s.qGather tile c k q = false → m.flit.len = 0 →
      s.qHeld tile c k q < s.qDepth tile c k q → s.qDepth tile c k q ≤ 64 →
      s.rdF (Reg.qstat tile c k q) 8 6 < s.qDepth tile c k q →
      ∃ t a, exec (.flitWrite i 0 []) s = .next t ∧ a = s.slotAddr tile c k q (s.rdF (Reg.qstat tile c k q) 8 6) ∧
        t.ant.mesh = s.ant.mesh.eraseIdx i ∧ t.qHeld tile c k q = s.qHeld tile c k q + 1 ∧
        t.rdF (Reg.qstat tile c k q) 8 6 = (s.rdF (Reg.qstat tile c k q) 8 6 + 1) % s.qDepth tile c k q ∧
        t.rdLE a 32 = m.flit.data.toNat ∧ t.sideAt a = ⟨m.flit.tag, m.flit.last, m.flit.poison, m.flit.src, m.flit.fires⟩ ∧
        SameRegs s t (replyRegs ++ [Reg.qstat tile c k q, Reg.meshConflict tile]) ∧
        (∀ b, b < a ∨ a + 32 ≤ b → t.rdB b = s.rdB b) ∧ (∀ p, p ∉ [Part.ant, Part.poison] → p.Same s t)) ∧
    (s.ctxValid tile c k = false →
      ∃ t, exec (.flitWrite i 0 []) s = .next t ∧ t.ant.mesh = s.ant.mesh.eraseIdx i ∧
        t.rd (Reg.ctxrStale k) = satInc (s.rd (Reg.ctxrStale k)) ∧ Raised s t Code.staleFlit ∧
        (∀ x, m.flit.credit = some x → t.ant.credits = s.ant.credits ++ [x]) ∧
        Frame s t ([Reg.ctxrStale k, Reg.meshConflict tile] ++ raiseRegs Code.staleFlit) (.ant :: raiseParts))) ∧
  (∀ (s : State) (i : Nat) (x : Src) (a : Nat), s.hubOn = true → s.ant.credits[i]? = some x → x.mid = 0 →
    (s.ctxTimed x.ctx = true ∨ s.surveyPaused x.tile (s.phys x.tile x.core) = false) →
    a = Reg.credit x.tile (s.phys x.tile x.core) x.ctx x.route →
    ∃ t, exec (.creditReturn i) s = .next t ∧ t.ant = { s.ant with credits := s.ant.credits.eraseIdx i } ∧
      t.rdF a 0 7 = min 127 (s.rdF a 0 7 + 1) ∧ Frame s t [a] [.ant]) ∧
  (∀ (s : State) (p sl h : Nat) (r : SlotRes) (ecc : Findings), s.hubOn = true → slotPortOk p = true →
    s.ant.slots.find? (fun e => e.2.port == p && e.2.slot == sl) = some (h, r) →
    ((∀ q ∈ s.ant.requests, q.port ≠ p) →
      ∃ t, exec (.reservedSlot p sl ecc) s = .next t ∧ t.banks.opened = s.banks.opened ++ [(p, sl, true)] ∧ t.ant = s.ant ∧
        Frame s t [] [.banks]) ∧
    (∀ (q : SlotReq) (out : State), s.ant.requests = [q] → q.port = p → q.owner = r.owner →
      State.deliver { s with banks.opened := s.banks.opened ++ [(p, sl, false)], ant.requests := [] } q.item ecc = some out →
      ∃ t, exec (.reservedSlot p sl ecc) s = .next t ∧ t = s.seal out) ∧
    (∀ q : SlotReq, s.ant.requests = [q] → q.port = p → q.owner ≠ r.owner → q.item.req = false →
      ∃ t, exec (.reservedSlot p sl ecc) s = .next t ∧ t.ant.requests = [] ∧ Raised s t Code.slotCollision ∧
        Frame s t (raiseRegs Code.slotCollision) ([.ant, .banks] ++ raiseParts))) ∧
  ∀ (s : State) (a kind sec : Nat), s.hubOn = true → s.shedStage = 0 →
    ((regionOf a).isMem = true → granule a = a → memKind a ≠ 3 → bit (s.rd (Reg.scrub (memKind a))) 31 = true → (regionOf a = .hbm → s.asleep a = false) →
      (∃ t, exec (.scrubRead a []) s = .next t ∧ Frame s t [] []) ∧
      (∃ t, exec (.scrubRead a [(a, 1)]) s = .next t ∧
        t.rdF (Reg.scrub (memKind a) + 0xC) 0 16 = min 65535 (s.rdF (Reg.scrub (memKind a) + 0xC) 0 16 + 1) ∧
        Frame s t [Reg.scrub (memKind a) + 0xC] [.banks]) ∧
      ∀ n, 2 ≤ n → (memKind a = 1 → n = 17) →
      ∃ t, exec (.scrubRead a [(a, n)]) s = .next t ∧ t.isPoisonAt a = true ∧ Raised s t (uncorrCode (memKind a)) ∧
        t.rdF (Reg.scrub (memKind a) + 0xC) 16 16 = min 65535 (s.rdF (Reg.scrub (memKind a) + 0xC) 16 16 + 1) ∧
        Frame s t ((Reg.scrub (memKind a) + 0xC) :: raiseRegs (uncorrCode (memKind a))) (.poison :: raiseParts)) ∧
    (regionOf a = .pattern → granule a = a → bit (s.rd (Reg.scrub 3)) 31 = true →
      (bits (s.rdLE a 32) 176 3 = 0 ∨ bits (s.rdLE a 32) 176 3 = 7 → ∃ t, exec (.scrubRead a []) s = .next t ∧ Frame s t [] []) ∧
      (bits (s.rdLE a 32) 176 3 = 3 ∨ bits (s.rdLE a 32) 176 3 = 5 ∨ bits (s.rdLE a 32) 176 3 = 6 →
        ∃ t, exec (.scrubRead a []) s = .next t ∧ bits (t.rdLE a 32) 176 3 = 7 ∧
          t.rdF (Reg.scrub 3 + 0xC) 0 16 = min 65535 (s.rdF (Reg.scrub 3 + 0xC) 0 16 + 1) ∧
          (∀ b, b < a ∨ a + 32 ≤ b → t.rdB b = s.rdB b) ∧ SameRegs s t (replyRegs ++ [Reg.scrub 3 + 0xC]))) ∧
    (kind < 4 → bit (s.rd (Reg.scrub kind)) 31 = true →
      ∃ t, exec (.scrubPassEnd kind sec) s = .next t ∧ t.rd (Reg.scrub kind + 4) = s.rd (Reg.scrub kind + 4) + 1 ∧
        t.rd (Reg.scrub kind + 8) = (if s.rdF (Reg.scrub kind) 0 16 < sec then satInc (s.rd (Reg.scrub kind + 8)) else s.rd (Reg.scrub kind + 8)) ∧
        Frame s t [Reg.scrub kind + 4, Reg.scrub kind + 8] [])

/-- MOV, LDV, STV, LDI and QPOP move lines, line pairs, immediates and queue heads; a result is read when its latency has run (R69, R71,
R72, R73, R75, R77, R107, R199, R200, Table 3.5, log 16, log 17). The conclusion for each of mov, ldv, stv, ldi, qpop, on conditions on
the state and the operands alone, is that exec answers a next state, with its own effect. -/
def Obligations.AntMovesData : Prop :=
  ∀ (s u : State) (tile core : Nat) (f g : Firing) (i : AntIns) (ms : AntMeas) (cb : Nat), s.atIns tile core f i → ms.ecc = [] →
    s.atIssue f i ms = (g, u) → cb = Reg.coreBase f.tile f.core →
    ((∀ h ∈ s.shadowsOf f.tile f.core, h.due ≤ g.clk) →
      (∀ r, u.vrSeen g r = (s.vr f.tile f.core r, s.vrPoison f.tile f.core r)) ∧ (∀ a, u.seenByte g a = (s.rdB a, s.isPoisonAt a)) ∧
      ∀ st n, u.accSeen g st n = s.accAt f.tile f.core st n) ∧
    (i.cls = 0 → i.op = 0 →
      (∀ n, n < i.cnt → s.inBounds f (dAddr i.srcA + 32 * i.step * n) 32 = true ∧ s.inBounds f (dAddr i.dst + 32 * i.step * n) 32 = true) →
      ∃ t, exec (.mov tile core ms) s = .next t ∧ Moved s t f i ms ∧ t.ant.vr = s.ant.vr ∧ t.ant.acc = s.ant.acc ∧ t.ant.mesh = s.ant.mesh ∧
        (i.cnt = 1 → t.rdBytes (cb + dAddr i.dst) 32 = (u.csRead g (dAddr i.srcA) 32).bytes) ∧
        (∀ a, (∀ n, n < i.cnt → a < cb + dAddr i.dst + 32 * i.step * n ∨ cb + dAddr i.dst + 32 * i.step * n + 32 ≤ a) → t.rdB a = s.rdB a) ∧
        SameRegs s t (replyRegs ++ [Reg.ctxStat f.tile f.core f.ctx]) ∧ (∀ p, p ∉ [Part.ant, Part.poison] → p.Same s t)) ∧
    (i.cls = 0 → i.op = 1 →
      (s.inBounds f (dAddr i.srcA) 64 = true →
        ∃ t, exec (.ldv tile core ms) s = .next t ∧ Moved s t f i ms ∧ g.due = g.clk + ms.waits + 3 ∧
          (∀ h : Firing, h.tile = f.tile → h.core = f.core → t.vrSeen h (dReg i.dst) = if h.clk < g.due then u.vrSeen h (dReg i.dst) else
            (BitVec.ofNat 512 (ofBytesLE (u.csRead g (dAddr i.srcA) 64).bytes), laneMask (u.csRead g (dAddr i.srcA) 64).marks)) ∧
          t.ant.acc = s.ant.acc ∧ t.ant.mesh = s.ant.mesh ∧ Frame s t [Reg.ctxStat f.tile f.core f.ctx] [.ant]) ∧
      (s.inBounds f (dAddr i.srcA) 64 = false →
        ∃ t, exec (.ldv tile core ms) s = .next t ∧ Moved s t f i ms ∧ t.vrPoison f.tile f.core (dReg i.dst) = 65535 ∧
          Raised s t Code.coreBounds ∧ Frame s t (Reg.ctxStat f.tile f.core f.ctx :: raiseRegs Code.coreBounds) (.ant :: raiseParts))) ∧
    (i.cls = 0 → i.op = 2 → s.inBounds f (dAddr i.dst) 64 = true →
      ∃ t, exec (.stv tile core ms) s = .next t ∧ Moved s t f i ms ∧ t.rdLE (cb + dAddr i.dst) 64 = (u.vrSeen g (dReg i.srcA)).1.toNat ∧
        (∀ a, a < cb + dAddr i.dst ∨ cb + dAddr i.dst + 64 ≤ a → t.rdB a = s.rdB a) ∧
        t.ant.vr = s.ant.vr ∧ t.ant.acc = s.ant.acc ∧ t.ant.mesh = s.ant.mesh ∧
        SameRegs s t (replyRegs ++ [Reg.ctxStat f.tile f.core f.ctx]) ∧ (∀ p, p ∉ [Part.ant, Part.poison] → p.Same s t)) ∧
    (i.cls = 0 → i.op = 3 →
      ∃ t, exec (.ldi tile core ms) s = .next t ∧ Moved s t f i ms ∧ g.due = g.clk + ms.waits + 1 ∧
        (∀ h : Firing, h.tile = f.tile → h.core = f.core → t.vrSeen h (dReg i.dst) = if h.clk < g.due then u.vrSeen h (dReg i.dst) else
          (ofLanes (List.replicate 16 (dImm i.srcA)), 0)) ∧
        (∀ r, r < 32 → r ≠ dReg i.dst → t.vr f.tile f.core r = s.vr f.tile f.core r) ∧ t.ant.acc = s.ant.acc ∧ t.ant.mesh = s.ant.mesh ∧
        Frame s t [Reg.ctxStat f.tile f.core f.ctx] [.ant]) ∧
    ∀ (fl : Flit) (q : Nat), i.cls = 3 → i.op = 0 → i.cnt = 1 → q = dQueue i.srcA → s.spilledOf f.tile f.core f.ctx q = [] →
      s.qHead f.tile f.core f.ctx q = some fl →
      (dKind i.dst = Kind.vreg →
        ∃ t, exec (.qpop tile core ms) s = .next t ∧ Moved s t f i ms ∧ t.qHeld f.tile f.core f.ctx q + 1 = s.qHeld f.tile f.core f.ctx q ∧
          (t.vr f.tile f.core (dReg i.dst)).toNat % 2 ^ 256 = fl.data.toNat ∧
          (t.vr f.tile f.core (dReg i.dst)).toNat / 2 ^ 256 = (s.vr f.tile f.core (dReg i.dst)).toNat / 2 ^ 256 ∧
          (∀ x, fl.src = some x → t.ant.credits = s.ant.credits ++ [x]) ∧
          Frame s t [Reg.ctxStat f.tile f.core f.ctx, Reg.qstat f.tile f.core f.ctx q] [.ant]) ∧
      (dKind i.dst ≠ Kind.vreg → s.inBounds f (dAddr i.dst) 32 = true →
        ∃ t, exec (.qpop tile core ms) s = .next t ∧ Moved s t f i ms ∧ t.qHeld f.tile f.core f.ctx q + 1 = s.qHeld f.tile f.core f.ctx q ∧
          t.rdLE (cb + dAddr i.dst) 32 = fl.data.toNat ∧ (∀ a, a < cb + dAddr i.dst ∨ cb + dAddr i.dst + 32 ≤ a → t.rdB a = s.rdB a) ∧
          SameRegs s t (replyRegs ++ [Reg.ctxStat f.tile f.core f.ctx, Reg.qstat f.tile f.core f.ctx q]) ∧
          (∀ p, p ∉ [Part.ant, Part.poison] → p.Same s t))

/-- QPUSH, QFWD, SREQ and SFUC send flits with their sideband; NOP, LOOP and END sequence a firing; firings start and overrun (R72, R76,
R77, R78, R81, R82, R86, R131, R196, R200, Table 3.5, log 18). The conclusion for each of firingStart, surveyOverrun, qpush, qfwd, sreq,
sfuc, nop, loopOp, endOp, on conditions on the state and the operands alone, is that exec answers a next state, with its own effect. -/
def Obligations.AntSendsAndSequences : Prop :=
  (∀ (s u v : State) (tile core : Nat) (f g : Firing) (i : AntIns) (ms : AntMeas) (cr : Nat) (d : BitVec 256) (p : Bool) (dest : Dest),
    s.atIns tile core f i → ms.ecc = [] → ms.res = [] → s.atIssue f i ms = (g, u) →
    cr = Reg.credit f.tile f.core f.ctx (bits i.aux 0 4) →
    (i.cls = 3 → i.op = 1 → i.cnt = 1 → u.pushData g i 0 [] = (d, p, v) →
      routeDest f (s.rd (Reg.route f.tile f.core f.ctx (bits i.aux 0 4))) = some dest →
      ∃ t m, exec (.qpush tile core ms) s = .next t ∧ Moved s t f i ms ∧ t.ant.mesh = s.ant.mesh ++ [m] ∧ m.dest = dest ∧ m.flit.data = d ∧
        m.flit.tag = f.tag ∧ m.flit.ctx = f.ctx ∧ m.flit.dq = fld (s.rd (Reg.route f.tile f.core f.ctx (bits i.aux 0 4))) 25 3 ∧
        m.flit.last = true ∧ m.flit.poison = (p || f.poisoned) ∧ m.flit.fires = [f.serial] ∧ m.req = false ∧
        (bits i.aux 8 3 = 0 → m.flit.len = 0 ∧ t.rdF cr 0 7 = s.rdF cr 0 7 - 1) ∧
        (bits i.aux 8 3 ≠ 0 → m.flit.len = bits i.aux 8 3 ∧ m.flit.off = bits i.aux 4 3 ∧ t.rd cr = s.rd cr) ∧
        Frame v t [Reg.ctxStat f.tile f.core f.ctx, cr] [.ant, .twin]) ∧
    (i.cls = 3 → i.op = 2 → i.cnt = 1 → ∀ (fl : Flit) (q : Nat), q = dQueue i.srcA → s.spilledOf f.tile f.core f.ctx q = [] →
      s.qHead f.tile f.core f.ctx q = some fl → routeDest f (s.rd (Reg.route f.tile f.core f.ctx (bits i.aux 0 4))) = some dest →
      ∃ t m, exec (.qfwd tile core ms) s = .next t ∧ Moved s t f i ms ∧ t.ant.mesh = s.ant.mesh ++ [m] ∧ m.dest = dest ∧ m.flit.data = fl.data ∧
        m.flit.tag = f.tag ∧ m.flit.poison = (fl.poison || f.poisoned) ∧ t.qHeld f.tile f.core f.ctx q + 1 = s.qHeld f.tile f.core f.ctx q ∧
        (bits i.aux 8 3 = 0 → t.rdF cr 0 7 = s.rdF cr 0 7 - 1) ∧
        Frame s t [Reg.ctxStat f.tile f.core f.ctx, Reg.qstat f.tile f.core f.ctx q, cr] [.ant, .twin]) ∧
    (i.cls = 3 → i.op = 3 → i.cnt = 1 → u.pushData g i 0 [] = (d, p, v) →
      routeDest f (s.rd (Reg.route f.tile f.core f.ctx (bits i.aux 0 4))) = some dest →
      ∃ t m, exec (.sreq tile core ms) s = .next t ∧ Moved s t f i ms ∧ t.ant.mesh = s.ant.mesh ++ [m] ∧ m.dest = dest ∧ m.flit.data = d ∧
        m.flit.tag = f.tag ∧ m.flit.dq = dQueue i.dst ∧ m.req = true ∧ Frame v t [Reg.ctxStat f.tile f.core f.ctx] [.ant]) ∧
    (i.cls = 4 → i.op = 0 → i.cnt = 1 → u.pushData g i 0 [] = (d, p, v) →
      ∃ t m, exec (.sfuc tile core ms) s = .next t ∧ Moved s t f i ms ∧ t.ant.mesh = s.ant.mesh ++ [m] ∧
        m.dest = .sfu f.tile (bits i.aux 0 2) (bits i.aux 2 6) (bits i.aux 8 4) ((s.logical f.tile f.core).getD 0) ∧ m.flit.data = d ∧
        m.flit.tag = f.tag ∧ m.flit.dq = dQueue i.dst ∧ m.flit.last = true ∧ Frame v t [Reg.ctxStat f.tile f.core f.ctx] [.ant]) ∧
    (i.cls = 5 → i.op = 0 →
      ∃ t, exec (.nop tile core ms) s = .next t ∧ Moved s t f i ms ∧ t.ant.mesh = s.ant.mesh ∧ t.ant.vr = s.ant.vr ∧ t.ant.acc = s.ant.acc ∧
        Frame s t [Reg.ctxStat f.tile f.core f.ctx] [.ant]) ∧
    (i.cls = 5 → i.op = 1 →
      ∃ t, exec (.loopOp tile core ms) s = .next t ∧ Frame s t [Reg.ctxStat f.tile f.core f.ctx] [.ant] ∧
        t.firingOf f.tile f.core = some { g with
          pc := (f.pc + 1) % 512, next := g.clk + 1 + ms.waits,
          loops := ⟨f.pc + 1, f.pc + 1 + bits i.aux 0 6, i.cnt - 1⟩ :: f.loops }) ∧
    (i.cls = 5 → i.op = 2 →
      ∃ t, exec (.endOp tile core ms) s = .next t ∧ t.firingOf f.tile f.core = none ∧ SMap.get 0 t.ant.endAt (kc f.tile f.core) = g.clk + 1 ∧
        bit (t.rd (Reg.ctxStat f.tile f.core f.ctx)) 31 = false ∧ t.ant.mesh = s.ant.mesh ∧
        Frame s t [Reg.ctxStat f.tile f.core f.ctx] [.ant])) ∧
  (∀ (s : State) (tile core : Nat) (f : Firing), coreOk tile core = true → s.firingOf tile core = some f → 0 < f.serial →
    (s.isPoison (iramAddr f.tile f.core f.ctx f.pc) 16 = true →
      ∃ t g, exec (.nop tile core {}) s = .next t ∧ t.firingOf tile core = some g ∧ g.poisoned = true ∧ g.ctx = f.ctx ∧ g.tag = f.tag ∧
        (∀ m ∈ t.ant.mesh, m.flit.fires.elem f.serial = true → m.flit.poison = true) ∧ t.ant.mesh.length = s.ant.mesh.length ∧
        Frame s t [Reg.ctxStat f.tile f.core f.ctx] [.ant, .banks, .clk, .scarab]) ∧
    (bit (s.rd (Reg.ctxCfg tile core f.ctx)) 30 = false →
      f.start + s.rdF (Reg.ctxMaxFire tile core f.ctx) 0 16 ≤ s.issueAt f (antIns (s.fetchAnt f).1) →
      ∃ t, exec (.surveyOverrun tile core) s = .next t ∧ t.firingOf tile core = none ∧ Raised s t Code.surveyOverrun ∧
        (∀ m ∈ t.ant.mesh, m.flit.fires.elem f.serial = true → m.flit.poison = true) ∧ t.ant.mesh.length = s.ant.mesh.length ∧
        (∀ a, (s.sideAt a).fires.elem f.serial = true → (t.sideAt a).poison = true) ∧
        (∀ e ∈ t.scarab.spilled, e.flit.fires.elem f.serial = true → e.flit.poison = true) ∧
        (∀ e ∈ t.banks.patReqs, e.fires.elem f.serial = true → e.poison = true) ∧
        (∀ e ∈ t.clk.vals, e.fires.elem f.serial = true → e.poison = true) ∧
        Frame s t (Reg.ctxStat tile core f.ctx :: raiseRegs Code.surveyOverrun) ([.ant, .banks, .clk, .scarab] ++ raiseParts))) ∧
  ∀ (s : State) (tile core cyc k q : Nat) (qs : List Nat) (fl : Flit), coreOk tile core = true → s.hubOn = true →
    SMap.get 0 s.ant.endAt (kc tile core) ≤ s.tod.tickFab + cyc →
    s.selectCtx tile core cyc = some k → s.named tile core k = q :: qs → s.qHead tile core k q = some fl → s.firingOf tile core = none →
    ((∀ r ∈ qs, ∀ x, s.qHead tile core k r = some x → x.tag = fl.tag) →
      ∃ t g, exec (.firingStart tile core cyc) s = .next t ∧ t.firingOf tile core = some g ∧ g.ctx = k ∧ g.tag = fl.tag ∧
        g.pc = s.rdF (Reg.ctxCfg tile core k) 0 9 ∧ g.poisoned = false ∧ g.loops = [] ∧ g.next = s.tod.tickFab + cyc + 1 ∧
        bit (t.rd (Reg.ctxStat tile core k)) 31 = true ∧ t.rd (Reg.ctxFires tile core k) = s.rd (Reg.ctxFires tile core k) + 1 ∧
        Frame s t [Reg.ctxStat tile core k, Reg.ctxFires tile core k] [.tod, .ant, .scarab]) ∧
    ((∃ r ∈ qs, ∃ x, s.qHead tile core k r = some x ∧ x.tag ≠ fl.tag) →
      ∃ t g, exec (.firingStart tile core cyc) s = .next t ∧ t.firingOf tile core = some g ∧ g.ctx = k ∧ g.tag = fl.tag ∧
        g.poisoned = true ∧ Raised s t Code.tagSkew ∧
        Frame s t ([Reg.ctxStat tile core k, Reg.ctxFires tile core k] ++ raiseRegs Code.tagSkew) ([.tod, .ant, .scarab] ++ raiseParts))

/-- VADD, VMUL, VMAX, VMIN and VFMA work lane by lane; VCMP makes a mask, VSEL selects by it, VCVT converts, VRSC rescales (R71, R112, R113,
R117, R119, R120, R123, R125, R201, Table 3.5, log 16, log 19). The conclusion for each of vadd, vmul, vmax, vmin, vfma, vcmp, vsel,
vcvt, vrsc, on conditions on the state and the operands alone, is that exec answers a next state, with its own effect. -/
def Obligations.VectorClassWorksByLanes : Prop :=
  ∀ (s u0 : State) (tile core : Nat) (f g : Firing) (i : AntIns) (ms : AntMeas), s.atIns tile core f i → ms.ecc = [] → ms.res = [] →
    s.atIssue f i ms = (g, u0) → i.cls = 2 →
    (∀ (as bs : List W32) (u v : State) (d xa xb : Nat), u0.srcLanes g i.srcA = ⟨u, as, 0, xa⟩ → u.srcLanes g i.srcB = ⟨v, bs, 0, xb⟩ →
      d = dReg i.dst →
      (∀ e ∈ ([(fun t c m => Instr.vadd t c m, 0, f32Add), (fun t c m => Instr.vmul t c m, 1, f32Mul),
               (fun t c m => Instr.vmax t c m, 2, f32Pick true), (fun t c m => Instr.vmin t c m, 3, f32Pick false)] :
               List ((Nat → Nat → AntMeas → Instr) × Nat × (W32 → W32 → W32))), i.op = e.2.1 →
        (∃ t, exec (e.1 tile core ms) s = .next t ∧ Moved s t f i ms ∧
          t.vr f.tile f.core d = ofLanes ((List.range 16).map (fun n => e.2.2 (as.getD n 0) (bs.getD n 0))) ∧ t.vrPoison f.tile f.core d = 0 ∧
          t.ant.acc = s.ant.acc ∧ Frame v t [Reg.ctxStat f.tile f.core f.ctx] [.ant]) ∧
        ∀ n, n < 16 → ∃ t, exec (e.1 tile core { ms with res := [n] }) s = .next t ∧ t.vrPoison f.tile f.core d = 2 ^ n ∧
          Raised v t Code.residueMismatch ∧ t.rd (Reg.coreRes f.tile f.core) = satInc (s.rd (Reg.coreRes f.tile f.core))) ∧
      (∀ (cs : List W32) (w : State) (xc : Nat), i.op = 4 → v.srcLanes g i.dst = ⟨w, cs, 0, xc⟩ →
        ∃ t, exec (.vfma tile core ms) s = .next t ∧ Moved s t f i ms ∧
          t.vr f.tile f.core d = ofLanes ((List.range 16).map (fun n => f32Fma (as.getD n 0) (bs.getD n 0) (cs.getD n 0))) ∧
          t.vrPoison f.tile f.core d = 0 ∧ Frame w t [Reg.ctxStat f.tile f.core f.ctx] [.ant]) ∧
      (i.op = 5 →
        ∃ t, exec (.vcmp tile core ms) s = .next t ∧ Moved s t f i ms ∧
          (∀ n, n < 16 → nbit (t.vr f.tile f.core d).toNat n = f32Cmp (bits i.mode 0 2) (as.getD n 0) (bs.getD n 0)) ∧
          (t.vr f.tile f.core d).toNat / 2 ^ 16 = (s.vr f.tile f.core d).toNat / 2 ^ 16 ∧
          Frame v t [Reg.ctxStat f.tile f.core f.ctx] [.ant]) ∧
      (i.op = 6 → (u0.vrSeen g d).2 = 0 →
        ∃ t, exec (.vsel tile core ms) s = .next t ∧ Moved s t f i ms ∧
          t.vr f.tile f.core d = ofLanes ((List.range 16).map (fun n =>
            if nbit (u0.vrSeen g d).1.toNat n then as.getD n 0 else bs.getD n 0)) ∧
          Frame v t [Reg.ctxStat f.tile f.core f.ctx] [.ant])) ∧
    (∀ (as bs : List W32) (u v : State) (pa xa xb : Nat), i.op = 0 → u0.srcLanes g i.srcA = ⟨u, as, pa, xa⟩ → 0 < pa →
      (u.consume g xa).srcLanes g i.srcB = ⟨v, bs, 0, xb⟩ →
      ∃ t, exec (.vadd tile core ms) s = .next t ∧ t.vrPoison f.tile f.core (dReg i.dst) = pa ∧ Raised u t Code.poisonConsumed ∧
        Frame v t [Reg.ctxStat f.tile f.core f.ctx] [.ant]) ∧
    (∀ (l src : Got) (d : OutDesc) (out : List Narrowed) (len : Nat), i.op = 7 → s.inBounds f (s.auxLine f i.aux) 32 = true →
      l = u0.csRead g (s.auxLine f i.aux) 32 → l.poison = false → d = outDesc (ofBytesLE l.bytes) → d.block = 0 →
      src = u0.srcBytes g i.srcA 0 0 128 → src.poison = false →
      out = (elemCodes i.fmtB 16 src.bytes).map (fun c => narrow i.fmtA d.ieee d.full (codeVal i.fmtB c)) →
      (∀ x ∈ out, x.nonfinite = false) → len = (codeBytes i.fmtA (out.map (·.code))).length →
      ∃ t, exec (.vcvt tile core ms) s = .next t ∧ Moved s t f i ms ∧
        (t.vr f.tile f.core (dReg i.dst)).toNat % 2 ^ (8 * len) = ofBytesLE (codeBytes i.fmtA (out.map (·.code))) ∧
        (t.vr f.tile f.core (dReg i.dst)).toNat / 2 ^ (8 * len) = (s.vr f.tile f.core (dReg i.dst)).toNat / 2 ^ (8 * len) ∧
        Frame src.st t [Reg.ctxStat f.tile f.core f.ctx, Reg.num f.ctx d.tensor + 8, Reg.num f.ctx d.tensor + 12] [.ant]) ∧
    ∀ (l : Got) (w width xa : Nat) (hi lo : Int) (as : List W32) (u : State), i.op = 8 → s.inBounds f (s.auxLine f i.aux) 32 = true →
      l = u0.csRead g (s.auxLine f i.aux) 32 → l.poison = false →
      w = ofBytesLE l.bytes → nbit w 255 = false → u0.srcLanes g i.srcA = ⟨u, as, 0, xa⟩ →
      width = (if nbit w 252 then 4 else 8) → hi = 2 ^ (width - 1) - 1 → lo = (if nbit w 253 then -(2 ^ (width - 1)) else -hi) →
      ∃ t, exec (.vrsc tile core ms) s = .next t ∧ Moved s t f i ms ∧
        t.vr f.tile f.core (dReg i.dst) = ofLanes (as.map (fun x =>
          BitVec.ofInt 32 (vrsc x.toInt (bits w 177 31) (bits w 208 6) (toSigned 8 (bits w 214 8)) (nbit w 254) lo hi).1)) ∧
        t.vrPoison f.tile f.core (dReg i.dst) = 0 ∧
        Frame u t [Reg.ctxStat f.tile f.core f.ctx, Reg.num f.ctx (bits w 240 10) + 8, Reg.num f.ctx (bits w 240 10) + 12] [.ant]

/-- DOT and OUTP add exact products into accumulators, ACCCLR clears them, XADD adds partial slots, ACCOUT narrows the results (R103, R105,
R107, R110, R111, R113, R116, R122, R124, R125, Table 3.5, log 16). The conclusion for each of accclr, dot, outp, xadd, accout, on
conditions on the state and the operands alone, is that exec answers a next state, with its own effect. -/
def Obligations.MacClassAccumulatesExactly : Prop :=
  ∀ (s u0 : State) (tile core : Nat) (f g : Firing) (i : AntIns) (ms : AntMeas), s.atIns tile core f i → ms.ecc = [] → ms.res = [] →
    s.atIssue f i ms = (g, u0) → i.cls = 1 →
    (i.op = 0 →
      ∃ t, exec (.accclr tile core ms) s = .next t ∧ Moved s t f i ms ∧
        (∀ n, n ≤ bits i.aux 0 6 → t.accAt f.tile f.core (dSet i.dst) (dFirst i.dst + n) = Acc.zero) ∧
        (∀ k, (∀ n, n ≤ bits i.aux 0 6 → k ≠ accKey f.tile f.core (dSet i.dst) (dFirst i.dst + n)) →
          SMap.get Acc.zero t.ant.acc k = SMap.get Acc.zero s.ant.acc k) ∧
        t.ant.vr = s.ant.vr ∧ t.ant.mesh = s.ant.mesh ∧ Frame s t [Reg.ctxStat f.tile f.core f.ctx] [.ant]) ∧
    (i.op = 0 → ∀ o, o ≤ bits i.aux 0 6 →
      ∃ t, exec (.accclr tile core { ms with res := [o] }) s = .next t ∧ Moved s t f i ms ∧
        t.accAt f.tile f.core (dSet i.dst) (dFirst i.dst + o) = { Acc.zero with faulted := true } ∧ Raised s t Code.residueMismatch ∧
        t.rd (Reg.coreRes f.tile f.core) = satInc (s.rd (Reg.coreRes f.tile f.core))) ∧
    (∀ (u v w : State) (desc xa xb : Nat) (ba bb : List W8) (ma mb : List Bool), i.cnt = 1 → bits i.mode 2 2 = 0 →
      u0.macDesc g i = (u, desc, false) → ma.any id = false → mb.any id = false →
      (∀ (outs terms : Nat) (as bs : List Val), i.op = 1 → outs = 2 ^ bits i.mode 0 2 →
        terms = (if (i.fmtA = Fmt.e2m1 ∨ i.fmtA = Fmt.int4) ∧ (i.fmtB = Fmt.e2m1 ∨ i.fmtB = Fmt.int4) then 128 else 64) / outs →
        u.srcBytes g i.srcA i.step 0 (elemBytes i.fmtA terms) = ⟨v, ba, ma, xa⟩ →
        v.srcBytes g i.srcB i.step 0 (elemBytes i.fmtB (terms * outs)) = ⟨w, bb, mb, xb⟩ →
        as = (elemCodes i.fmtA terms ba).map (operandVal desc i.fmtA) → bs = (elemCodes i.fmtB (terms * outs) bb).map (operandVal desc i.fmtB) →
        (∀ x ∈ as, x.isFin = true) → (∀ x ∈ bs, x.isFin = true) →
        (∀ o a, o < outs → a = s.accAt f.tile f.core (dSet i.dst) (dFirst i.dst + o) →
          (a.mode = macMode 0 i.fmtA ∨ (a.mode ≠ 6 ∧ a.inBlk = 0)) ∧ (a.terms % 4096 = 0 → a.inBlk = 0) ∧ a.terms % 4096 + terms < 4096) →
        (∃ t, exec (.dot tile core ms) s = .next t ∧ Moved s t f i ms ∧
          (∀ o a, o < outs → a = s.accAt f.tile f.core (dSet i.dst) (dFirst i.dst + o) →
            t.accAt f.tile f.core (dSet i.dst) (dFirst i.dst + o) =
              { a with exact := a.exact + (List.zipWith (fun x y => (product (isInt i.fmtA) x y).getD 0) as ((bs.drop (o * terms)).take terms)).sum,
                       terms := a.terms + terms, inBlk := a.inBlk + terms, mode := macMode 0 i.fmtA }) ∧
          t.ant.vr = s.ant.vr ∧ Frame w t [Reg.ctxStat f.tile f.core f.ctx] [.ant]) ∧
        ∀ o, o < outs → ∃ t, exec (.dot tile core { ms with res := [o] }) s = .next t ∧ Moved s t f i ms ∧
          (t.accAt f.tile f.core (dSet i.dst) (dFirst i.dst + o)).faulted = true ∧ Raised w t Code.residueMismatch ∧
          t.rd (Reg.coreRes f.tile f.core) = satInc (s.rd (Reg.coreRes f.tile f.core))) ∧
      (∀ (rows : Nat) (as bs : List Val), i.op = 2 →
        rows = (if (i.fmtA = Fmt.e2m1 ∨ i.fmtA = Fmt.int4) ∧ (i.fmtB = Fmt.e2m1 ∨ i.fmtB = Fmt.int4) then 2 else 1) →
        u.srcBytes g i.srcA i.step 0 (elemBytes i.fmtA rows) = ⟨v, ba, ma, xa⟩ →
        v.srcBytes g i.srcB i.step 0 (elemBytes i.fmtB (64 * rows)) = ⟨w, bb, mb, xb⟩ →
        as = (elemCodes i.fmtA rows ba).map (operandVal desc i.fmtA) → bs = (elemCodes i.fmtB (64 * rows) bb).map (operandVal desc i.fmtB) →
        (∀ x ∈ as, x.isFin = true) → (∀ x ∈ bs, x.isFin = true) →
        (∀ o a, o < 64 → a = s.accAt f.tile f.core (dSet i.dst) (dFirst i.dst + o) →
          (a.mode = macMode 0 i.fmtA ∨ (a.mode ≠ 6 ∧ a.inBlk = 0)) ∧ (a.terms % 4096 = 0 → a.inBlk = 0) ∧ a.terms % 4096 + rows < 4096) →
        ∃ t, exec (.outp tile core ms) s = .next t ∧ Moved s t f i ms ∧
          (∀ o x, o < 64 → x = s.accAt f.tile f.core (dSet i.dst) (dFirst i.dst + o) →
            t.accAt f.tile f.core (dSet i.dst) (dFirst i.dst + o) =
              { x with exact := x.exact + ((List.range rows).map (fun r =>
                         (product (isInt i.fmtA) (as.getD r Val.zero) (bs.getD (64 * r + o) Val.zero)).getD 0)).sum,
                       terms := x.terms + rows, inBlk := x.inBlk + rows, mode := macMode 0 i.fmtA }) ∧
          t.ant.vr = s.ant.vr ∧ Frame w t [Reg.ctxStat f.tile f.core f.ctx] [.ant])) ∧
    (∀ (u : State) (ba : List W8) (ma : List Bool) (xa : Nat) (x : Nat → Slot), i.op = 3 → i.cnt = 1 → dKind i.srcB = Kind.none →
      u0.srcBytes g i.srcA i.step 0 32 = ⟨u, ba, ma, xa⟩ → ma.any id = false →
      (∀ j, j < 2 → x j = slotOf (ofBytesLE ((ba.drop (16 * j)).take 16))) →
      (∀ j, j < 2 → (x j).kind = 2 ∧ (x j).faulted = false ∧
        bits (ofBytesLE ((ba.drop (16 * j)).take 16)) 105 3 = slotRes 2 (x j).exact (x j).xf) →
      (∀ j a, j < 2 → a = s.accAt f.tile f.core (dSet i.dst) (dFirst i.dst + j) → a.mode = 2 ∧ a.xsig = 0 ∧ 0 < a.terms ∧ a.faulted = false ∧
        a.terms + (x j).terms ≤ 4096) →
      ∃ t, exec (.xadd tile core ms) s = .next t ∧ Moved s t f i ms ∧
        (∀ j a b, j < 2 → a = s.accAt f.tile f.core (dSet i.dst) (dFirst i.dst + j) → b = t.accAt f.tile f.core (dSet i.dst) (dFirst i.dst + j) →
          b.exact = a.exact + (x j).exact ∧ b.terms = a.terms + (x j).terms ∧ b.mode = 2 ∧ b.faulted = false) ∧
        t.ant.vr = s.ant.vr ∧ Frame u t [Reg.ctxStat f.tile f.core f.ctx] [.ant]) ∧
    ∀ (l : Got) (d : OutDesc) (as : List Acc) (out : List Narrowed) (len : Nat), i.op = 4 → s.inBounds f (s.auxLine f i.aux) 32 = true →
      l = u0.csRead g (s.auxLine f i.aux) 32 → l.poison = false → d = outDesc (ofBytesLE l.bytes) → d.block = 0 → nbit i.mode 3 = false →
      as = (List.range i.cnt).map (fun n => u0.accSeen g (dSet i.srcA) (dFirst i.srcA + n)) →
      (∀ a ∈ as, a.mode ≠ 6 ∧ a.faulted = false) → (s.fn24 f = false ∨ ∃ a ∈ as, 0 < a.terms) →
      out = as.map (fun a => narrow i.fmtA d.ieee d.full (outValue d (bits i.mode 0 2 == 1) none a)) → (∀ x ∈ out, x.nonfinite = false) →
      len = (codeBytes i.fmtA (out.map (·.code))).length → len ≤ 64 →
      ∃ t, exec (.accout tile core ms) s = .next t ∧ Moved s t f i ms ∧
        (t.vr f.tile f.core (dReg i.dst)).toNat % 2 ^ (8 * len) = ofBytesLE (codeBytes i.fmtA (out.map (·.code))) ∧
        (t.vr f.tile f.core (dReg i.dst)).toNat / 2 ^ (8 * len) = (s.vr f.tile f.core (dReg i.dst)).toNat / 2 ^ (8 * len) ∧
        Frame s t [Reg.ctxStat f.tile f.core f.ctx, Reg.num f.ctx d.tensor + 8, Reg.num f.ctx d.tensor + 12] [.ant]

/-- A complete call runs its function and its result enters the mesh; a KV_LOAD fills its bank; Scarab faults or spills a ring (R131, R134,
R135, R138, R141, R144, R145, R148, R176, R177, R178, log 17). The conclusion for each of sfuCallStart, sfuResult, kvLoad, scarabStep,
scarabHubStep, on conditions on the state and the operands alone, is that exec answers a next state, with its own effect. -/
def Obligations.SfuCallsAndScarab : Prop :=
  (∀ (s u : State) (tile g slot cyc ix now : Nat) (c : SfuCall) (p : Pset) (ws : List W32), tile < 16 → g < 4 → u = s.atCycle cyc →
    u.callAt tile g slot = some (ix, c) → now = s.tod.tickFab + cyc → p = pset (s.psetOf tile g c.ctx c.pset) → ws = c.flits.flatMap flitWords →
    c.complete = true → u.isNext c now = true → c.readyAt ≤ now → SMap.get 0 s.ant.engineAt (engineKey tile g (engineOf c.fn)) ≤ now →
    (∀ o ∈ s.ant.sfuOuts, ¬(o.tile = tile ∧ o.unit = g)) → s.sfuRes tile g = [] → c.poison = false →
    (∀ v : SfuVal, p.fn = c.fn → v.nonfinite = false →
      (c.fn = 0 ∧ v = sortFn p ws ∨ c.fn = 1 ∧ v = elementwise (s.pwpOne tile g p) ws ∨ c.fn = 2 ∧ v = elementwise f32Exp ws ∨
       c.fn = 3 ∧ v = elementwise f32Recip ws ∨ c.fn = 4 ∧ v = softmaxFn ws ∨
       c.fn = 6 ∧ ∃ b, s.bankOf tile g c.ctx c.tag = some b ∧ b.tag = c.tag ∧ b.n ≤ p.nMax ∧ b.poison = false ∧
         v = attendFn p b.n b.bytes (ws.flatMap (fun w => bytesLE 4 w.toNat))) →
      ∃ t, exec (.sfuCallStart tile g slot cyc false) s = .next t ∧ t.ant.calls = s.ant.calls.eraseIdx ix ∧
        t.ant.sfuOuts = s.ant.sfuOuts ++ [⟨tile, g, c.ctx, c.lcore, c.dq, c.tag, now + sfuLatency c.fn p - 1,
          wordsFlits (resultFlits c.fn c.flits.length p) v.words, false, false, c.fires⟩] ∧
        SMap.get 0 t.ant.engineAt (engineKey tile g (engineOf c.fn)) = now + sfuInterval c.fn c.flits.length p ∧
        t.rd (Reg.sfu tile g) = s.rd (Reg.sfu tile g) + 1 ∧
        Frame s t [Reg.sfu tile g, Reg.num c.ctx p.tensor + 8, Reg.num c.ctx p.tensor + 12] [.tod, .ant]) ∧
    (∃ t o, exec (.sfuCallStart tile g slot cyc true) s = .next t ∧ t.ant.sfuOuts = s.ant.sfuOuts ++ [o] ∧ o.poison = true ∧
      o.flits.length = resultFlits c.fn c.flits.length p ∧ Raised s t Code.residueMismatch) ∧
    (p.fn ≠ c.fn →
      ∃ t o, exec (.sfuCallStart tile g slot cyc false) s = .next t ∧ t.ant.calls = s.ant.calls.eraseIdx ix ∧
        t.ant.sfuOuts = s.ant.sfuOuts ++ [o] ∧ o.poison = true ∧ o.flits.length = resultFlits c.fn c.flits.length p ∧
        t.rd (Reg.sfu tile g + 0xC) = satInc (s.rd (Reg.sfu tile g + 0xC)) ∧ Raised s t Code.sfuDesc ∧
        Frame s t ([Reg.sfu tile g, Reg.sfu tile g + 0xC] ++ raiseRegs Code.sfuDesc) ([.tod, .ant] ++ raiseParts))) ∧
  (∀ (s : State) (tile g : Nat) (o : SfuOut), tile < 16 → g < 4 → s.ant.sfuOuts = [o] → o.tile = tile → o.unit = g →
    o.sent = false →
    ∃ t ms, exec (.sfuResult tile g) s = .next t ∧ t.tod.fab = max s.tod.fab o.at' ∧
      t.ant = { s.ant with sfuOuts := [{ o with sent := true }], mesh := s.ant.mesh ++ ms } ∧
      ms.map (fun (m : MeshItem) => m.flit.data) = o.flits ∧
      (∀ m ∈ ms, m.dest = .core tile o.lcore ∧ m.result = true ∧ m.flit.tag = o.tag ∧ m.flit.ctx = o.ctx ∧ m.flit.dq = o.dq ∧ m.flit.poison = o.poison) ∧
      Frame s t [] [.tod, .ant]) ∧
  (∀ (s : State) (tile g ps lc : Nat) (m : MeshItem) (b : KvBank), tile < 16 → g < 4 → s.ant.mesh = [m] → m.dest = .sfu tile g 5 ps lc →
    (s.ctxValid tile (s.phys tile lc) m.flit.ctx = false →
      ∃ t, exec (.kvLoad tile g) s = .next t ∧ t.rd (Reg.ctxrStale m.flit.ctx) = satInc (s.rd (Reg.ctxrStale m.flit.ctx)) ∧
        Raised s t Code.staleFlit ∧ t.ant.mesh = [] ∧ t.ant.kv = s.ant.kv ∧
        Frame s t (Reg.ctxrStale m.flit.ctx :: raiseRegs Code.staleFlit) (.ant :: raiseParts)) ∧
    (s.ctxValid tile (s.phys tile lc) m.flit.ctx = true → s.bankOf tile g m.flit.ctx m.flit.tag = none →
      b = ⟨tile, g, m.flit.ctx, m.flit.tag.toNat % 2, m.flit.tag, m.flit.data.toNat % 512, [], m.flit.poison, 0, !m.flit.last, false, m.flit.fires⟩ →
      (fnFits 5 (pset (s.psetOf tile g m.flit.ctx ps)).fn = true →
        ∃ t, exec (.kvLoad tile g) s = .next t ∧ t.rd (Reg.sfu tile g) = s.rd (Reg.sfu tile g) + 1 ∧ Frame s t [Reg.sfu tile g] [.ant] ∧
          t.ant = { s.ant with mesh := [], kv := s.ant.kv ++ [b] }) ∧
      (fnFits 5 (pset (s.psetOf tile g m.flit.ctx ps)).fn = false →
        ∃ t, exec (.kvLoad tile g) s = .next t ∧ t.rd (Reg.sfu tile g) = s.rd (Reg.sfu tile g) + 1 ∧
          t.rd (Reg.sfu tile g + 0xC) = satInc (s.rd (Reg.sfu tile g + 0xC)) ∧ Raised s t Code.sfuDesc ∧
          t.ant.kv = s.ant.kv ++ [{ b with poison := true }] ∧
          Frame s t ([Reg.sfu tile g, Reg.sfu tile g + 0xC] ++ raiseRegs Code.sfuDesc) (.ant :: raiseParts))) ∧
    (s.ctxValid tile (s.phys tile lc) m.flit.ctx = true → s.bankOf tile g m.flit.ctx m.flit.tag = some b → s.tod.fab < b.readUntil →
      (b.delayed = false →
        ∃ t, exec (.kvLoad tile g) s = .next t ∧ t.rd (Reg.sfu tile g + 4) = satInc (s.rd (Reg.sfu tile g + 4)) ∧
          t.ant.mesh = s.ant.mesh ∧ Frame s t [Reg.sfu tile g + 4] [.ant]) ∧
      (b.delayed = true → ∃ t, exec (.kvLoad tile g) s = .next t ∧ Frame s t [] []))) ∧
  ∀ (s : State) (tile cyc : Nat), s.hubOn = true → s.ctx.length = 4 → tile < 16 →
    ∀ e ∈ ([(Instr.scarabStep tile cyc, (s.atCycle cyc).blockTimers tile, fun n => n == tile),
            (Instr.scarabHubStep cyc, s.atCycle cyc, fun _ => true)] : List (Instr × State × (Nat → Bool))), ∀ u p, u = e.2.1 → p = e.2.2 →
    (u.scarabRings p = [] → ∃ t, exec e.1 s = .next t ∧ t.scarab = u.scarab ∧ Frame s t [] [.tod, .scarab]) ∧
    ∀ (ring : List WaitArc) (n : Nat), u.scarabRings p = [ring] → (∀ a ∈ ring, nodeTile a.src < 16 ∧ u.blockedLong a.src = true) →
      n = (ring.map (·.src)).foldl min ((ring.map (·.src)).headD 0) →
      ((∃ a ∈ ring, u.ctxTimed (a.src % 4) = true) →
        ∃ t, exec e.1 s = .next t ∧ Raised s t Code.scarabTimed ∧
          t.rd (Reg.scarab (nodeTile n) + 0x18) = satInc (s.rd (Reg.scarab (nodeTile n) + 0x18)) ∧
          (∀ a ∈ ring, (t.cx (a.src % 4)).faultAt = some s.nextStrobe) ∧
          Frame s t ((Reg.scarab (nodeTile n) + 0x18) :: raiseRegs Code.scarabTimed) ([.tod, .ctx, .scarab] ++ raiseParts)) ∧
      ((∀ a ∈ ring, u.ctxTimed (a.src % 4) = false) →
        ((∀ a ∈ ring, a.fulls = []) →
          ∃ t, exec e.1 s = .next t ∧ Raised s t Code.scarabStarved ∧ (∀ a ∈ ring, (t.cx (a.src % 4)).faultAt = some s.nextStrobe) ∧
            Frame s t ((Reg.scarab (nodeTile n) + 0x18) :: raiseRegs Code.scarabStarved) ([.tod, .ctx, .scarab] ++ raiseParts)) ∧
        (∀ q a b k lo size, (∃ x ∈ ring, q ∈ x.fulls) → (∀ x ∈ ring, ∀ y ∈ x.fulls, y ≤ q) → a = nodeTile (q / 8) → b = nodeCore (q / 8) →
          k = q / 8 % 4 → a < 16 → lo = 0x100000000 + (u.rd (Reg.scarab a + 0x4)).toNat → size = u.rdF (Reg.scarab a + 0x8) 0 24 →
          u.qHeld a b k (q % 8) + u.rdF (Reg.scarab a + 0xC) 0 24 ≤ size → u.qHeld a b k (q % 8) ≤ (u.spillFree a).length →
          ∃ t, exec e.1 s = .next t ∧ t.qHeld a b k (q % 8) = 0 ∧
            (t.scarab.spilled.map (·.q)) = (s.scarab.spilled.map (·.q)) ++ List.replicate (u.qHeld a b k (q % 8)) q ∧
            (t.scarab.spilled.map (·.addr)) = (s.scarab.spilled.map (·.addr)) ++ (u.spillFree a).take (u.qHeld a b k (q % 8)) ∧
            t.rdF (Reg.scarab a + 0xC) 0 24 = s.rdF (Reg.scarab a + 0xC) 0 24 + u.qHeld a b k (q % 8) ∧ Raised s t Code.scarabSpill ∧
            (∀ x, x < lo ∨ lo + 32 * size ≤ x → t.rdB x = s.rdB x) ∧
            SameRegs s t (replyRegs ++ [Reg.qstat a b k (q % 8), Reg.scarab a + 0xC, Reg.scarab a + 0x10, Reg.scarab a + 0x14] ++
              raiseRegs Code.scarabSpill) ∧
            ∀ x, x ∉ [Part.tod, .ant, .scarab, .poison] ++ raiseParts → x.Same s t))

/-- A row retires or takes back a core step by step; thresholds start it, aborts retry it, and self-tests report (R90, R91, R92, R93, R94,
R407, Table 3.9, Table 3.10, Table 3.11, log 30). The conclusion for each of coreRetire, coreReturn, selftest, retirementThreshold,
substCopy, substQuietTick, substSwitch, canaryFailure, selftestDone, on conditions on the state and the operands alone, is that exec
answers a next state, with its own effect. -/
def Obligations.SubstitutionMovesRows : Prop :=
  (∀ (s : State) (tile c : Nat), coreOk tile c = true → s.hubOn = true →
    (s.substFrozen tile = false → s.rowBusy tile (c / 17) = false → s.retiredPos tile (c / 17) = 31 → s.substRow tile (c / 17) = none →
      0 < s.rdF (Reg.substPolicy tile) 16 8 →
      s.rdF (Reg.substPolicy tile) 16 8 < s.inWindow tile (SMap.get [] s.subst.resWin (kc tile c)) →
      s.shiftFrom tile (c / 17) ≤ 16 → s.shiftFrom tile (c / 17) ≠ c % 17 →
      ∃ t, exec (.retirementThreshold tile c) s = .next t ∧ t.rowBusy tile (c / 17) = true ∧
        t.subst = { s.subst with rows := s.subst.rows ++ [⟨tile, c / 17, c % 17,
          (if s.shiftFrom tile (c / 17) < c % 17 then s.shiftFrom tile (c / 17) else s.shiftFrom tile (c / 17) - 1), 0, 0, 0,
          decide (s.shiftFrom tile (c / 17) < c % 17), false⟩] } ∧
        Frame s t [Reg.rowMap tile (c / 17)] [.subst]) ∧
    ∃ t, exec (.canaryFailure tile c) s = .next t ∧ t.rd (Reg.coreCanary tile c) = satInc (s.rd (Reg.coreCanary tile c)) ∧
      SMap.get [] t.subst.canWin (kc tile c) =
        SMap.get [] s.subst.canWin (kc tile c) ++ (if bit (s.rd (Reg.substPolicy tile)) 30 then [s.tickId] else []) ∧
      Frame s t [Reg.coreCanary tile c] [.subst]) ∧
  (∀ (s : State) (h : Hdr) (tile r pos : Nat), posOk tile r pos = true → s.rowBusy tile r = false → s.substRow tile r = none →
    s.host.async.filter (ofRow tile r) = [] →
    (s.ready h Op.coreRetire = true →
      (s.substFrozen tile = false → s.retiredPos tile r = 31 → s.shiftFrom tile r ≤ 16 → s.shiftFrom tile r ≠ pos →
        ∃ t, exec (.coreRetire h tile r pos) s = .next t ∧ Taken s t h Op.coreRetire (rowKey tile r) 0 ∧ t.rowBusy tile r = true ∧
          t.subst = { s.subst with rows := s.subst.rows ++ [⟨tile, r, pos,
            (if s.shiftFrom tile r < pos then s.shiftFrom tile r else s.shiftFrom tile r - 1), 0, 0, 0, decide (s.shiftFrom tile r < pos),
            false⟩] } ∧ Frame s t [Reg.rowMap tile r] [.subst]) ∧
      (s.substFrozen tile = false → s.retiredPos tile r = 31 → s.shiftFrom tile r = pos →
        ∃ t, exec (.coreRetire h tile r pos) s = .next t ∧ t.rowBusy tile r = false ∧ t.substRow tile r = none ∧ t.retiredPos tile r = pos ∧
          Raised s t Code.coreRetired) ∧
      (s.substFrozen tile = false → s.retiredPos tile r ≠ 31 →
        ∃ t, exec (.coreRetire h tile r pos) s = .next t ∧ Raised s t Code.substExhausted ∧ Frame s t (raiseRegs Code.substExhausted) raiseParts) ∧
      (s.substFrozen tile = true →
        ∃ t, exec (.coreRetire h tile r pos) s = .next t ∧ Replied s t h Op.coreRetire Status.valueRange [0] ∧ Frame s t [] [])) ∧
    (s.ready h Op.coreReturn = true → s.retiredPos tile r = pos →
      ((tile, r) ∉ s.subst.fused →
        ∃ t, exec (.coreReturn h tile r pos) s = .next t ∧ Taken s t h Op.coreReturn (rowKey tile r) 0 ∧ t.rowBusy tile r = true ∧
          t.subst = { s.subst with rows := s.subst.rows ++ [⟨tile, r, pos, 0, 3, 0, 0, true, true⟩] } ∧ Frame s t [Reg.rowMap tile r] [.subst]) ∧
      ((tile, r) ∈ s.subst.fused →
        ∃ t, exec (.coreReturn h tile r pos) s = .next t ∧ Replied s t h Op.coreReturn Status.fused [0xFFFF0000] ∧ Frame s t [] []))) ∧
  (∀ (s : State) (h : Hdr) (mask : Nat), s.ready h Op.selftest = true → mask < 2 ^ 16 → s.shedStage = 0 →
    (∀ i, i < 16 → nbit mask i = true → s.tileUnloaded i = true) →
    ∃ t, exec (.selftest h mask) s = .next t ∧ Taken s t h Op.selftest mask 0 ∧ Frame s t [] []) ∧
  (∀ (s : State) (a : Async) (pass : List Nat), s.hubOn = true → s.openOf Op.selftest = [a] →
    ∃ t, exec (.selftestDone none pass) s = .next t ∧
      Completed s t a Status.ok ((List.range (popcount a.mask 16)).map (fun i => BitVec.ofNat 32 (pass.getD i 0))) ∧ Frame s t [] []) ∧
  ∀ (s : State) (tile r : Nat) (x : SubstRow), s.hubOn = true → tile < 16 → r < 32 → s.substRow tile r = some x →
    (x.phase = 3 → x.returning = true → s.shiftFrom tile r < 16 → ∀ n rest, n % 2 = 1 →
      ∃ t, exec (.selftestDone (some (tile, r)) (n :: rest)) s = .next t ∧
        t.substRow tile r = some { x with phase := 0, back := true, cur := s.shiftFrom tile r } ∧ Frame s t [] [.subst]) ∧
    (x.phase = 3 → ∀ a, s.host.async.filter (ofRow tile r) = [a] →
      ∃ t, exec (.selftestDone (some (tile, r)) [0]) s = .next t ∧ t.substRow tile r = none ∧ t.rowBusy tile r = false ∧
        Completed s t a Status.selftestFail [BitVec.ofNat 32 (0xFFFF0000 + tile)] ∧ Frame s t [Reg.rowMap tile r] [.subst]) ∧
    (x.phase = 0 → nbit s.pwr.asleep 7 = false →
      ∃ t q, exec (.substCopy tile r) s = .next t ∧ t.substRow tile r = some { x with phase := 1, quiet := q } ∧
        (s.loader.images = [] → q = s.quietTick tile x.lcore ∧ Frame s t [] [.ctx, .subst])) ∧
    (x.phase = 1 → s.tickId = x.quiet →
      ((∀ k, k < 4 → s.ctxTimed k = true → (tile, x.lcore) ∉ (s.cx k).cores) →
        ∃ t, exec (.substQuietTick tile r) s = .next t ∧ Frame s t [] [.subst] ∧
          t.substRow tile r = some { x with phase := if (s.firingOf tile (s.phys tile x.lcore)).isSome then 0 else 2 }) ∧
      ((∃ k q, k < 4 ∧ q < 8 ∧ s.ctxTimed k = true ∧ (tile, x.lcore) ∈ (s.cx k).cores ∧ 0 < s.qCount tile (s.phys tile x.lcore) k q) → x.tries < 4 →
        ∃ t, exec (.substQuietTick tile r) s = .next t ∧ t.substRow tile r = some { x with phase := 0, tries := x.tries + 1 } ∧
          Raised s t Code.substAbort ∧ Frame s t (raiseRegs Code.substAbort) (.subst :: raiseParts))) ∧
    (x.phase = 2 → s.tickId = x.quiet + 1 → x.returning = false → x.back = false → x.cur < 16 →
      s.firingOf tile (s.phys tile x.lcore) = none →
      (x.cur ≠ x.pos →
        ∃ t, exec (.substSwitch tile r) s = .next t ∧ t.substRow tile r = some { x with cur := x.cur - 1, phase := 0, tries := 0 } ∧
          t.shiftFrom tile r = x.cur ∧ t.phys tile (16 * r + x.cur) = rowCore r (x.cur + 1) ∧ t.rowBusy tile r = s.rowBusy tile r ∧
          (∀ a, a < Reg.coreBase tile x.target ∨ Reg.coreBase tile x.target + 0x42000 ≤ a → t.rdB a = s.rdB a) ∧
          (∀ p, p ∉ [Part.poison, Part.ant, Part.subst, Part.scarab] → p.Same s t)) ∧
      (x.cur = x.pos → x.pos < 31 →
        ∃ t, exec (.substSwitch tile r) s = .next t ∧ t.substRow tile r = none ∧ t.rowBusy tile r = false ∧ t.retiredPos tile r = x.pos ∧
          t.shiftFrom tile r = x.pos ∧ Raised s t Code.coreRetired ∧
          (∀ a, a < Reg.coreBase tile x.target ∨ Reg.coreBase tile x.target + 0x42000 ≤ a → t.rdB a = s.rdB a)))

/-- An indexed key at or beyond ENTRIES: status 0b100, VALUE 0, counted in PR_RANGE, no access, no fault (R225). The conclusion for each of
patRequest, on conditions on the state and the operands alone, is that exec answers a next state, with its own effect. -/
def Obligations.IndexedKeyOutOfRange : Prop :=
  (∀ (l : Looking) (r n gen die : Nat) (event : W32) (ecc : Findings) (key : Nat), r < 256 → l.st.ptMode n = 1 →
    l.st.ptEntries n ≤ key % 2 ^ 23 →
    ∃ u : State, l.key r n gen die event ecc (true, key) = { st := u, slots := l.slots, res := l.res ++ [⟨4, 0, false⟩] } ∧
      u.rd (Reg.pr r + 0xC) = satInc (l.st.rd (Reg.pr r + 0xC)) ∧ (∀ a, a ≠ Reg.pr r + 0xC → u.rd a = l.st.rd a) ∧ SameMem l.st u ∧
      u.host = l.st.host ∧ ∀ p, p ≠ Part.banks → p.Same l.st u) ∧
  ∀ (s : State) (i cyc : Nat) (ecc : Findings) (q : PatReq) (r keys n : Nat) (ks : List (Bool × Nat)), s.hubOn = true →
    s.banks.patReqs[i]? = some q → s.lookupOf q = some r → r < 256 → bit (s.rd (Reg.pr r)) 31 = true →
    keys = fld (s.rd (Reg.pr r)) 19 6 + 1 → n = fld (s.rd (Reg.pr r)) 25 6 → s.ptMode n = 1 → (keys + 1) / 2 ≤ q.flits.length →
    ks = (keysOf (q.flits.take ((keys + 1) / 2))).take keys →
    ∃ t x, exec (.patRequest i ecc cyc) s = .next t ∧ t.banks.patRes = s.banks.patRes ++ [x] ∧ x.flits.length = (keys + 1) / 2 ∧
      (∀ (j k : Nat), ks[j]? = some (true, k) → s.ptEntries n ≤ k % 2 ^ 23 →
        ∃ f, x.flits[j / 2]? = some f ∧ bits f.1.toNat (128 + 3 * (j % 2)) 3 = 4 ∧ bits f.1.toNat (64 * (j % 2)) 64 = 0) ∧
      (t.rd (Reg.pr r + 0xC)).toNat =
        satAdd 32 (s.rd (Reg.pr r + 0xC)).toNat (ks.filter (fun e => e.1 && decide (s.ptEntries n ≤ e.2 % 2 ^ 23))).length

/-- A lookup answers by its table and slots; pattern commands read, write, insert, delete, switch, copy and count (R214, R217, R218, R221,
R222, R223, R224, R227, R228, R229, R230, R231). The conclusion for each of patRead, patWrite, patInsert, patDelete, patGenSwitch,
patSync, patStats, patRequest, patResult, patGenFlip, patSyncDone, on conditions on the state and the operands alone, is that exec
answers a next state, with its own effect. -/
def Obligations.LookupsAnswerAndTablesChange : Prop :=
  (∀ (s : State) (i cyc : Nat) (q : PatReq) (f : BitVec 256) (r n g key b0 b1 : Nat) (own : Nat → Bool), s.hubOn = true →
    s.banks.patReqs[i]? = some q → s.lookupOf q = some r → r < 256 → bit (s.rd (Reg.pr r)) 31 = true → fld (s.rd (Reg.pr r)) 19 6 = 0 →
    q.flits = [f] → q.poison = false → nbit f.toNat 192 = true → key = bits f.toNat 0 96 → n = fld (s.rd (Reg.pr r)) 25 6 →
    s.ptMode n = 0 ∨ s.ptMode n = 2 → g = s.genOf n (s.eventOf q.tag) →
    b0 = s.patBank n 0 (s.bucket n 0 key) → b1 = s.patBank n 1 (s.bucket n 1 key) → b0 ≠ b1 →
    own = (fun b => s.banks.patSlots.any (fun e => e.2.route == r && decide (e.2.cycle < fld (s.rd (Reg.pr r)) 7 8) && e.2.bank == b)) →
    (own b0 = true → own b1 = true →
      (∀ a ∈ s.waysOf n g key, s.isPoisonAt a = false ∧ (bits (s.rdLE a 32) 176 3 = 0 ∨ bits (s.rdLE a 32) 176 3 = 7)) →
      ∃ t x w, exec (.patRequest i [] cyc) s = .next t ∧ t.banks.patRes = s.banks.patRes ++ [x] ∧ x.flits = [(w, false)] ∧
        x.at' = s.tod.tickFab + cyc + s.patDelay (fld (s.rd (Reg.pr r)) 7 8) ∧ t.banks.patReqs = s.banks.patReqs.eraseIdx i ∧ t.rd (Reg.pr r + 4) = s.rd (Reg.pr r + 4) + 1 ∧ Frame s t [Reg.pr r + 4] [.banks] ∧
        (∀ a, s.findKey n g key = some a →
          (s.ptMode n = 0 → bits w.toNat 128 3 = 1 ∧ bits w.toNat 0 64 = (s.entValue a).toNat ∧ bits w.toNat 131 4 = 2) ∧
          (s.ptMode n = 2 → fld (s.rd (Reg.pr r)) 15 4 = 0 →
            bits w.toNat 0 64 = (s.entValue a).toNat ∧ bits w.toNat 128 8 = 1 ∧ bits w.toNat 136 8 = 1)) ∧
        (s.findKey n g key = none →
          (s.ptMode n = 0 → bits w.toNat 128 3 = 0 ∧ bits w.toNat 0 64 = 0 ∧ bits w.toNat 131 4 = 2) ∧
          (s.ptMode n = 2 → bits w.toNat 0 64 = 0 ∧ bits w.toNat 128 8 = 1 ∧ bits w.toNat 136 8 = 0))) ∧
    (own b0 = false ∨ own b1 = false →
      ∃ t x w, exec (.patRequest i [] cyc) s = .next t ∧ t.banks.patRes = s.banks.patRes ++ [x] ∧ x.flits = [(w, false)] ∧
        bits w.toNat 0 64 = 0 ∧ (s.ptMode n = 0 → bits w.toNat 128 3 = 3 ∧ bits w.toNat 134 1 = 1) ∧
        (s.ptMode n = 2 → bits w.toNat 128 8 = 0 ∧ bits w.toNat 144 1 = 1) ∧
        t.rd (Reg.pr r + 8) = satInc (s.rd (Reg.pr r + 8)) ∧ Raised s t Code.patTruncated ∧
        Frame s t ((Reg.pr r + 8) :: raiseRegs Code.patTruncated) (.banks :: raiseParts))) ∧
  (∀ (s : State) (i c : Nat) (p : PatRes), s.hubOn = true → s.banks.patRes[i]? = some p → c = s.phys p.tile p.lcore → p.tile < 16 → c < 544 →
    p.ctx < 4 → p.dq < 8 → s.ctxValid p.tile c p.ctx = true → s.qEn p.tile c p.ctx p.dq = true → s.qGather p.tile c p.ctx p.dq = false →
    s.qDepth p.tile c p.ctx p.dq ≤ 64 → s.rdF (Reg.qstat p.tile c p.ctx p.dq) 8 6 < s.qDepth p.tile c p.ctx p.dq →
    (s.qHeld p.tile c p.ctx p.dq + p.flits.length ≤ s.qDepth p.tile c p.ctx p.dq →
      ∃ t, exec (.patResult i) s = .next t ∧ t.banks = { s.banks with patRes := s.banks.patRes.eraseIdx i } ∧
        t.qHeld p.tile c p.ctx p.dq = s.qHeld p.tile c p.ctx p.dq + p.flits.length ∧
        (∀ (j : Nat) (f : BitVec 256 × Bool), p.flits[j]? = some f →
          t.rdLE (s.slotAddr p.tile c p.ctx p.dq ((s.rdF (Reg.qstat p.tile c p.ctx p.dq) 8 6 + j) % s.qDepth p.tile c p.ctx p.dq)) 32 = f.1.toNat) ∧
        SameRegs s t (replyRegs ++ [Reg.qstat p.tile c p.ctx p.dq]) ∧
        (∀ b, b < s.slotAddr p.tile c p.ctx p.dq 0 ∨ s.slotAddr p.tile c p.ctx p.dq (s.qDepth p.tile c p.ctx p.dq) ≤ b → t.rdB b = s.rdB b) ∧
        t.tod.fab = max s.tod.fab p.at' ∧ (∀ z, z ∉ [Part.ant, Part.poison, Part.banks, Part.tod] → z.Same s t)) ∧
    (s.qHeld p.tile c p.ctx p.dq = s.qDepth p.tile c p.ctx p.dq → p.flits ≠ [] →
      ∃ t, exec (.patResult i) s = .next t ∧ t.banks = s.banks ∧ Frame s t [] [.tod])) ∧
  (∀ (s : State) (n : Nat), n < 64 → s.hubOn = true → s.ptEn n = true → s.ptPend n = true →
    (tickReached s.tickId (s.ptSwitch n + 255) = true →
      ∃ t, exec (.patGenFlip n) s = .next t ∧ t.ptActive n = 1 - s.ptActive n ∧ t.ptPend n = false ∧ t.ptMode n = s.ptMode n ∧
        t.ptDbuf n = s.ptDbuf n ∧ Frame s t [Reg.pt n] []) ∧
    (tickReached s.tickId (s.ptSwitch n + 255) = false → ∃ t, exec (.patGenFlip n) s = .next t ∧ Frame s t [] [])) ∧
  (∀ (s : State) (n : Nat) (a : Async), n < 64 → s.hubOn = true → s.host.async = [a] → a.opcode = Op.patSync → a.mask = n →
    (s.tablePlaces n 0 ++ s.tablePlaces n 1).Nodup →
    ∃ t, exec (.patSyncDone n) s = .next t ∧ Completed s t a Status.ok [] ∧ t.host.async = [] ∧ SameRegs s t replyRegs ∧
      (∀ (j x y : Nat), (s.tablePlaces n (s.ptActive n))[j]? = some x → (s.tablePlaces n (1 - s.ptActive n))[j]? = some y →
        t.rdLE y 32 = s.rdLE x 32) ∧
      (∀ b, (∀ y ∈ s.tablePlaces n (1 - s.ptActive n), b < y ∨ y + 32 ≤ b) → t.rdB b = s.rdB b) ∧
      (∀ z, z ≠ Part.poison → z.Same s t)) ∧
  ∀ (s : State) (h : Hdr) (n : Nat), s.ptEn n = true →
    (∀ (gen : Bool) (key : BitVec 96) (count : Nat), s.ready h Op.patRead = true → gen = false ∨ s.ptDbuf n = true → 1 ≤ count → count ≤ 64 →
      (s.ptMode n = 1 → key.toNat + count ≤ s.ptEntries n →
        (∀ i x, i < count → x = bits (s.rdLE (s.indexAddr n (if gen then 1 else 0) (key.toNat + i)) 32) 176 3 → x = 0 ∨ x = 7) →
        ∃ t, exec (.patRead h n gen key count []) s = .next t ∧ Answered s t h Op.patRead
          ((List.range count).flatMap (fun i => wordsLE 8 (s.patEntry (s.indexAddr n (if gen then 1 else 0) (key.toNat + i))))) ∧ Frame s t [] []) ∧
      (s.ptMode n ≠ 1 → count = 1 →
        (∀ a, s.findKey n (if gen then 1 else 0) key.toNat = some a → bits (s.rdLE a 32) 176 3 = 7 →
          ∃ t, exec (.patRead h n gen key count []) s = .next t ∧ Answered s t h Op.patRead (wordsLE 8 (s.patEntry a)) ∧ Frame s t [] []))) ∧
    (s.patBusy n = false →
      (∀ (first g : Nat) (vals : List W64), s.ready h Op.patWrite = true → s.ptMode n = 1 → 1 ≤ vals.length → vals.length ≤ 128 →
        first + vals.length ≤ s.ptEntries n → g = s.ptWritable n →
        s.rdF (Reg.pt n + 4) 26 6 + 2 ^ s.rdF (Reg.pt n + 4) 23 3 ≤ 64 →
        4 * (s.rdF (Reg.pt n + 4) 9 14 + s.genRows n g) + (s.ptEntries n - 1) / 2 ^ s.rdF (Reg.pt n + 4) 23 3 < 65536 →
        ∃ t v, exec (.patWrite h n first vals) s = .next t ∧ Answered s t h Op.patWrite [v] ∧ tickReached v s.tickId = true ∧ v ≠ s.tickId ∧
          (∀ (i : Nat) (x : W64), vals[i]? = some x → t.entValue (s.indexAddr n g (first + i)) = x ∧ t.entKey (s.indexAddr n g (first + i)) = 0) ∧
          SameRegs s t replyRegs ∧
          (∀ b, (∀ i, i < vals.length → b < s.indexAddr n g (first + i) ∨ s.indexAddr n g (first + i) + 32 ≤ b) → t.rdB b = s.rdB b) ∧
          (∀ z, z ∉ [Part.poison, Part.free] → z.Same s t)) ∧
      (s.ptMode n = 0 ∨ s.ptMode n = 2 →
        (∀ (key : BitVec 96) (val : W64) (a g : Nat), s.ready h Op.patInsert = true → g = s.ptWritable n →
          s.findKey n g key.toNat = some a ∨ (s.findKey n g key.toNat = none ∧ (s.freeWay n g 0 key.toNat = some a ∨
            (s.freeWay n g 0 key.toNat = none ∧ s.freeWay n g 1 key.toNat = some a))) →
          s.ptDbuf n = true ∨ s.needsKick n 0 key.toNat = false →
          ∃ t v, exec (.patInsert h n [(key, val)]) s = .next t ∧ Answered s t h Op.patInsert [v] ∧ tickReached v s.tickId = true ∧ v ≠ s.tickId ∧ t.entKey a = key.toNat ∧ t.entValue a = val ∧
            t.entValid a = true ∧ SameRegs s t replyRegs ∧ (∀ b, b < a ∨ a + 32 ≤ b → t.rdB b = s.rdB b) ∧
            (∀ z, z ∉ [Part.poison, Part.free] → z.Same s t)) ∧
        (∀ kvs : List (BitVec 96 × W64), s.ready h Op.patInsert = true → 1 ≤ kvs.length → kvs.length ≤ 64 →
          (s.ptDbuf n = false → s.batchKicks n 0 kvs = true →
            ∃ t, exec (.patInsert h n kvs) s = .next t ∧ Replied s t h Op.patInsert Status.patNeedsGen [BitVec.ofNat 32 (0xFFFF0000 + n % 65536)] ∧
              Frame s t [] []) ∧
          (s.ptDbuf n = true ∨ s.batchKicks n 0 kvs = false → s.placeAll n (s.ptWritable n) kvs = none →
            ∃ t, exec (.patInsert h n kvs) s = .next t ∧ Replied s t h Op.patInsert Status.patFull [BitVec.ofNat 32 (0xFFFF0000 + n % 65536)] ∧
              Frame s t [] [])) ∧
        (s.ready h Op.patDelete = true →
          (∀ (key : BitVec 96) (a : Nat), s.findKey n (s.ptWritable n) key.toNat = some a →
            ∃ t v, exec (.patDelete h n [key]) s = .next t ∧ Answered s t h Op.patDelete [v, 0] ∧ tickReached v s.tickId = true ∧ v ≠ s.tickId ∧ t.entValid a = false ∧ SameRegs s t replyRegs ∧
              (∀ b, b < a ∨ a + 32 ≤ b → t.rdB b = s.rdB b) ∧ (∀ z, z ∉ [Part.poison, Part.free] → z.Same s t)) ∧
          ∀ keys : List (BitVec 96), 1 ≤ keys.length → keys.length ≤ 64 → (∀ k ∈ keys, s.findKey n (s.ptWritable n) k.toNat = none) →
            ∃ t v, exec (.patDelete h n keys) s = .next t ∧ Answered s t h Op.patDelete [v, BitVec.ofNat 32 keys.length] ∧ tickReached v s.tickId = true ∧ v ≠ s.tickId ∧ Frame s t [] [.free])) ∧
      (s.ptDbuf n = true →
        (∀ d : W32, s.ready h Op.patGenSwitch = true → s.strobeOk d = true →
          ∃ t, exec (.patGenSwitch h n d) s = .next t ∧ Answered s t h Op.patGenSwitch [s.strobeOf d] ∧ t.ptPend n = true ∧
            t.ptSwitch n = s.strobeOf d ∧ (∀ e, t.genOf n e = if tickReached e (s.strobeOf d) then 1 - s.ptActive n else s.ptActive n) ∧
            Frame s t [Reg.pt n, Reg.pt n + 0x1C] []) ∧
        (s.ready h Op.patSync = true →
          ∃ t, exec (.patSync h n) s = .next t ∧ Taken s t h Op.patSync n 0 ∧ t.patBusy n = true ∧ Frame s t [] []))) ∧
    (s.patBusy n = true → s.ptDbuf n = true → ∀ d : W32, s.ready h Op.patGenSwitch = true →
      ∃ t, exec (.patGenSwitch h n d) s = .next t ∧ Replied s t h Op.patGenSwitch Status.patBusy [BitVec.ofNat 32 (0xFFFF0000 + n % 65536)] ∧
        Frame s t [] []) ∧
    ∀ clear : Bool, s.ready h Op.patStats = true →
      ∃ t, exec (.patStats h n clear) s = .next t ∧
        Answered s t h Op.patStats ((List.range 4).map (fun i => BitVec.ofNat 32 (SMap.get 0 s.banks.patStats (4 * n + i)))) ∧
        (clear = true → ∀ i, i < 4 → SMap.get 0 t.banks.patStats (4 * n + i) = 0) ∧ Frame s t [] (if clear then [.banks] else [])

/-- TWIN_CONFIG sets up the twin link, attestation decides who pairs, ADMIT_PARTNER admits, TWIN_DISABLE ends twin mode (R410, R413, R414,
R423, R425, R426, Table 16.1, Table 16.3, Table 16.5, log 34). The conclusion for each of twinConfig, admitPartner, twinStatus,
twinDisable, twinAttestation, attestAnswer, attestTimeout, attestRetry, on conditions on the state and the operands alone, is that exec
answers a next state, with its own effect. -/
def Obligations.TwinsLinkAttestAndPair : Prop :=
  (∀ (s : State) (h : Hdr) (role relay tie : Bool), s.ready h Op.twinConfig = true → s.twinEn = false →
    (40 ≤ s.cTick → (relay = true → bit (s.rd Reg.tickCfg) 31 = false) → bit (s.rd (Reg.grpCfg 63)) 31 = false →
      s.outboundGrp 63 = false → s.inboundGrp 63 = false → (∀ d, d < 64 → bit (s.rd (Reg.meshRoute d)) 31 = true → s.rdF (Reg.meshRoute d) 0 6 ≠ 63) →
      (∀ i, i < 8 → s.laneGrp (136 + i) = none ∧ s.laneMode (136 + i) ≠ 3 ∧ s.inGroup (136 + i) = false) →
      ∃ t, exec (.twinConfig h role relay tie) s = .next t ∧ Answered s t h Op.twinConfig [] ∧ t.twinState = 1 ∧ t.twinEn = true ∧
        t.isStandby = role ∧ bit (t.rd Reg.twinCfg) 29 = relay ∧ bit (t.rd Reg.twinCfg) 28 = tie ∧ t.twinActive = s.twinActive ∧
        (∀ i, i < 8 → t.laneMode (136 + i) = 2 ∧ t.laneRate (136 + i) = 3 ∧ t.laneGrp (136 + i) = some 63 ∧ t.lanePos (136 + i) = i ∧
          bit (t.rd (Reg.laneCfg (136 + i))) 24 = true ∧ t.rdF (Reg.laneCfg (136 + i)) 16 8 = 136 + i) ∧
        t.grpLanes 63 = (List.range 8).map (136 + ·) ∧ t.grpParity 63 = true ∧ t.declSkew 63 = 4 ∧ t.grpState 63 = 0 ∧
        (relay = true → role = true → bit (t.rd Reg.busCfg) 31 = false) ∧
        Frame s t ([Reg.twinCfg, Reg.twinStat, Reg.fastCtl 63, Reg.grpCfg 63, Reg.grpLanesLo 63, Reg.grpLanesHi 63, Reg.grpStat 63] ++
          (if relay && role then [Reg.busCfg] else []) ++
          (List.range 8).flatMap (fun i => [Reg.laneCfg (136 + i), Reg.laneState (136 + i), Reg.prbsStat (136 + i), Reg.injCount (136 + i)]))
          [.link, .twin]) ∧
    (s.cTick < 40 ∨ (relay = true ∧ bit (s.rd Reg.tickCfg) 31 = true) ∨ (∃ i, i < 8 ∧ s.laneGrp (136 + i) ≠ none) ∨
        s.outboundGrp 63 = true ∨ s.inboundGrp 63 = true ∨ (∃ d, d < 64 ∧ bit (s.rd (Reg.meshRoute d)) 31 = true ∧ s.rdF (Reg.meshRoute d) 0 6 = 63) →
      ∃ t, exec (.twinConfig h role relay tie) s = .next t ∧ Replied s t h Op.twinConfig Status.valueRange [0] ∧ Frame s t [] [])) ∧
  (∀ (s : State) (h : Hdr) (fp : BitVec 384), s.ready h Op.admitPartner = true → s.openOf Op.admitPartner = [] →
    (s.twinState = 3 → s.twin.partner.map (·.1) = some fp →
      ∃ t u, exec (.admitPartner h fp) s = .next t ∧ Taken s u h Op.admitPartner 0 0 ∧
        Completed u t ⟨h.transport, h.tag, Op.admitPartner, 0, 0⟩ Status.ok [] ∧ t.host.async = s.host.async ∧ t.twin.record = some fp ∧
        t.twinState = 4 ∧ t.twinActive = (if s.isStandby then s.twin.placed && s.twinActive else !s.twin.partnerActive) ∧
        Frame s t [Reg.twinStat, Reg.logSeq] [.owners, .twin, .log]) ∧
    (s.twinState ≠ 3 ∨ s.twin.partner.map (·.1) ≠ some fp →
      ∃ t u, exec (.admitPartner h fp) s = .next t ∧ Taken s u h Op.admitPartner 0 0 ∧
        Completed u t ⟨h.transport, h.tag, Op.admitPartner, 0, 0⟩ Status.partnerUnknown [0xFFFF0000] ∧ t.host.async = s.host.async ∧
        Frame s t [] [.owners])) ∧
  (∀ (s : State) (h : Hdr) (clear : Bool), s.ready h Op.twinStatus = true →
    ∃ t f w u, exec (.twinStatus h clear) s = .next t ∧ (f, w, u) = s.twin.partner.getD (0, 0, 0) ∧
      Answered s t h Op.twinStatus ((List.range 10).map (fun i => t.rd (Reg.twinCfg + 4 * i)) ++ (fpWords f ++ fpWords w ++ fpWords u)) ∧
      t.twinFaulted = (!clear && s.twinFaulted) ∧ t.twinState = s.twinState ∧ Frame s t (if clear then [Reg.twinStat] else []) []) ∧
  (∀ (s : State) (h : Hdr), s.ready h Op.twinDisable = true → s.twinEn = true →
    (∃ t, exec (.twinDisable h) s = .next t ∧ Answered s t h Op.twinDisable [] ∧ t.rd Reg.twinCfg = 0 ∧ t.twinState = 0 ∧ t.twinActive = true ∧
      t.grpLanes 63 = [] ∧ ∀ i, i < 8 → t.laneMode (136 + i) = 0 ∧ t.laneRate (136 + i) = 0) ∧
    (s.grpLanes 63 = (List.range 8).map (136 + ·) → (∀ i, i < 8 → s.inGroup (136 + i) = false) →
      ∃ t, exec (.twinDisable h) s = .next t ∧ Frame s t
        ([Reg.twinCfg, Reg.twinStat, Reg.fastCtl 63, Reg.grpCfg 63, Reg.grpStat 63] ++
          (List.range 8).flatMap (fun i => [Reg.laneCfg (136 + i), Reg.laneState (136 + i), Reg.prbsStat (136 + i), Reg.injCount (136 + i)]))
          [.link, .twin])) ∧
  ∀ s : State, s.hubOn = true →
    (s.twinEn = true → s.grpReady 63 = true →
      (s.twinState = 1 ∨ s.twinState = 5 ∨ s.twinState = 6 → s.twin.retry = false →
        ∃ t, exec .twinAttestation s = .next t ∧ t.twinState = 2 ∧ t.twinActive = s.twinActive ∧ t.twin.exchange = !s.relayStandby ∧
          t.twin.nonces = (if s.relayStandby then s.twin.nonces else s.twin.nonces + 1) ∧ Frame s t [Reg.twinStat] [.twin]) ∧
      (s.twin.retry = true →
        ∃ t, exec .attestRetry s = .next t ∧ t.twinState = 2 ∧ t.twin.retry = false ∧ t.twin.exchange = !s.relayStandby ∧
          Frame s t [Reg.twinStat] [.twin])) ∧
    (s.twinState = 2 → s.twin.exchange = true →
      (∃ t, exec .attestTimeout s = .next t ∧ t.twinState = 1 ∧ t.twin.retry = true ∧ t.twin.exchange = false ∧ Raised s t Code.twinAttestFail ∧
        Frame s t (Reg.twinStat :: raiseRegs Code.twinAttestFail) (.twin :: raiseParts)) ∧
      ∀ a : AttAnswer,
        (a.valid = false →
          ∃ t, exec (.attestAnswer a) s = .next t ∧ t.twinState = 1 ∧ t.twin.retry = true ∧ Raised s t Code.twinAttestFail ∧
            Frame s t (Reg.twinStat :: raiseRegs Code.twinAttestFail) (.twin :: raiseParts)) ∧
        (a.valid = true →
          (s.twin.record = some a.fp →
            ∃ t, exec (.attestAnswer a) s = .next t ∧ t.twinState = 4 ∧ (∀ w, w < 12 → t.rd (Reg.twinPfp w) = (fpWords a.fp).getD w 0) ∧
              t.twinActive = (if s.isStandby then s.twin.placed && s.twinActive else !a.active) ∧
              t.twin.partner = some (a.fp, a.wardenMeas, a.hubMeas) ∧ t.twin.exchange = false ∧
              Frame s t ([Reg.twinStat, Reg.logSeq] ++ (List.range 12).map Reg.twinPfp) [.twin, .log]) ∧
          (s.twin.record ≠ some a.fp →
            ∃ t, exec (.attestAnswer a) s = .next t ∧ t.twinState = 3 ∧ (∀ w, w < 12 → t.rd (Reg.twinPfp w) = (fpWords a.fp).getD w 0) ∧
              t.twin.partner = some (a.fp, a.wardenMeas, a.hubMeas) ∧ t.twinActive = s.twinActive ∧ Raised s t Code.twinPartnerUnknown ∧
              Frame s t (Reg.twinStat :: ((List.range 12).map Reg.twinPfp ++ raiseRegs Code.twinPartnerUnknown)) (.twin :: raiseParts))))

/-- Digests go out, are taken in their window and compared; a mismatch names the faulty side, which hands the pins over (R411, R417, R418,
R419, R420, R421, R422, R423, R424, R425, R426, Table 16.4). The conclusion for each of twinHandover, digestSend, digestReceive,
digestCompare, twinRelease, twinTakeover, partnerAbsent, on conditions on the state and the operands alone, is that exec answers a next
state, with its own effect. -/
def Obligations.DigestsDecideTheHandover : Prop :=
  (∀ (s : State) (k : W32), s.hubOn = true → s.twinState = 4 → k = s.tickId - 1 → (∀ o ∈ s.twin.own, o.tick ≠ k) →
    (∀ e ∈ s.twin.tapped, e.1 = k → e.2.2.2.2 = false) →
    ∃ t f l, exec .digestSend s = .next t ∧ t.link.sent = s.link.sent ++ l ++ [f] ∧ (s.txClear 63 → l = []) ∧ f.group = 63 ∧ wbits f.hdr.toNat 32 32 = k.toNat ∧
      wbits f.hdr.toNat 24 8 = 255 ∧ wbits f.hdr.toNat 0 8 = 0xE2 ∧ f.payload.length = 56 ∧
      f.payload.take 8 = bytesLE 8 (crc64 (s.digestBytes k) 0) ∧ (f.payload.drop 8).take 2 = bytesLE 2 (s.evidenceOf k) ∧
      (f.payload.drop 10).take 2 = bytesLE 2 s.cTick ∧
      t.twin.own.getLast? = some ⟨k, BitVec.ofNat 64 (crc64 (s.digestBytes k) 0), BitVec.ofNat 16 (s.evidenceOf k), s.twinActive⟩ ∧
      Frame s t [] [.link, .twin]) ∧
  (∀ (s u : State) (p : Popped) (k : W32), s.hubOn = true → s.twinState = 4 → s.popFrame 63 0xE2 = some p → p.ok = true →
    wbits p.hdr 24 8 = 255 → k = BitVec.ofNat 32 (wbits p.hdr 32 32) → u = p.st →
    (u.cTick = bytesAt p.bytes 10 2 → u.digestWindow.1 ≤ tickDiff u.tickId k → tickDiff u.tickId k ≤ u.digestWindow.2 →
      u.openOf Op.twinHandover = [] →
      ∃ t d, exec .digestReceive s = .next t ∧ t.twin.rcvd.getLast? = some d ∧ d.tick = k ∧ d.digest = BitVec.ofNat 64 (bytesAt p.bytes 0 8) ∧
        d.evidence = BitVec.ofNat 16 (bytesAt p.bytes 8 2) ∧ t.twinFlag 26 = nbit (bytesAt p.bytes 13 1) 1 ∧
        t.twin.partnerActive = nbit (bytesAt p.bytes 13 1) 0 ∧ Frame u t [Reg.twinStat] [.twin]) ∧
    (u.cTick ≠ bytesAt p.bytes 10 2 ∨ tickDiff u.tickId k < u.digestWindow.1 ∨ u.digestWindow.2 < tickDiff u.tickId k →
      ∃ t, exec .digestReceive s = .next t ∧ Raised u t Code.twinTickSkew ∧ Frame u t (raiseRegs Code.twinTickSkew) raiseParts)) ∧
  (∀ (s : State) (k : W32) (o : OwnDigest), s.hubOn = true → s.twinState = 4 → k = s.tickId - (if s.relayPrimary then 6 else 4) →
    s.twin.own.find? (fun x => x.tick == k) = some o →
    (s.twin.rcvd.find? (fun d => d.tick == k) = none →
      ∃ t, exec .digestCompare s = .next t ∧ t.rd Reg.twinSilent = satInc (s.rd Reg.twinSilent) ∧ Raised s t Code.twinSilent ∧
        t.twinActive = s.twinActive ∧ t.twin.releaseAt = s.twin.releaseAt ∧
        (s.twin.missing = 0 → t.twinState = 4 ∧ t.twin.missing = 1 ∧
          Frame s t (Reg.twinSilent :: raiseRegs Code.twinSilent) (.twin :: raiseParts)) ∧
        (1 ≤ s.twin.missing → t.twinState = 5 ∧ Raised s t Code.twinLinkDown ∧
          Frame s t ([Reg.twinSilent, Reg.twinStat] ++ raiseRegs Code.twinSilent ++ raiseRegs Code.twinLinkDown) (.twin :: raiseParts))) ∧
    ∀ d : DigestFrame, s.twin.rcvd.find? (fun x => x.tick == k) = some d →
      (o.digest = d.digest →
        ∃ t, exec .digestCompare s = .next t ∧ t.twinState = 4 ∧ t.twinFaulted = s.twinFaulted ∧ t.twinActive = s.twinActive ∧
          t.twin.releaseAt = s.twin.releaseAt ∧ t.twin.missing = 0 ∧ t.rdF Reg.twinStat 0 16 = o.evidence.toNat ∧
          t.rd (Reg.twinDigest 0) = o.digest.extractLsb' 0 32 ∧ t.rd (Reg.twinPdigest 1) = d.digest.extractLsb' 32 32 ∧
          Frame s t [Reg.twinStat, Reg.twinDigest 0, Reg.twinDigest 1, Reg.twinPdigest 0, Reg.twinPdigest 1] [.twin]) ∧
      (o.digest ≠ d.digest → ∀ act faulty : Bool,
        act = (if o.active = d.active then !s.isStandby else o.active) →
        faulty = (if o.evidence ≠ 0 ∧ d.evidence = 0 then true else if o.evidence = 0 ∧ d.evidence ≠ 0 then false
                  else if bit (s.rd Reg.twinCfg) 28 then act else !act) →
        ∃ t, exec .digestCompare s = .next t ∧ t.rd Reg.twinMismatches = satInc (s.rd Reg.twinMismatches) ∧ t.rd Reg.twinLastTick = k ∧
          Raised s t Code.twinMismatch ∧ t.twinActive = s.twinActive ∧ t.twinFaulted = (faulty || s.twinFaulted) ∧
          (faulty = true → s.twinFaulted = false → act = true → s.twinFlag 26 = false → t.twin.releaseAt = some s.nextStrobe) ∧
          (faulty = true → s.twinFaulted = false → act = true → s.twinFlag 26 = true →
            t.twin.releaseAt = s.twin.releaseAt ∧ Raised s t Code.twinBothFaulted) ∧
          (faulty = false ∨ s.twinFaulted = true ∨ act = false → t.twin.releaseAt = s.twin.releaseAt) ∧
          Frame s t ([Reg.twinMismatches, Reg.twinLastTick, Reg.twinStat, Reg.twinDigest 0, Reg.twinDigest 1, Reg.twinPdigest 0, Reg.twinPdigest 1] ++
            raiseRegs Code.twinMismatch ++ raiseRegs Code.twinBothFaulted) (.twin :: raiseParts))) ∧
  (∀ s : State, s.hubOn = true →
    (s.due s.twin.releaseAt = true → s.twinActive = true →
      ∃ t, exec .twinRelease s = .next t ∧ t.twinActive = false ∧ t.activeN = true ∧ t.twin.releaseAt = none ∧ t.twinState = s.twinState ∧
        t.twin.pulseEnd = s.tod.tickFab + 4 + s.cTick ∧ (s.cycleNow ≤ 4 → 0 < s.cTick → t.handoverOut = true) ∧
        Frame s t [Reg.twinStat] [.tod, .twin]) ∧
    (∀ a : Async, s.due s.twin.releaseAt = true → s.twinActive = false → s.openOf Op.twinHandover = [a] → tickReached s.tickId a.tick = true →
      ∃ t, exec .twinRelease s = .next t ∧ Completed s t a Status.superseded [0xFFFF0000] ∧ t.openOf Op.twinHandover = [] ∧
        Frame s t [] [.tod, .twin]) ∧
    (s.twinEn = true →
      (s.twinActive = false → s.twinFaulted = false → s.twinState = 4 ∨ s.twinState = 5 ∨ s.twinState = 6 →
        ∃ t, exec .twinTakeover s = .next t ∧ t.twinActive = true ∧ t.activeN = false ∧ t.twinFlag 25 = true ∧
          t.rd Reg.twinTakeovers = s.rd Reg.twinTakeovers + 1 ∧ Raised s t Code.twinTakeover ∧
          (∀ a, s.openOf Op.twinHandover = [a] → Completed s t a Status.ok [s.tickId] ∧ t.openOf Op.twinHandover = []) ∧
          Frame s t ([Reg.twinStat, Reg.twinTakeovers] ++ raiseRegs Code.twinTakeover) (.twin :: raiseParts)) ∧
      (s.twinActive = false → s.twinFaulted = true →
        ∃ t, exec .twinTakeover s = .next t ∧ t.twinActive = false ∧ t.twinFlag 25 = true ∧ Raised s t Code.twinBothFaulted ∧
          Frame s t (Reg.twinStat :: raiseRegs Code.twinBothFaulted) raiseParts)) ∧
    (s.twinFlag 25 = true → s.twinState = 4 ∨ s.twinState = 5 →
      ∃ t, exec .partnerAbsent s = .next t ∧ t.twinState = 6 ∧ t.twinActive = s.twinActive ∧ t.twinFaulted = s.twinFaulted ∧
        Frame s t [Reg.twinStat] [])) ∧
  ∀ (s : State) (h : Hdr) (d : W32), s.ready h Op.twinHandover = true →
    (s.twinState = 4 → s.strobeOk d = true → (if s.twinActive then s.twinFlag 26 else s.twinFaulted) = false →
      ∃ t, exec (.twinHandover h d) s = .next t ∧ Replied s t h Op.twinHandover Status.accepted [s.strobeOf d] ∧
        t.host.async = s.host.async ++ [⟨h.transport, h.tag, Op.twinHandover, 0, s.strobeOf d⟩] ∧
        (s.twinActive = true → t.twin.releaseAt = some (s.strobeOf d)) ∧ (s.twinActive = false → t.twin.passed = s.twin.passed ++ [s.strobeOf d]) ∧
        Frame s t [] [.twin]) ∧
    (s.twinState ≠ 4 ∨ (if s.twinActive then s.twinFlag 26 else s.twinFaulted) = true →
      ∃ t, exec (.twinHandover h d) s = .next t ∧ Replied s t h Op.twinHandover Status.twinRequired [0xFFFF0000] ∧ Frame s t [] [])

/-- Feeds are sampled, judged, switched and returned; PWR_STATUS, FEED_CONFIG and LOOP_CONFIG; AVS steps within its limits (R429, R430,
R431, R432, R434, R441, R442, R443, R446, Table 17.2, Table 17.3, log 35). The conclusion for each of pwrStatus, feedConfig, loopConfig,
feedSample, feedFaultClear, feedSwitch, feedReturn, coolantRange, avsStep, on conditions on the state and the operands alone, is that
exec answers a next state, with its own effect. -/
def Obligations.FeedsAreSampledAndSwitched : Prop :=
  (∀ (s : State) (h : Hdr), s.ready h Op.pwrStatus = true →
    ∃ t, exec (.pwrStatus h) s = .next t ∧ Frame s t [] [] ∧ Answered s t h Op.pwrStatus ((List.range 11).map (fun i => s.rd (Reg.pwrStat + 4 * i)) ++
      (List.range 16).flatMap (fun x => [s.rd (Reg.avsCfg x), s.rd (Reg.avsSteps x)]))) ∧
  (∀ (s : State) (h : Hdr) (bEn : Bool) (ret restore : Nat) (keep : W64), s.ready h Op.feedConfig = true →
    (10 ≤ ret → ret ≤ 10000 → 1 ≤ restore → restore ≤ 60000 →
      ∃ t, exec (.feedConfig h bEn ret restore keep) s = .next t ∧ Answered s t h Op.feedConfig [] ∧ bit (t.rd Reg.pwrCfg) 31 = bEn ∧
        t.rdF Reg.pwrCfg 16 15 = ret ∧ t.rdF Reg.pwrCfg 0 16 = restore ∧ t.rd (Reg.keep 0) = keep.extractLsb' 0 32 ∧
        t.rd (Reg.keep 1) = keep.extractLsb' 32 32 ∧ Frame s t [Reg.pwrCfg, Reg.keep 0, Reg.keep 1] []) ∧
    (ret < 10 ∨ 10000 < ret ∨ restore = 0 ∨ 60000 < restore →
      ∃ t, exec (.feedConfig h bEn ret restore keep) s = .next t ∧ Replied s t h Op.feedConfig Status.valueRange [0] ∧ Frame s t [] [])) ∧
  (∀ (s : State) (h : Hdr) (mask guardMv : Nat) (frz droop : Bool), s.ready h Op.loopConfig = true →
    (0 < mask → mask < 2 ^ 16 → 20 ≤ guardMv → guardMv ≤ 60 → (droop = true ∨ ∀ i, i < 16 → nbit mask i = true → s.timedTile i = false) →
      ∃ t, exec (.loopConfig h mask frz droop guardMv) s = .next t ∧ Answered s t h Op.loopConfig [] ∧
        (∀ i, i < 16 → nbit mask i = true → bit (t.rd (Reg.avsCfg i)) 31 = frz ∧ bit (t.rd (Reg.avsCfg i)) 30 = droop ∧
          t.rdF (Reg.avsCfg i) 24 6 = guardMv ∧ t.rdF (Reg.avsCfg i) 0 8 = s.rdF (Reg.avsCfg i) 0 8) ∧
        Frame s t ((bitsOf mask 16).map Reg.avsCfg) []) ∧
    (mask = 0 → ∃ t, exec (.loopConfig h mask frz droop guardMv) s = .next t ∧ Replied s t h Op.loopConfig Status.valueRange [0] ∧ Frame s t [] []) ∧
    (∀ i, i < 16 → mask < 2 ^ 16 → nbit mask i = true → s.timedTile i = true → droop = false →
      ∃ t, exec (.loopConfig h mask frz droop guardMv) s = .next t ∧ Replied s t h Op.loopConfig Status.valueRange [0x00010000] ∧
        Frame s t [] [])) ∧
  (∀ (s : State) (aV bV busV aI bI die : Nat) (temp : Int), s.powered = true → s.dev.state ≠ .boot → s.feedFault 0 = false →
    s.feedFault 1 = false → 4200 ≤ aV → aV ≤ 6300 → 4200 ≤ bV → bV ≤ 6300 → busV < 65536 → aI ≤ 2700 → bI ≤ 2700 → die < 256 →
    (∃ t, exec (.feedSample aV bV busV aI bI false false temp die) s = .next t ∧ t.feedVolt 0 = aV ∧ t.feedVolt 1 = bV ∧
      t.rdF Reg.busV 0 16 = busV ∧ t.rdF Reg.feedI 16 16 = aI ∧ t.rdF Reg.feedI 0 16 = bI ∧ t.rdF Reg.tempMax 16 8 = die ∧
      (-32768 ≤ temp → temp < 32768 → t.tempMax = temp) ∧ t.feedOk 0 = true ∧ t.feedOk 1 = true ∧ t.feedFault 0 = false ∧ t.feedFault 1 = false ∧
      t.activeFeed = s.activeFeed ∧ t.shedStage = s.shedStage ∧ t.pwr.samples = s.pwr.samples + 1 ∧
      (∀ st low, (st, low) ∈ [(1, 4100), (2, 3950), (3, 3800), (4, 3700), (5, 3600), (6, 3400)] →
        SMap.get 0 t.pwr.lowRun st = if busV < low then SMap.get 0 s.pwr.lowRun st + 1 else 0) ∧
      Frame s t [Reg.feedV, Reg.busV, Reg.feedI, Reg.tempMax, Reg.pwrStat] [.pwr]) ∧
    ∃ t, exec (.feedSample aV bV busV aI bI true false temp die) s = .next t ∧ t.feedFault 0 = true ∧ t.feedOk 0 = false ∧ t.feedOk 1 = true ∧
      Raised s t Code.feedFault ∧
      Frame s t ([Reg.feedV, Reg.busV, Reg.feedI, Reg.tempMax, Reg.pwrStat] ++ raiseRegs Code.feedFault ++ raiseRegs Code.feedLost)
        (.pwr :: raiseParts)) ∧
  ∀ s : State, s.powered = true →
    (∀ f, f = 0 ∨ f = 1 → s.feedFault f = true → s.feedFault (1 - f) = false →
      (SMap.get 0 s.pwr.badAt f + 5000000 ≤ s.pwr.samples →
        ∃ t, exec .feedFaultClear s = .next t ∧ t.feedFault f = false ∧ t.feedOk f = decide (4200 ≤ s.feedVolt f) ∧ Frame s t [Reg.pwrStat] []) ∧
      (s.pwr.samples < SMap.get 0 s.pwr.badAt f + 5000000 → ∃ t, exec .feedFaultClear s = .next t ∧ Frame s t [] [])) ∧
    ((s.feedFault s.activeFeed = true ∨ 50 < SMap.get 0 s.pwr.feedLow s.activeFeed) → s.canSwitch = true →
      ∃ t, exec .feedSwitch s = .next t ∧ t.activeFeed = 1 - s.activeFeed ∧ t.rd Reg.switchovers = s.rd Reg.switchovers + 1 ∧
        Raised s t Code.feedSwitch ∧ Frame s t ([Reg.pwrStat, Reg.switchovers] ++ raiseRegs Code.feedSwitch) (.pwr :: raiseParts)) ∧
    ((s.feedFault s.activeFeed = false ∧ SMap.get 0 s.pwr.feedLow s.activeFeed ≤ 50) ∨ s.canSwitch = false →
      ∃ t, exec .feedSwitch s = .next t ∧ Frame s t [] []) ∧
    (s.activeFeed = 1 → s.feedFault 0 = false → s.pwr.goodFrom ≠ 0 →
      (s.pwr.goodFrom + s.rdF Reg.pwrCfg 16 15 * 50000 ≤ s.pwr.samples + 1 →
        ∃ t, exec .feedReturn s = .next t ∧ t.activeFeed = 0 ∧ t.rd Reg.switchovers = s.rd Reg.switchovers + 1 ∧ Raised s t Code.feedReturn ∧
          Frame s t ([Reg.pwrStat, Reg.switchovers] ++ raiseRegs Code.feedReturn) (.pwr :: raiseParts)) ∧
      (s.pwr.samples + 1 < s.pwr.goodFrom + s.rdF Reg.pwrCfg 16 15 * 50000 → ∃ t, exec .feedReturn s = .next t ∧ Frame s t [] [])) ∧
    (∀ temp : Int,
      (temp < 150 ∨ 400 < temp →
        ∃ t, exec (.coolantRange temp) s = .next t ∧ Raised s t Code.coolantRange ∧ Frame s t (raiseRegs Code.coolantRange) raiseParts) ∧
      (150 ≤ temp → temp ≤ 400 → ∃ t, exec (.coolantRange temp) s = .next t ∧ Frame s t [] [])) ∧
    ∀ (tile : Nat) (o : Int), tile < 16 → s.hubOn = true → o = toSigned 8 (s.rdF (Reg.avsCfg tile) 0 8) →
      (bit (s.rd (Reg.avsCfg tile)) 31 = false →
        (o < 10 → ∃ t, exec (.avsStep tile true) s = .next t ∧ toSigned 8 (t.rdF (Reg.avsCfg tile) 0 8) = o + 1 ∧
          t.rd (Reg.avsSteps tile) = s.rd (Reg.avsSteps tile) + 1 ∧ Frame s t [Reg.avsCfg tile, Reg.avsSteps tile] []) ∧
        (10 ≤ o → ∃ t, exec (.avsStep tile true) s = .next t ∧ Raised s t Code.avsLimit ∧ Frame s t (raiseRegs Code.avsLimit) raiseParts) ∧
        (-8 < o → ∃ t, exec (.avsStep tile false) s = .next t ∧ toSigned 8 (t.rdF (Reg.avsCfg tile) 0 8) = o - 1 ∧
          t.rd (Reg.avsSteps tile) = s.rd (Reg.avsSteps tile) + 1 ∧ Frame s t [Reg.avsCfg tile, Reg.avsSteps tile] []) ∧
        (o ≤ -8 → ∃ t, exec (.avsStep tile false) s = .next t ∧ Frame s t [] [])) ∧
      (bit (s.rd (Reg.avsCfg tile)) 31 = true → ∀ up, ∃ t, exec (.avsStep tile up) s = .next t ∧ Frame s t [] [])

/-- Shedding stages come into force one by one, S6 and a lost clock end in Safe, restores and rewrites end them; report windows end (R127,
R198, R434, R435, R436, R437, R438, R439, R440, R444, R489, log 35). The conclusion for each of shedEnter, shedS6, shedRestore,
resumeRewriteDone, clockUnlock, numWindowEnd, reportWindowEnd, on conditions on the state and the operands alone, is that exec answers a
next state, with its own effect. -/
def Obligations.StagesShedAndWindowsEnd : Prop :=
  (∀ (s : State) (st m : Nat), s.powered = true → s.dev.state ≠ .safe → s.pwr.rewriting = false → 1 ≤ st → st ≤ 6 →
    m = max (min st s.voltStage) (min st s.thermStage) →
    (m ≤ s.shedStage → ∃ t, exec (.shedEnter st) s = .next t ∧ t.shedStage = s.shedStage ∧ Frame s t [Reg.pwrStat] []) ∧
    (m = s.shedStage + 1 → m ≤ 5 →
      ∃ t, exec (.shedEnter st) s = .next t ∧ t.shedStage = m ∧ t.rd Reg.shedEntries = s.rd Reg.shedEntries + 1 ∧ Raised s t Code.shedEnter ∧
        t.pwr.alertN = false ∧ t.dev.state = s.dev.state ∧
        (m = 1 → t.link.scans = [] ∧ (∀ n, n < 144 → t.rdF (Reg.prbsCfg n) 30 2 = 0 ∧ (t.lane n).injecting = false) ∧
          (∀ a, s.host.async.filter (fun x => x.opcode == Op.laneEye || x.opcode == Op.clickCal || x.opcode == Op.selftest) = [a] →
            Completed s t a Status.shedActive [0xFFFF0001]) ∧
          Frame s t ([Reg.pwrStat, Reg.shedEntries] ++ (List.range 144).flatMap (fun n => [Reg.prbsCfg n, Reg.prbsStat n, Reg.prbsBits n 0,
              Reg.prbsBits n 1, Reg.injCount n]) ++ raiseRegs Code.shedEnter)
            ([.pwr, .link, .fe] ++ raiseParts)) ∧
        (m = 2 → t.pwr.asleep = Nat.lor s.pwr.asleep s.idleStacks ∧
          Frame s t ([Reg.pwrStat, Reg.shedEntries] ++ raiseRegs Code.shedEnter) (.pwr :: raiseParts)) ∧
        (m = 3 → ∀ n, n < 144 → s.keptS3 n = false → t.txState n = 0 ∧ t.rxState n = Rx.off) ∧
        (m = 4 ∨ m = 5 → t.pwr.strongAt = some s.nextStrobe ∧ bit (t.rd Reg.pwrStat) 17 = true ∧
          Frame s t ([Reg.pwrStat, Reg.shedEntries] ++ raiseRegs Code.shedEnter) (.pwr :: raiseParts))) ∧
    (s.shedStage = 5 → s.voltStage = 6 ∨ s.thermStage = 6 →
      ∃ t, exec .shedS6 s = .next t ∧ t.dev.state = .safe ∧ t.shedStage = 6 ∧ Raised s t Code.shedS6 ∧ Raised s t Code.shedEnter ∧
        t.twinActive = false ∧ t.handoverOut = true ∧ t.pwr.pgood = false ∧ t.pwr.alertN = false ∧ t.fe.drives = [] ∧ t.bus.due = [] ∧
        t.host.async = [] ∧ t.tick.running = false ∧ SameMem s t)) ∧
  (∀ s : State, s.hubOn = true →
    ∃ t, exec .clockUnlock s = .next t ∧ t.dev.state = .safe ∧ t.shedStage = 6 ∧ Raised s t Code.clockUnlock ∧ Raised s t Code.shedS6 ∧
      t.twinActive = false ∧ t.pwr.pgood = false ∧ t.pwr.alertN = false ∧ t.fe.drives = [] ∧ t.host.async = [] ∧ SameMem s t) ∧
  (∀ (s : State) (st : Nat), s.powered = true → s.dev.state ≠ .safe → s.pwr.rewriting = false → 1 ≤ st → st ≤ 3 → s.shedStage = st →
    (SMap.get 0 s.pwr.okFrom st ≠ 0 →
      max (SMap.get 0 s.pwr.okFrom st) (s.pwr.dwellFrom + 1) + s.rdF Reg.pwrCfg 0 16 * 50000 ≤ s.pwr.samples + 1 →
      s.pwr.offLanes = [] → s.host.waits = [] →
      ∃ t, exec (.shedRestore st) s = .next t ∧ t.shedStage = st - 1 ∧ Raised s t Code.shedRestore ∧ t.pwr.dwellFrom = s.pwr.samples ∧
        (st = 1 → t.pwr.alertN = true) ∧ (st = 2 → t.pwr.asleep = 0) ∧
        Frame s t (Reg.pwrStat :: raiseRegs Code.shedRestore) (.pwr :: raiseParts)) ∧
    (SMap.get 0 s.pwr.okFrom st = 0 ∨
      s.pwr.samples + 1 < max (SMap.get 0 s.pwr.okFrom st) (s.pwr.dwellFrom + 1) + s.rdF Reg.pwrCfg 0 16 * 50000 →
      ∃ t, exec (.shedRestore st) s = .next t ∧ Frame s t [] [])) ∧
  (∀ (s : State) (a : Async), s.hubOn = true → s.pwr.rewriting = true → (∀ k, k < 4 → (s.cx k).cores = []) → s.host.waits = [] →
    s.pwr.offLanes = [] → bit (s.rd Reg.pwrStat) 17 = false → s.host.async.filter (fun x => x.opcode == Op.resume && x.mask == 1) = [a] →
    ∃ t, exec .resumeRewriteDone s = .next t ∧ Completed s t a Status.ok [a.tick] ∧ t.pwr.rewriting = false ∧
      t.pwr.asleep = (if 2 ≤ s.shedStage then s.idleStacks else 0) ∧ Frame s t [] [.pwr]) ∧
  ∀ s : State, s.hubOn = true →
    (s.shedStage = 0 → s.tickId.toNat % 2 ^ s.rdF Reg.numCfg 0 5 = 0 →
      ∃ t, exec .numWindowEnd s = .next t ∧ t.ant = { s.ant with numWin := [] } ∧
        (∀ x, x < 4096 → x ∈ s.countedTensors →
          (t.rd (Reg.num (x / 1024) (x % 1024))).toNat = satAdd 32 (SMap.get 0 s.ant.numWin (3 * x)) 0 ∧
          (t.rd (Reg.num (x / 1024) (x % 1024) + 4)).toNat = satAdd 32 (SMap.get 0 s.ant.numWin (3 * x + 1)) 0) ∧
        (∀ x, x < 4096 → x ∉ s.countedTensors →
          t.rd (Reg.num (x / 1024) (x % 1024)) = 0 ∧ t.rd (Reg.num (x / 1024) (x % 1024) + 4) = 0) ∧
        ((∀ x ∈ s.countedTensors, x < 4096) → bit (s.rd Reg.numCfg) 31 = false →
          (∀ a, isNumWin a = false → a ∉ replyRegs → t.rd a = s.rd a) ∧ SameMem s t ∧ ∀ p, p ≠ Part.ant → p.Same s t)) ∧
    (1 ≤ s.shedStage → s.tickId.toNat % 2 ^ s.rdF Reg.numCfg 0 5 = 0 →
      ∃ t, exec .numWindowEnd s = .next t ∧ t.ant = { s.ant with numWin := [] } ∧ Frame s t [] [.ant]) ∧
    (s.tickId.toNat % 2 ^ s.rdF Reg.numCfg 0 5 ≠ 0 → ∃ t, exec .numWindowEnd s = .next t ∧ Frame s t [] []) ∧
    (s.tickId.toNat % 2 ^ 20 = 0 →
      (∃ t, exec .reportWindowEnd s = .next t ∧ (∀ w ∈ t.windows, w.win = s.winIx) ∧ t.banks.eccWin = [0, 0, 0, 0]) ∧
      (∀ n, 0 < n → s.banks.eccWin = [n, 0, 0, 0] →
        ∃ t, exec .reportWindowEnd s = .next t ∧ Raised s t Code.eccCorrected ∧ ∀ a, a ∉ replyRegs ++ raiseRegs Code.eccCorrected → t.rd a = s.rd a) ∧
      (s.banks.eccWin = [0, 0, 0, 0] → (∀ w ∈ s.windows, w.win = s.winIx) → ∃ t, exec .reportWindowEnd s = .next t ∧ Frame s t [] [])) ∧
    (s.tickId.toNat % 2 ^ 20 ≠ 0 → ∃ t, exec .reportWindowEnd s = .next t ∧ Frame s t [] [])
end

