-- ==== Sys2Proof/Laws/Bits.lean ====
section
/-! SUPPORT. Bit fields of words: what a field reads after it, or another field, is set. -/

namespace Sys2Proof.Machine

theorem fld_lt (w : W32) (lo n : Nat) : fld w lo n < 2 ^ n := Nat.mod_lt _ (Nat.two_pow_pos n)

/-- A word as the part below a field, the field, and the part above it. -/
theorem fld_split (w : W32) (lo n : Nat) :
    w.toNat = w.toNat % 2 ^ lo + fld w lo n * 2 ^ lo + w.toNat / 2 ^ (lo + n) * 2 ^ (lo + n) := by
  unfold fld
  rw [Nat.shiftRight_eq_div_pow]
  have h1 := Nat.div_add_mod w.toNat (2 ^ lo)
  have h2 := Nat.div_add_mod (w.toNat / 2 ^ lo) (2 ^ n)
  rw [Nat.div_div_eq_div_mul, ← Nat.pow_add] at h2
  generalize w.toNat / 2 ^ (lo + n) = c at *
  generalize w.toNat / 2 ^ lo % 2 ^ n = f at *
  rw [← h2] at h1
  rw [Nat.pow_add]
  have : 2 ^ lo * (2 ^ n * c + f) = c * (2 ^ lo * 2 ^ n) + f * 2 ^ lo := by
    rw [Nat.mul_add, Nat.mul_comm f, ← Nat.mul_assoc, Nat.mul_comm (2 ^ lo * 2 ^ n) c]
  omega

theorem setFld_toNat (w : W32) (lo n v : Nat) (h : lo + n ≤ 32) :
    (setFld w lo n v).toNat = w.toNat % 2 ^ lo + (v % 2 ^ n) * 2 ^ lo + w.toNat / 2 ^ (lo + n) * 2 ^ (lo + n) := by
  have hs := fld_split w lo n
  have hw : w.toNat < 2 ^ 32 := w.isLt
  unfold setFld
  rw [BitVec.toNat_ofNat]
  have hl : w.toNat % 2 ^ lo < 2 ^ lo := Nat.mod_lt _ (Nat.two_pow_pos lo)
  have hv : v % 2 ^ n < 2 ^ n := Nat.mod_lt _ (Nat.two_pow_pos n)
  have hb : w.toNat % 2 ^ lo + v % 2 ^ n * 2 ^ lo < 2 ^ (lo + n) := by
    rw [Nat.pow_add]
    have : (v % 2 ^ n + 1) * 2 ^ lo ≤ 2 ^ n * 2 ^ lo := Nat.mul_le_mul_right _ hv
    rw [Nat.add_mul, Nat.one_mul, Nat.mul_comm (2 ^ n)] at this
    omega
  have hc : w.toNat / 2 ^ (lo + n) < 2 ^ (32 - (lo + n)) := by
    apply Nat.div_lt_of_lt_mul
    rw [← Nat.pow_add]
    rwa [Nat.add_sub_cancel' h]
  have ht : w.toNat % 2 ^ lo + v % 2 ^ n * 2 ^ lo + w.toNat / 2 ^ (lo + n) * 2 ^ (lo + n) < 2 ^ 32 := by
    have : (w.toNat / 2 ^ (lo + n) + 1) * 2 ^ (lo + n) ≤ 2 ^ (32 - (lo + n)) * 2 ^ (lo + n) := Nat.mul_le_mul_right _ hc
    rw [← Nat.pow_add, Nat.sub_add_cancel h, Nat.add_mul, Nat.one_mul] at this
    omega
  have he : w.toNat - fld w lo n * 2 ^ lo + v % 2 ^ n * 2 ^ lo =
      w.toNat % 2 ^ lo + v % 2 ^ n * 2 ^ lo + w.toNat / 2 ^ (lo + n) * 2 ^ (lo + n) := by omega
  rw [he, Nat.mod_eq_of_lt ht]

/-- A field reads as what was put into it. -/
theorem fld_setFld_same (w : W32) (lo n v : Nat) (h : lo + n ≤ 32) : fld (setFld w lo n v) lo n = v % 2 ^ n := by
  have hl : w.toNat % 2 ^ lo < 2 ^ lo := Nat.mod_lt _ (Nat.two_pow_pos lo)
  have hv : v % 2 ^ n < 2 ^ n := Nat.mod_lt _ (Nat.two_pow_pos n)
  unfold fld
  rw [Nat.shiftRight_eq_div_pow, setFld_toNat w lo n v h]
  generalize w.toNat % 2 ^ lo = a at *
  generalize v % 2 ^ n = b at *
  generalize w.toNat / 2 ^ (lo + n) = c at *
  have e : a + b * 2 ^ lo + c * 2 ^ (lo + n) = a + (b + c * 2 ^ n) * 2 ^ lo := by
    rw [Nat.add_mul, Nat.mul_assoc, ← Nat.pow_add, Nat.add_comm n lo]; omega
  rw [e, Nat.add_mul_div_right _ _ (Nat.two_pow_pos lo), Nat.div_eq_of_lt hl, Nat.zero_add, Nat.add_mul_mod_self_right]
  exact Nat.mod_eq_of_lt hv

/-- A field that lies beside it keeps its value. -/
theorem fld_setFld_other (w : W32) (lo n v lo' n' : Nat) (h : lo + n ≤ 32) (hd : lo' + n' ≤ lo ∨ lo + n ≤ lo') :
    fld (setFld w lo n v) lo' n' = fld w lo' n' := by
  have hl : w.toNat % 2 ^ lo < 2 ^ lo := Nat.mod_lt _ (Nat.two_pow_pos lo)
  have hv : v % 2 ^ n < 2 ^ n := Nat.mod_lt _ (Nat.two_pow_pos n)
  have hs := fld_split w lo n
  have hf := fld_lt w lo n
  unfold fld at *
  rw [Nat.shiftRight_eq_div_pow] at *
  rw [Nat.shiftRight_eq_div_pow, setFld_toNat w lo n v h]
  rcases hd with hd | hd
  · obtain ⟨k, rfl⟩ : ∃ k, lo = lo' + n' + k := ⟨lo - (lo' + n'), by omega⟩
    have e : ∀ x, (w.toNat % 2 ^ (lo' + n' + k) + x * 2 ^ (lo' + n' + k) + w.toNat / 2 ^ (lo' + n' + k + n) * 2 ^ (lo' + n' + k + n)) / 2 ^ lo' % 2 ^ n' =
        w.toNat % 2 ^ (lo' + n' + k) / 2 ^ lo' % 2 ^ n' := by
      intro x
      have e1 : w.toNat % 2 ^ (lo' + n' + k) + x * 2 ^ (lo' + n' + k) + w.toNat / 2 ^ (lo' + n' + k + n) * 2 ^ (lo' + n' + k + n) =
          w.toNat % 2 ^ (lo' + n' + k) + ((x * 2 ^ k + w.toNat / 2 ^ (lo' + n' + k + n) * 2 ^ (k + n)) * 2 ^ n') * 2 ^ lo' := by
        have p1 : x * 2 ^ (lo' + n' + k) = x * 2 ^ k * 2 ^ n' * 2 ^ lo' := by
          rw [Nat.mul_assoc, Nat.mul_assoc, ← Nat.pow_add, ← Nat.pow_add]; congr 2; omega
        have p2 : w.toNat / 2 ^ (lo' + n' + k + n) * 2 ^ (lo' + n' + k + n) =
            w.toNat / 2 ^ (lo' + n' + k + n) * 2 ^ (k + n) * 2 ^ n' * 2 ^ lo' := by
          rw [Nat.mul_assoc, Nat.mul_assoc, ← Nat.pow_add, ← Nat.pow_add]; congr 2; omega
        rw [p1, p2, Nat.add_mul, Nat.add_mul, Nat.add_assoc]
      rw [e1, Nat.add_mul_div_right _ _ (Nat.two_pow_pos lo'), Nat.add_mul_mod_self_right]
    rw [e (v % 2 ^ n), ← e (w.toNat / 2 ^ (lo' + n' + k) % 2 ^ n), ← hs]
  · obtain ⟨k, rfl⟩ : ∃ k, lo' = lo + n + k := ⟨lo' - (lo + n), by omega⟩
    have hb : ∀ b, b < 2 ^ n → w.toNat % 2 ^ lo + b * 2 ^ lo < 2 ^ (lo + n) := by
      intro b hb
      rw [Nat.pow_add]
      have : (b + 1) * 2 ^ lo ≤ 2 ^ n * 2 ^ lo := Nat.mul_le_mul_right _ hb
      rw [Nat.add_mul, Nat.one_mul, Nat.mul_comm (2 ^ n)] at this
      omega
    rw [Nat.pow_add 2 (lo + n) k, ← Nat.div_div_eq_div_mul, ← Nat.div_div_eq_div_mul,
      Nat.add_mul_div_right _ _ (Nat.two_pow_pos (lo + n)), Nat.div_eq_of_lt (hb _ hv), Nat.zero_add]

/-- A bit reads as what was put into it. -/
theorem bit_setBit_same (w : W32) (i : Nat) (b : Bool) (h : i < 32) : bit (setBit w i b) i = b := by
  unfold bit setBit
  rw [fld_setFld_same w i 1 _ (by omega)]
  cases b <;> rfl

/-- Every other bit keeps its value. -/
theorem bit_setBit_other (w : W32) (i j : Nat) (b : Bool) (h : i < 32) (hj : j ≠ i) : bit (setBit w i b) j = bit w j := by
  unfold bit setBit
  rw [fld_setFld_other w i 1 _ j 1 (by omega) (by omega)]

/-- A field that does not hold a bit keeps its value when the bit is set. -/
theorem fld_setBit (w : W32) (i lo n : Nat) (b : Bool) (h : i < 32) (hd : lo + n ≤ i ∨ i + 1 ≤ lo) :
    fld (setBit w i b) lo n = fld w lo n := fld_setFld_other w i 1 _ lo n (by omega) (by omega)

/-- A bit outside a field keeps its value when the field is set. -/
theorem bit_setFld (w : W32) (lo n v i : Nat) (h : lo + n ≤ 32) (hd : i < lo ∨ lo + n ≤ i) : bit (setFld w lo n v) i = bit w i := by
  unfold bit
  rw [fld_setFld_other w lo n v i 1 h (by omega)]

end Sys2Proof.Machine
end

