-- ==== Sys2Proof/Laws/SMap.lean ====
section
/-! SUPPORT. The sparse map: what a key reads as after a write, and that every operation keeps or restores the canonical
form. -/

namespace Sys2Proof.Machine

theorem SMap.get_del_same {V : Type} (d : V) (m : SMap V) (k : Nat) : SMap.get d (SMap.del k m) k = d := by
  induction m with
  | nil => rfl
  | cons e r ih =>
    obtain ⟨a, v⟩ := e
    by_cases h : k = a
    · simp [SMap.del, h] at ih ⊢; exact ih
    · simp [SMap.del, h, SMap.get]; exact ih

theorem SMap.get_del_other {V : Type} (d : V) (m : SMap V) (k j : Nat) (h : j ≠ k) :
    SMap.get d (SMap.del k m) j = SMap.get d m j := by
  induction m with
  | nil => rfl
  | cons e r ih =>
    obtain ⟨a, v⟩ := e
    by_cases hk : k = a
    · subst hk; simp [SMap.del, SMap.get, h, ih]
    · by_cases hj : j = a <;> simp [SMap.del, SMap.get, hk, hj, ih]

theorem SMap.get_ins_same {V : Type} (d v : V) (m : SMap V) (k : Nat) (h : ∀ e ∈ m, e.1 ≠ k) :
    SMap.get d (SMap.ins k v m) k = v := by
  induction m with
  | nil => simp [SMap.ins, SMap.get]
  | cons e r ih =>
    obtain ⟨a, w⟩ := e
    have ha : a ≠ k := h (a, w) (by simp)
    by_cases hl : k < a
    · simp [SMap.ins, hl, SMap.get]
    · simp [SMap.ins, hl, SMap.get, Ne.symm ha]
      exact ih (fun e he => h e (by simp [he]))

theorem SMap.get_ins_other {V : Type} (d v : V) (m : SMap V) (k j : Nat) (h : j ≠ k) :
    SMap.get d (SMap.ins k v m) j = SMap.get d m j := by
  induction m with
  | nil => simp [SMap.ins, SMap.get, h]
  | cons e r ih =>
    obtain ⟨a, w⟩ := e
    by_cases hl : k < a
    · simp [SMap.ins, hl, SMap.get, h]
    · by_cases hj : j = a <;> simp [SMap.ins, hl, SMap.get, hj, ih]

theorem SMap.del_ne {V : Type} (m : SMap V) (k : Nat) : ∀ e ∈ SMap.del k m, e.1 ≠ k := by
  induction m with
  | nil => simp [SMap.del]
  | cons e r ih =>
    obtain ⟨a, v⟩ := e
    by_cases h : k = a
    · subst h
      simpa only [SMap.del, if_true] using ih
    · intro x hx
      simp only [SMap.del, h, if_false, List.mem_cons] at hx
      rcases hx with rfl | hx
      · exact fun e => h e.symm
      · exact ih x hx

/-- A key reads as what was written at it. -/
theorem SMap.get_set_same {V : Type} [DecidableEq V] (d v : V) (m : SMap V) (k : Nat) :
    SMap.get d (SMap.set d m k v) k = v := by
  unfold SMap.set
  split
  · next h => rw [SMap.get_del_same, h]
  · exact SMap.get_ins_same d v _ k (SMap.del_ne m k)

/-- Every other key reads as before. -/
theorem SMap.get_set_other {V : Type} [DecidableEq V] (d d' v : V) (m : SMap V) (k j : Nat) (h : j ≠ k) :
    SMap.get d' (SMap.set d m k v) j = SMap.get d' m j := by
  unfold SMap.set
  split
  · exact SMap.get_del_other d' m k j h
  · rw [SMap.get_ins_other d' v _ k j h, SMap.get_del_other d' m k j h]

/-- Strictly rising keys, as a relation on every two entries. -/
theorem SMap.sorted_iff {V : Type} (m : SMap V) :
    SMap.sorted m = true ↔ m.Pairwise (fun a b => a.1 < b.1) := by
  induction m with
  | nil => simp [SMap.sorted]
  | cons e r ih =>
    cases r with
    | nil => simp [SMap.sorted]
    | cons f r =>
      obtain ⟨a, v⟩ := e
      obtain ⟨b, w⟩ := f
      simp only [SMap.sorted, Bool.and_eq_true, decide_eq_true_eq, ih]
      constructor
      · rintro ⟨hab, hp⟩
        refine List.pairwise_cons.2 ⟨fun x hx => ?_, hp⟩
        rcases List.mem_cons.1 hx with rfl | hx
        · exact hab
        · exact Nat.lt_trans hab ((List.pairwise_cons.1 hp).1 x hx)
      · intro h
        obtain ⟨h1, h2⟩ := List.pairwise_cons.1 h
        exact ⟨h1 (b, w) (by simp), h2⟩

theorem SMap.wf_iff {V : Type} [DecidableEq V] (d : Nat → V) (m : SMap V) :
    SMap.wf d m = true ↔ m.Pairwise (fun a b => a.1 < b.1) ∧ ∀ e ∈ m, e.2 ≠ d e.1 := by
  simp only [SMap.wf, Bool.and_eq_true, SMap.sorted_iff, List.all_eq_true, decide_eq_true_eq]

theorem SMap.mem_del {V : Type} (m : SMap V) (k : Nat) (e : Nat × V) (h : e ∈ SMap.del k m) : e ∈ m := by
  induction m with
  | nil => simp [SMap.del] at h
  | cons x r ih =>
    obtain ⟨a, v⟩ := x
    by_cases hk : k = a
    · simp only [SMap.del, hk, if_true] at h
      subst hk
      exact List.mem_cons_of_mem _ (ih h)
    · simp only [SMap.del, hk, if_false, List.mem_cons] at h
      rcases h with rfl | h
      · simp
      · exact List.mem_cons_of_mem _ (ih h)

theorem SMap.pairwise_del {V : Type} (m : SMap V) (k : Nat) (h : m.Pairwise (fun a b => a.1 < b.1)) :
    (SMap.del k m).Pairwise (fun a b => a.1 < b.1) := by
  induction m with
  | nil => simp [SMap.del]
  | cons x r ih =>
    obtain ⟨a, v⟩ := x
    obtain ⟨h1, h2⟩ := List.pairwise_cons.1 h
    by_cases hk : k = a
    · simp only [SMap.del, hk, if_true]
      subst hk
      exact ih h2
    · simp only [SMap.del, hk, if_false]
      exact List.pairwise_cons.2 ⟨fun b hb => h1 b (SMap.mem_del r k b hb), ih h2⟩

theorem SMap.mem_ins {V : Type} (m : SMap V) (k : Nat) (v : V) (e : Nat × V) (h : e ∈ SMap.ins k v m) :
    e = (k, v) ∨ e ∈ m := by
  induction m with
  | nil => simpa [SMap.ins] using h
  | cons x r ih =>
    obtain ⟨a, w⟩ := x
    by_cases hl : k < a
    · simp only [SMap.ins, hl, if_true, List.mem_cons] at h ⊢
      exact h
    · simp only [SMap.ins, hl, if_false, List.mem_cons] at h ⊢
      rcases h with rfl | h
      · simp
      · rcases ih h with h | h <;> simp [h]

theorem SMap.pairwise_ins {V : Type} (m : SMap V) (k : Nat) (v : V) (h : m.Pairwise (fun a b => a.1 < b.1))
    (hk : ∀ e ∈ m, e.1 ≠ k) : (SMap.ins k v m).Pairwise (fun a b => a.1 < b.1) := by
  induction m with
  | nil => simp [SMap.ins]
  | cons x r ih =>
    obtain ⟨a, w⟩ := x
    obtain ⟨h1, h2⟩ := List.pairwise_cons.1 h
    have ha : a ≠ k := hk (a, w) (by simp)
    by_cases hl : k < a
    · simp only [SMap.ins, hl, if_true]
      refine List.pairwise_cons.2 ⟨fun b hb => ?_, h⟩
      rcases List.mem_cons.1 hb with rfl | hb
      · exact hl
      · exact Nat.lt_trans hl (h1 b hb)
    · simp only [SMap.ins, hl, if_false]
      refine List.pairwise_cons.2 ⟨fun b hb => ?_, ih h2 (fun e he => hk e (by simp [he]))⟩
      rcases SMap.mem_ins r k v b hb with rfl | hb
      · exact Nat.lt_of_le_of_ne (Nat.le_of_not_lt hl) ha
      · exact h1 b hb

/-- A write keeps the canonical form. -/
theorem SMap.wf_set {V : Type} [DecidableEq V] (d : Nat → V) (m : SMap V) (k : Nat) (v : V) (h : SMap.wf d m = true) :
    SMap.wf d (SMap.set (d k) m k v) = true := by
  rw [SMap.wf_iff] at h ⊢
  obtain ⟨h1, h2⟩ := h
  have hd := SMap.pairwise_del m k h1
  unfold SMap.set
  split
  · exact ⟨hd, fun e he => h2 e (SMap.mem_del m k e he)⟩
  · next hv =>
    refine ⟨SMap.pairwise_ins _ k v hd (SMap.del_ne m k), fun e he => ?_⟩
    rcases SMap.mem_ins _ k v e he with rfl | he
    · exact hv
    · exact h2 e (SMap.mem_del m k e he)

theorem SMap.wf_canon {V : Type} [DecidableEq V] (d : Nat → V) (m : SMap V) : SMap.wf d (SMap.canon d m) = true := by
  induction m with
  | nil => rfl
  | cons e r ih => exact SMap.wf_set d _ e.1 e.2 ih

theorem SMap.get_canon {V : Type} [DecidableEq V] (d : Nat → V) (m : SMap V) (k : Nat) :
    SMap.get (d k) (SMap.canon d m) k = SMap.get (d k) m k := by
  induction m with
  | nil => rfl
  | cons e r ih =>
    obtain ⟨a, v⟩ := e
    by_cases h : k = a
    · subst h; simp [SMap.canon, SMap.get_set_same, SMap.get]
    · simp only [SMap.canon, SMap.get, h, if_false]
      rw [SMap.get_set_other _ _ _ _ _ _ h, ih]

/-- The end of a step restores the canonical form. -/
theorem SMap.wf_norm {V : Type} [DecidableEq V] (d : Nat → V) (m : SMap V) : SMap.wf d (SMap.norm d m) = true := by
  unfold SMap.norm
  split
  · assumption
  · exact SMap.wf_canon d m

/-- It changes no value. -/
theorem SMap.get_norm {V : Type} [DecidableEq V] (d : Nat → V) (m : SMap V) (k : Nat) :
    SMap.get (d k) (SMap.norm d m) k = SMap.get (d k) m k := by
  unfold SMap.norm
  split
  · rfl
  · exact SMap.get_canon d m k

/-- A map in canonical form is left as it is. -/
theorem SMap.norm_of_wf {V : Type} [DecidableEq V] (d : Nat → V) (m : SMap V) (h : SMap.wf d m = true) :
    SMap.norm d m = m := by
  simp [SMap.norm, h]

/-- A key whose entries are all kept reads as before. -/
theorem SMap.get_filter_keep {V : Type} (d : V) (m : SMap V) (p : Nat × V → Bool) (k : Nat) (h : ∀ v, p (k, v) = true) :
    SMap.get d (m.filter p) k = SMap.get d m k := by
  induction m with
  | nil => rfl
  | cons e r ih =>
    obtain ⟨a, v⟩ := e
    by_cases ha : k = a
    · subst ha; simp [h, SMap.get]
    · by_cases hp : p (a, v) = true <;> simp [hp, SMap.get, ha, ih]

/-- A key whose entries are all dropped reads its default. -/
theorem SMap.get_filter_drop {V : Type} (d : V) (m : SMap V) (p : Nat × V → Bool) (k : Nat) (h : ∀ v, p (k, v) = false) :
    SMap.get d (m.filter p) k = d := by
  induction m with
  | nil => rfl
  | cons e r ih =>
    obtain ⟨a, v⟩ := e
    by_cases ha : k = a
    · subst ha; simp [h, ih]
    · by_cases hp : p (a, v) = true <;> simp [hp, SMap.get, ha, ih]

/-- Dropping entries keeps the canonical form. -/
theorem SMap.wf_filter {V : Type} [DecidableEq V] (d : Nat → V) (m : SMap V) (p : Nat × V → Bool) (h : SMap.wf d m = true) :
    SMap.wf d (m.filter p) = true := by
  rw [SMap.wf_iff] at h ⊢
  exact ⟨h.1.filter p, fun e he => h.2 e (List.mem_filter.1 he).1⟩

end Sys2Proof.Machine
end

