-- ==== Sys2Proof/Laws/State.lean ====
section
/-! SUPPORT. One lemma per field of the state and update: what a register read, a byte read and a field are after an update of
another. -/

namespace Sys2Proof.Machine

@[simp] theorem State.rd_with_pending (s : State) (x : List Instr) (a : Nat) : ({ s with pending := x } : State).rd a = s.rd a := rfl
@[simp] theorem State.rd_with_mem (s : State) (x : List Host.Cell) (a : Nat) : ({ s with mem := x } : State).rd a = s.rd a := rfl
@[simp] theorem State.rd_with_poison (s : State) (x : List Nat) (a : Nat) : ({ s with poison := x } : State).rd a = s.rd a := rfl
@[simp] theorem State.rd_with_dev (s : State) (x : DevSt) (a : Nat) : ({ s with dev := x } : State).rd a = s.rd a := rfl
@[simp] theorem State.rd_with_host (s : State) (x : HostIf) (a : Nat) : ({ s with host := x } : State).rd a = s.rd a := rfl
@[simp] theorem State.rd_with_windows (s : State) (x : List RepWin) (a : Nat) : ({ s with windows := x } : State).rd a = s.rd a := rfl
@[simp] theorem State.rd_with_log (s : State) (x : List LogEntry) (a : Nat) : ({ s with log := x } : State).rd a = s.rd a := rfl
@[simp] theorem State.rd_with_owners (s : State) (x : List OwnerSlot) (a : Nat) : ({ s with owners := x } : State).rd a = s.rd a := rfl
@[simp] theorem State.rd_with_evidence (s : State) (x : List (Nat × W32)) (a : Nat) : ({ s with evidence := x } : State).rd a = s.rd a := rfl
@[simp] theorem State.rd_with_tod (s : State) (x : TimeSt) (a : Nat) : ({ s with tod := x } : State).rd a = s.rd a := rfl
@[simp] theorem State.rd_with_tick (s : State) (x : TickSt) (a : Nat) : ({ s with tick := x } : State).rd a = s.rd a := rfl
@[simp] theorem State.rd_with_clk (s : State) (x : ClockSt) (a : Nat) : ({ s with clk := x } : State).rd a = s.rd a := rfl
@[simp] theorem State.rd_with_ctx (s : State) (x : List CtxRun) (a : Nat) : ({ s with ctx := x } : State).rd a = s.rd a := rfl
@[simp] theorem State.rd_with_ant (s : State) (x : AntSt) (a : Nat) : ({ s with ant := x } : State).rd a = s.rd a := rfl
@[simp] theorem State.rd_with_subst (s : State) (x : SubstSt) (a : Nat) : ({ s with subst := x } : State).rd a = s.rd a := rfl
@[simp] theorem State.rd_with_scarab (s : State) (x : ScarabSt) (a : Nat) : ({ s with scarab := x } : State).rd a = s.rd a := rfl
@[simp] theorem State.rd_with_banks (s : State) (x : MemSt) (a : Nat) : ({ s with banks := x } : State).rd a = s.rd a := rfl
@[simp] theorem State.rd_with_link (s : State) (x : LinkSt) (a : Nat) : ({ s with link := x } : State).rd a = s.rd a := rfl
@[simp] theorem State.rd_with_fe (s : State) (x : FeSt) (a : Nat) : ({ s with fe := x } : State).rd a = s.rd a := rfl
@[simp] theorem State.rd_with_acq (s : State) (x : AcqSt) (a : Nat) : ({ s with acq := x } : State).rd a = s.rd a := rfl
@[simp] theorem State.rd_with_bus (s : State) (x : BusSt) (a : Nat) : ({ s with bus := x } : State).rd a = s.rd a := rfl
@[simp] theorem State.rd_with_twin (s : State) (x : TwinSt) (a : Nat) : ({ s with twin := x } : State).rd a = s.rd a := rfl
@[simp] theorem State.rd_with_pwr (s : State) (x : PwrSt) (a : Nat) : ({ s with pwr := x } : State).rd a = s.rd a := rfl
@[simp] theorem State.rd_with_loader (s : State) (x : LoaderSt) (a : Nat) : ({ s with loader := x } : State).rd a = s.rd a := rfl
@[simp] theorem State.rd_with_warden (s : State) (x : WardenSt) (a : Nat) : ({ s with warden := x } : State).rd a = s.rd a := rfl
@[simp] theorem State.rd_with_free (s : State) (x : Nat) (a : Nat) : ({ s with free := x } : State).rd a = s.rd a := rfl
@[simp] theorem State.rdB_with_pending (s : State) (x : List Instr) (a : Nat) : ({ s with pending := x } : State).rdB a = s.rdB a := rfl
@[simp] theorem State.rdB_with_regs (s : State) (x : SMap W32) (a : Nat) : ({ s with regs := x } : State).rdB a = s.rdB a := rfl
@[simp] theorem State.rdB_with_poison (s : State) (x : List Nat) (a : Nat) : ({ s with poison := x } : State).rdB a = s.rdB a := rfl
@[simp] theorem State.rdB_with_dev (s : State) (x : DevSt) (a : Nat) : ({ s with dev := x } : State).rdB a = s.rdB a := rfl
@[simp] theorem State.rdB_with_host (s : State) (x : HostIf) (a : Nat) : ({ s with host := x } : State).rdB a = s.rdB a := rfl
@[simp] theorem State.rdB_with_windows (s : State) (x : List RepWin) (a : Nat) : ({ s with windows := x } : State).rdB a = s.rdB a := rfl
@[simp] theorem State.rdB_with_log (s : State) (x : List LogEntry) (a : Nat) : ({ s with log := x } : State).rdB a = s.rdB a := rfl
@[simp] theorem State.rdB_with_owners (s : State) (x : List OwnerSlot) (a : Nat) : ({ s with owners := x } : State).rdB a = s.rdB a := rfl
@[simp] theorem State.rdB_with_evidence (s : State) (x : List (Nat × W32)) (a : Nat) : ({ s with evidence := x } : State).rdB a = s.rdB a := rfl
@[simp] theorem State.rdB_with_tod (s : State) (x : TimeSt) (a : Nat) : ({ s with tod := x } : State).rdB a = s.rdB a := rfl
@[simp] theorem State.rdB_with_tick (s : State) (x : TickSt) (a : Nat) : ({ s with tick := x } : State).rdB a = s.rdB a := rfl
@[simp] theorem State.rdB_with_clk (s : State) (x : ClockSt) (a : Nat) : ({ s with clk := x } : State).rdB a = s.rdB a := rfl
@[simp] theorem State.rdB_with_ctx (s : State) (x : List CtxRun) (a : Nat) : ({ s with ctx := x } : State).rdB a = s.rdB a := rfl
@[simp] theorem State.rdB_with_ant (s : State) (x : AntSt) (a : Nat) : ({ s with ant := x } : State).rdB a = s.rdB a := rfl
@[simp] theorem State.rdB_with_subst (s : State) (x : SubstSt) (a : Nat) : ({ s with subst := x } : State).rdB a = s.rdB a := rfl
@[simp] theorem State.rdB_with_scarab (s : State) (x : ScarabSt) (a : Nat) : ({ s with scarab := x } : State).rdB a = s.rdB a := rfl
@[simp] theorem State.rdB_with_banks (s : State) (x : MemSt) (a : Nat) : ({ s with banks := x } : State).rdB a = s.rdB a := rfl
@[simp] theorem State.rdB_with_link (s : State) (x : LinkSt) (a : Nat) : ({ s with link := x } : State).rdB a = s.rdB a := rfl
@[simp] theorem State.rdB_with_fe (s : State) (x : FeSt) (a : Nat) : ({ s with fe := x } : State).rdB a = s.rdB a := rfl
@[simp] theorem State.rdB_with_acq (s : State) (x : AcqSt) (a : Nat) : ({ s with acq := x } : State).rdB a = s.rdB a := rfl
@[simp] theorem State.rdB_with_bus (s : State) (x : BusSt) (a : Nat) : ({ s with bus := x } : State).rdB a = s.rdB a := rfl
@[simp] theorem State.rdB_with_twin (s : State) (x : TwinSt) (a : Nat) : ({ s with twin := x } : State).rdB a = s.rdB a := rfl
@[simp] theorem State.rdB_with_pwr (s : State) (x : PwrSt) (a : Nat) : ({ s with pwr := x } : State).rdB a = s.rdB a := rfl
@[simp] theorem State.rdB_with_loader (s : State) (x : LoaderSt) (a : Nat) : ({ s with loader := x } : State).rdB a = s.rdB a := rfl
@[simp] theorem State.rdB_with_warden (s : State) (x : WardenSt) (a : Nat) : ({ s with warden := x } : State).rdB a = s.rdB a := rfl
@[simp] theorem State.rdB_with_free (s : State) (x : Nat) (a : Nat) : ({ s with free := x } : State).rdB a = s.rdB a := rfl
@[simp] theorem State.wr_pending (s : State) (a : Nat) (v : W32) : (s.wr a v).pending = s.pending := rfl
@[simp] theorem State.wr_mem (s : State) (a : Nat) (v : W32) : (s.wr a v).mem = s.mem := rfl
@[simp] theorem State.wr_poison (s : State) (a : Nat) (v : W32) : (s.wr a v).poison = s.poison := rfl
@[simp] theorem State.wr_dev (s : State) (a : Nat) (v : W32) : (s.wr a v).dev = s.dev := rfl
@[simp] theorem State.wr_host (s : State) (a : Nat) (v : W32) : (s.wr a v).host = s.host := rfl
@[simp] theorem State.wr_windows (s : State) (a : Nat) (v : W32) : (s.wr a v).windows = s.windows := rfl
@[simp] theorem State.wr_log (s : State) (a : Nat) (v : W32) : (s.wr a v).log = s.log := rfl
@[simp] theorem State.wr_owners (s : State) (a : Nat) (v : W32) : (s.wr a v).owners = s.owners := rfl
@[simp] theorem State.wr_evidence (s : State) (a : Nat) (v : W32) : (s.wr a v).evidence = s.evidence := rfl
@[simp] theorem State.wr_tod (s : State) (a : Nat) (v : W32) : (s.wr a v).tod = s.tod := rfl
@[simp] theorem State.wr_tick (s : State) (a : Nat) (v : W32) : (s.wr a v).tick = s.tick := rfl
@[simp] theorem State.wr_clk (s : State) (a : Nat) (v : W32) : (s.wr a v).clk = s.clk := rfl
@[simp] theorem State.wr_ctx (s : State) (a : Nat) (v : W32) : (s.wr a v).ctx = s.ctx := rfl
@[simp] theorem State.wr_ant (s : State) (a : Nat) (v : W32) : (s.wr a v).ant = s.ant := rfl
@[simp] theorem State.wr_subst (s : State) (a : Nat) (v : W32) : (s.wr a v).subst = s.subst := rfl
@[simp] theorem State.wr_scarab (s : State) (a : Nat) (v : W32) : (s.wr a v).scarab = s.scarab := rfl
@[simp] theorem State.wr_banks (s : State) (a : Nat) (v : W32) : (s.wr a v).banks = s.banks := rfl
@[simp] theorem State.wr_link (s : State) (a : Nat) (v : W32) : (s.wr a v).link = s.link := rfl
@[simp] theorem State.wr_fe (s : State) (a : Nat) (v : W32) : (s.wr a v).fe = s.fe := rfl
@[simp] theorem State.wr_acq (s : State) (a : Nat) (v : W32) : (s.wr a v).acq = s.acq := rfl
@[simp] theorem State.wr_bus (s : State) (a : Nat) (v : W32) : (s.wr a v).bus = s.bus := rfl
@[simp] theorem State.wr_twin (s : State) (a : Nat) (v : W32) : (s.wr a v).twin = s.twin := rfl
@[simp] theorem State.wr_pwr (s : State) (a : Nat) (v : W32) : (s.wr a v).pwr = s.pwr := rfl
@[simp] theorem State.wr_loader (s : State) (a : Nat) (v : W32) : (s.wr a v).loader = s.loader := rfl
@[simp] theorem State.wr_warden (s : State) (a : Nat) (v : W32) : (s.wr a v).warden = s.warden := rfl
@[simp] theorem State.wr_free (s : State) (a : Nat) (v : W32) : (s.wr a v).free = s.free := rfl
@[simp] theorem State.wrF_pending (s : State) (a lo n v : Nat) : (s.wrF a lo n v).pending = s.pending := rfl
@[simp] theorem State.wrF_mem (s : State) (a lo n v : Nat) : (s.wrF a lo n v).mem = s.mem := rfl
@[simp] theorem State.wrF_poison (s : State) (a lo n v : Nat) : (s.wrF a lo n v).poison = s.poison := rfl
@[simp] theorem State.wrF_dev (s : State) (a lo n v : Nat) : (s.wrF a lo n v).dev = s.dev := rfl
@[simp] theorem State.wrF_host (s : State) (a lo n v : Nat) : (s.wrF a lo n v).host = s.host := rfl
@[simp] theorem State.wrF_windows (s : State) (a lo n v : Nat) : (s.wrF a lo n v).windows = s.windows := rfl
@[simp] theorem State.wrF_log (s : State) (a lo n v : Nat) : (s.wrF a lo n v).log = s.log := rfl
@[simp] theorem State.wrF_owners (s : State) (a lo n v : Nat) : (s.wrF a lo n v).owners = s.owners := rfl
@[simp] theorem State.wrF_evidence (s : State) (a lo n v : Nat) : (s.wrF a lo n v).evidence = s.evidence := rfl
@[simp] theorem State.wrF_tod (s : State) (a lo n v : Nat) : (s.wrF a lo n v).tod = s.tod := rfl
@[simp] theorem State.wrF_tick (s : State) (a lo n v : Nat) : (s.wrF a lo n v).tick = s.tick := rfl
@[simp] theorem State.wrF_clk (s : State) (a lo n v : Nat) : (s.wrF a lo n v).clk = s.clk := rfl
@[simp] theorem State.wrF_ctx (s : State) (a lo n v : Nat) : (s.wrF a lo n v).ctx = s.ctx := rfl
@[simp] theorem State.wrF_ant (s : State) (a lo n v : Nat) : (s.wrF a lo n v).ant = s.ant := rfl
@[simp] theorem State.wrF_subst (s : State) (a lo n v : Nat) : (s.wrF a lo n v).subst = s.subst := rfl
@[simp] theorem State.wrF_scarab (s : State) (a lo n v : Nat) : (s.wrF a lo n v).scarab = s.scarab := rfl
@[simp] theorem State.wrF_banks (s : State) (a lo n v : Nat) : (s.wrF a lo n v).banks = s.banks := rfl
@[simp] theorem State.wrF_link (s : State) (a lo n v : Nat) : (s.wrF a lo n v).link = s.link := rfl
@[simp] theorem State.wrF_fe (s : State) (a lo n v : Nat) : (s.wrF a lo n v).fe = s.fe := rfl
@[simp] theorem State.wrF_acq (s : State) (a lo n v : Nat) : (s.wrF a lo n v).acq = s.acq := rfl
@[simp] theorem State.wrF_bus (s : State) (a lo n v : Nat) : (s.wrF a lo n v).bus = s.bus := rfl
@[simp] theorem State.wrF_twin (s : State) (a lo n v : Nat) : (s.wrF a lo n v).twin = s.twin := rfl
@[simp] theorem State.wrF_pwr (s : State) (a lo n v : Nat) : (s.wrF a lo n v).pwr = s.pwr := rfl
@[simp] theorem State.wrF_loader (s : State) (a lo n v : Nat) : (s.wrF a lo n v).loader = s.loader := rfl
@[simp] theorem State.wrF_warden (s : State) (a lo n v : Nat) : (s.wrF a lo n v).warden = s.warden := rfl
@[simp] theorem State.wrF_free (s : State) (a lo n v : Nat) : (s.wrF a lo n v).free = s.free := rfl
@[simp] theorem State.bump_pending (s : State) (a : Nat) : (s.bump a).pending = s.pending := rfl
@[simp] theorem State.bump_mem (s : State) (a : Nat) : (s.bump a).mem = s.mem := rfl
@[simp] theorem State.bump_poison (s : State) (a : Nat) : (s.bump a).poison = s.poison := rfl
@[simp] theorem State.bump_dev (s : State) (a : Nat) : (s.bump a).dev = s.dev := rfl
@[simp] theorem State.bump_host (s : State) (a : Nat) : (s.bump a).host = s.host := rfl
@[simp] theorem State.bump_windows (s : State) (a : Nat) : (s.bump a).windows = s.windows := rfl
@[simp] theorem State.bump_log (s : State) (a : Nat) : (s.bump a).log = s.log := rfl
@[simp] theorem State.bump_owners (s : State) (a : Nat) : (s.bump a).owners = s.owners := rfl
@[simp] theorem State.bump_evidence (s : State) (a : Nat) : (s.bump a).evidence = s.evidence := rfl
@[simp] theorem State.bump_tod (s : State) (a : Nat) : (s.bump a).tod = s.tod := rfl
@[simp] theorem State.bump_tick (s : State) (a : Nat) : (s.bump a).tick = s.tick := rfl
@[simp] theorem State.bump_clk (s : State) (a : Nat) : (s.bump a).clk = s.clk := rfl
@[simp] theorem State.bump_ctx (s : State) (a : Nat) : (s.bump a).ctx = s.ctx := rfl
@[simp] theorem State.bump_ant (s : State) (a : Nat) : (s.bump a).ant = s.ant := rfl
@[simp] theorem State.bump_subst (s : State) (a : Nat) : (s.bump a).subst = s.subst := rfl
@[simp] theorem State.bump_scarab (s : State) (a : Nat) : (s.bump a).scarab = s.scarab := rfl
@[simp] theorem State.bump_banks (s : State) (a : Nat) : (s.bump a).banks = s.banks := rfl
@[simp] theorem State.bump_link (s : State) (a : Nat) : (s.bump a).link = s.link := rfl
@[simp] theorem State.bump_fe (s : State) (a : Nat) : (s.bump a).fe = s.fe := rfl
@[simp] theorem State.bump_acq (s : State) (a : Nat) : (s.bump a).acq = s.acq := rfl
@[simp] theorem State.bump_bus (s : State) (a : Nat) : (s.bump a).bus = s.bus := rfl
@[simp] theorem State.bump_twin (s : State) (a : Nat) : (s.bump a).twin = s.twin := rfl
@[simp] theorem State.bump_pwr (s : State) (a : Nat) : (s.bump a).pwr = s.pwr := rfl
@[simp] theorem State.bump_loader (s : State) (a : Nat) : (s.bump a).loader = s.loader := rfl
@[simp] theorem State.bump_warden (s : State) (a : Nat) : (s.bump a).warden = s.warden := rfl
@[simp] theorem State.bump_free (s : State) (a : Nat) : (s.bump a).free = s.free := rfl
@[simp] theorem State.wrB_pending (s : State) (a : Nat) (b : W8) : (s.wrB a b).pending = s.pending := rfl
@[simp] theorem State.wrB_regs (s : State) (a : Nat) (b : W8) : (s.wrB a b).regs = s.regs := rfl
@[simp] theorem State.wrB_poison (s : State) (a : Nat) (b : W8) : (s.wrB a b).poison = s.poison := rfl
@[simp] theorem State.wrB_dev (s : State) (a : Nat) (b : W8) : (s.wrB a b).dev = s.dev := rfl
@[simp] theorem State.wrB_host (s : State) (a : Nat) (b : W8) : (s.wrB a b).host = s.host := rfl
@[simp] theorem State.wrB_windows (s : State) (a : Nat) (b : W8) : (s.wrB a b).windows = s.windows := rfl
@[simp] theorem State.wrB_log (s : State) (a : Nat) (b : W8) : (s.wrB a b).log = s.log := rfl
@[simp] theorem State.wrB_owners (s : State) (a : Nat) (b : W8) : (s.wrB a b).owners = s.owners := rfl
@[simp] theorem State.wrB_evidence (s : State) (a : Nat) (b : W8) : (s.wrB a b).evidence = s.evidence := rfl
@[simp] theorem State.wrB_tod (s : State) (a : Nat) (b : W8) : (s.wrB a b).tod = s.tod := rfl
@[simp] theorem State.wrB_tick (s : State) (a : Nat) (b : W8) : (s.wrB a b).tick = s.tick := rfl
@[simp] theorem State.wrB_clk (s : State) (a : Nat) (b : W8) : (s.wrB a b).clk = s.clk := rfl
@[simp] theorem State.wrB_ctx (s : State) (a : Nat) (b : W8) : (s.wrB a b).ctx = s.ctx := rfl
@[simp] theorem State.wrB_ant (s : State) (a : Nat) (b : W8) : (s.wrB a b).ant = s.ant := rfl
@[simp] theorem State.wrB_subst (s : State) (a : Nat) (b : W8) : (s.wrB a b).subst = s.subst := rfl
@[simp] theorem State.wrB_scarab (s : State) (a : Nat) (b : W8) : (s.wrB a b).scarab = s.scarab := rfl
@[simp] theorem State.wrB_banks (s : State) (a : Nat) (b : W8) : (s.wrB a b).banks = s.banks := rfl
@[simp] theorem State.wrB_link (s : State) (a : Nat) (b : W8) : (s.wrB a b).link = s.link := rfl
@[simp] theorem State.wrB_fe (s : State) (a : Nat) (b : W8) : (s.wrB a b).fe = s.fe := rfl
@[simp] theorem State.wrB_acq (s : State) (a : Nat) (b : W8) : (s.wrB a b).acq = s.acq := rfl
@[simp] theorem State.wrB_bus (s : State) (a : Nat) (b : W8) : (s.wrB a b).bus = s.bus := rfl
@[simp] theorem State.wrB_twin (s : State) (a : Nat) (b : W8) : (s.wrB a b).twin = s.twin := rfl
@[simp] theorem State.wrB_pwr (s : State) (a : Nat) (b : W8) : (s.wrB a b).pwr = s.pwr := rfl
@[simp] theorem State.wrB_loader (s : State) (a : Nat) (b : W8) : (s.wrB a b).loader = s.loader := rfl
@[simp] theorem State.wrB_warden (s : State) (a : Nat) (b : W8) : (s.wrB a b).warden = s.warden := rfl
@[simp] theorem State.wrB_free (s : State) (a : Nat) (b : W8) : (s.wrB a b).free = s.free := rfl

/-- A register reads as what was written to it. -/
@[simp] theorem State.rd_wr_same (s : State) (a : Nat) (v : W32) : (s.wr a v).rd a = v :=
  SMap.get_set_same _ _ _ _

/-- A write leaves every other register. -/
theorem State.rd_wr_other (s : State) (a b : Nat) (v : W32) (h : b ≠ a) : (s.wr a v).rd b = s.rd b :=
  SMap.get_set_other _ _ _ _ _ _ h

theorem State.rd_wr (s : State) (a b : Nat) (v : W32) : (s.wr a v).rd b = if b = a then v else s.rd b := by
  by_cases h : b = a
  · subst h; simp
  · rw [if_neg h, State.rd_wr_other s a b v h]

theorem State.rd_wrF (s : State) (a lo n v b : Nat) :
    (s.wrF a lo n v).rd b = if b = a then setFld (s.rd a) lo n v else s.rd b := State.rd_wr s a b _

theorem State.rd_bump (s : State) (a b : Nat) : (s.bump a).rd b = if b = a then satInc (s.rd a) else s.rd b :=
  State.rd_wr s a b _

/-- A byte reads as what was written to it. -/
@[simp] theorem State.rdB_wrB_same (s : State) (a : Nat) (b : W8) : (s.wrB a b).rdB a = b :=
  SMap.get_set_same _ _ _ _

/-- A write leaves every other byte. -/
theorem State.rdB_wrB_other (s : State) (a c : Nat) (b : W8) (h : c ≠ a) : (s.wrB a b).rdB c = s.rdB c :=
  SMap.get_set_other _ _ _ _ _ _ h

@[simp] theorem State.rdB_wr (s : State) (a b : Nat) (v : W32) : (s.wr a v).rdB b = s.rdB b := rfl

@[simp] theorem State.rd_wrB (s : State) (a b : Nat) (v : W8) : (s.wrB a v).rd b = s.rd b := rfl

/-- A register write keeps the canonical form of the registers. -/
theorem State.regs_wf_wr (s : State) (a : Nat) (v : W32) (h : Registers.wf s.regs = true) :
    Registers.wf (s.wr a v).regs = true := SMap.wf_set regReset s.regs a v h

/-- A byte write keeps the canonical form of the memory. -/
theorem State.mem_wf_wrB (s : State) (a : Nat) (b : W8) (h : Memory.wf s.mem = true) :
    Memory.wf (s.wrB a b).mem = true := SMap.wf_set (fun _ => Memory.unlisted) s.mem a b h

/-- Writing a run of bytes keeps the canonical form of the memory. -/
theorem State.mem_wf_wrBytes (s : State) (a : Nat) (l : List W8) (h : Memory.wf s.mem = true) :
    Memory.wf (s.wrBytes a l).mem = true := by
  induction l generalizing s a with
  | nil => exact h
  | cons b r ih => exact ih (s.wrB a b) (a + 1) (State.mem_wf_wrB s a b h)

/-- Writing listed bytes keeps the canonical form of the memory. -/
theorem State.mem_wf_wrCells (s : State) (l : List (Nat × W8)) (h : Memory.wf s.mem = true) :
    Memory.wf (s.wrCells l).mem = true := by
  unfold State.wrCells
  induction l generalizing s with
  | nil => exact h
  | cons e r ih => exact ih (s.wrB e.1 e.2) (State.mem_wf_wrB s e.1 e.2 h)

/-- Clearing a range keeps the canonical form of the memory. -/
theorem State.mem_wf_zero (s : State) (a n : Nat) (h : Memory.wf s.mem = true) : Memory.wf (s.zero a n).mem = true :=
  SMap.wf_filter _ _ _ h

end Sys2Proof.Machine
end

