-- ==== Sys2Proof/Laws/Memory.lean ====
section
/-! SUPPORT. Memory: a read after a write gives what was written, and a write leaves every other place alone; for bytes, byte
lists and little-endian numbers. -/

namespace Sys2Proof.Machine

theorem State.wrBytes_mem (s t : State) (a : Nat) (l : List W8) (h : s.mem = t.mem) :
    (s.wrBytes a l).mem = (t.wrBytes a l).mem := by
  induction l generalizing s t a with
  | nil => exact h
  | cons b r ih => exact ih (s.wrB a b) (t.wrB a b) (a + 1) (by unfold State.wrB; rw [h])

/-- Writing bytes changes the memory alone. -/
theorem State.wrBytes_eq (s : State) (a : Nat) (l : List W8) : s.wrBytes a l = { s with mem := (s.wrBytes a l).mem } := by
  induction l generalizing s a with
  | nil => rfl
  | cons b r ih => exact ih (s.wrB a b) (a + 1)

theorem State.rdB_wrBytes_out (s : State) (a x : Nat) (l : List W8) (h : x < a ∨ a + l.length ≤ x) :
    (s.wrBytes a l).rdB x = s.rdB x := by
  induction l generalizing s a with
  | nil => rfl
  | cons b r ih =>
    rw [List.length_cons] at h
    show ((s.wrB a b).wrBytes (a + 1) r).rdB x = s.rdB x
    rw [ih (s.wrB a b) (a + 1) (by omega)]
    exact State.rdB_wrB_other s a x b (by omega)

theorem State.rdB_wrBytes_in (s : State) (a i : Nat) (l : List W8) (h : i < l.length) :
    (s.wrBytes a l).rdB (a + i) = l.getD i 0 := by
  induction l generalizing s a i with
  | nil => exact absurd h (Nat.not_lt_zero i)
  | cons b r ih =>
    show ((s.wrB a b).wrBytes (a + 1) r).rdB (a + i) = (b :: r).getD i 0
    cases i with
    | zero =>
      rw [State.rdB_wrBytes_out _ _ _ _ (by omega)]
      exact State.rdB_wrB_same s a b
    | succ j =>
      have e : a + (j + 1) = a + 1 + j := by omega
      rw [e, ih (s.wrB a b) (a + 1) j (by simpa using h)]
      rfl

theorem bytesLE_length (n v : Nat) : (bytesLE n v).length = n := by
  induction n generalizing v with
  | zero => rfl
  | succ n ih => exact congrArg (· + 1) (ih (v / 256))

theorem ofBytesLE_bytesLE (n v : Nat) : ofBytesLE (bytesLE n v) = v % 256 ^ n := by
  induction n generalizing v with
  | zero => simp [bytesLE, ofBytesLE, Nat.mod_one]
  | succ n ih =>
    show (BitVec.ofNat 8 v).toNat + 256 * ofBytesLE (bytesLE n (v / 256)) = v % 256 ^ (n + 1)
    have e : 256 ^ (n + 1) = 256 * 256 ^ n := by rw [Nat.pow_succ, Nat.mul_comm]
    rw [ih, BitVec.toNat_ofNat, e, Nat.mod_mul]

theorem State.rdBytes_wrBytes_same (s : State) (a : Nat) (l : List W8) : (s.wrBytes a l).rdBytes a l.length = l := by
  apply List.ext_getElem
  · simp [State.rdBytes]
  · intro i h1 h2
    have h3 := State.rdB_wrBytes_in s a i l h2
    simpa [State.rdBytes, List.getD_eq_getElem?_getD, List.getElem?_eq_getElem h2] using h3

theorem State.rdBytes_congr (s t : State) (a n : Nat) (h : ∀ x, a ≤ x → x < a + n → t.rdB x = s.rdB x) :
    t.rdBytes a n = s.rdBytes a n := by
  unfold State.rdBytes
  apply List.map_congr_left
  intro i hi
  rw [List.mem_range] at hi
  exact h (a + i) (by omega) (by omega)

theorem State.rdBytes_wrBytes_other (s : State) (a x n : Nat) (l : List W8) (h : x + n ≤ a ∨ a + l.length ≤ x) :
    (s.wrBytes a l).rdBytes x n = s.rdBytes x n :=
  State.rdBytes_congr s _ x n (fun y h1 h2 => State.rdB_wrBytes_out s a y l (by omega))

/-- A number read where it was written. -/
theorem State.rdLE_wrLE_same (s : State) (a n v : Nat) : (s.wrLE a n v).rdLE a n = v % 256 ^ n := by
  have h := State.rdBytes_wrBytes_same s a (bytesLE n v)
  rw [bytesLE_length] at h
  show ofBytesLE ((s.wrBytes a (bytesLE n v)).rdBytes a n) = v % 256 ^ n
  rw [h, ofBytesLE_bytesLE]

/-- A number read elsewhere. -/
theorem State.rdLE_wrLE_other (s : State) (a n v x m : Nat) (h : x + m ≤ a ∨ a + n ≤ x) : (s.wrLE a n v).rdLE x m = s.rdLE x m := by
  show ofBytesLE ((s.wrBytes a (bytesLE n v)).rdBytes x m) = ofBytesLE (s.rdBytes x m)
  rw [State.rdBytes_wrBytes_other s a x m _ (by rw [bytesLE_length]; exact h)]

theorem State.rdB_wrLE_other (s : State) (a n v x : Nat) (h : x < a ∨ a + n ≤ x) : (s.wrLE a n v).rdB x = s.rdB x :=
  State.rdB_wrBytes_out s a x _ (by rw [bytesLE_length]; exact h)

/-- Writing a number changes the memory alone. -/
theorem State.wrLE_eq (s : State) (a n v : Nat) : s.wrLE a n v = { s with mem := (s.wrLE a n v).mem } :=
  State.wrBytes_eq s a (bytesLE n v)

theorem State.wrLE_regs (s : State) (a n v : Nat) : (s.wrLE a n v).regs = s.regs := by rw [State.wrLE_eq]

@[simp] theorem State.rd_wrLE (s : State) (a n v x : Nat) : (s.wrLE a n v).rd x = s.rd x := by
  unfold State.rd; rw [State.wrLE_regs]

theorem State.setPoison_eq (s : State) (a n : Nat) (p : Bool) : s.setPoison a n p = { s with poison := (s.setPoison a n p).poison } := rfl

@[simp] theorem State.rd_setPoison (s : State) (a n : Nat) (p : Bool) (x : Nat) : (s.setPoison a n p).rd x = s.rd x := rfl

@[simp] theorem State.rdB_setPoison (s : State) (a n : Nat) (p : Bool) (x : Nat) : (s.setPoison a n p).rdB x = s.rdB x := rfl

@[simp] theorem State.rdLE_setPoison (s : State) (a n : Nat) (p : Bool) (x m : Nat) : (s.setPoison a n p).rdLE x m = s.rdLE x m := rfl

end Sys2Proof.Machine
end

