-- ==== Sys2Proof/Laws/Ops.lean ====
section
/-! SUPPORT. What each shared operation can do, said once: interrupts, replies, completions, the end of a step, and the judging of a
command packet. -/

namespace Sys2Proof.Machine

@[simp] theorem State.irq_pending (s : State) (n : Nat) : (s.irq n).pending = s.pending := by
  unfold State.irq; dsimp only; split
  · rfl
  · split <;> rfl
@[simp] theorem State.irq_mem (s : State) (n : Nat) : (s.irq n).mem = s.mem := by
  unfold State.irq; dsimp only; split
  · rfl
  · split <;> rfl
@[simp] theorem State.irq_poison (s : State) (n : Nat) : (s.irq n).poison = s.poison := by
  unfold State.irq; dsimp only; split
  · rfl
  · split <;> rfl
@[simp] theorem State.irq_dev (s : State) (n : Nat) : (s.irq n).dev = s.dev := by
  unfold State.irq; dsimp only; split
  · rfl
  · split <;> rfl
@[simp] theorem State.irq_windows (s : State) (n : Nat) : (s.irq n).windows = s.windows := by
  unfold State.irq; dsimp only; split
  · rfl
  · split <;> rfl
@[simp] theorem State.irq_log (s : State) (n : Nat) : (s.irq n).log = s.log := by
  unfold State.irq; dsimp only; split
  · rfl
  · split <;> rfl
@[simp] theorem State.irq_owners (s : State) (n : Nat) : (s.irq n).owners = s.owners := by
  unfold State.irq; dsimp only; split
  · rfl
  · split <;> rfl
@[simp] theorem State.irq_evidence (s : State) (n : Nat) : (s.irq n).evidence = s.evidence := by
  unfold State.irq; dsimp only; split
  · rfl
  · split <;> rfl
@[simp] theorem State.irq_tod (s : State) (n : Nat) : (s.irq n).tod = s.tod := by
  unfold State.irq; dsimp only; split
  · rfl
  · split <;> rfl
@[simp] theorem State.irq_tick (s : State) (n : Nat) : (s.irq n).tick = s.tick := by
  unfold State.irq; dsimp only; split
  · rfl
  · split <;> rfl
@[simp] theorem State.irq_clk (s : State) (n : Nat) : (s.irq n).clk = s.clk := by
  unfold State.irq; dsimp only; split
  · rfl
  · split <;> rfl
@[simp] theorem State.irq_ctx (s : State) (n : Nat) : (s.irq n).ctx = s.ctx := by
  unfold State.irq; dsimp only; split
  · rfl
  · split <;> rfl
@[simp] theorem State.irq_ant (s : State) (n : Nat) : (s.irq n).ant = s.ant := by
  unfold State.irq; dsimp only; split
  · rfl
  · split <;> rfl
@[simp] theorem State.irq_subst (s : State) (n : Nat) : (s.irq n).subst = s.subst := by
  unfold State.irq; dsimp only; split
  · rfl
  · split <;> rfl
@[simp] theorem State.irq_scarab (s : State) (n : Nat) : (s.irq n).scarab = s.scarab := by
  unfold State.irq; dsimp only; split
  · rfl
  · split <;> rfl
@[simp] theorem State.irq_banks (s : State) (n : Nat) : (s.irq n).banks = s.banks := by
  unfold State.irq; dsimp only; split
  · rfl
  · split <;> rfl
@[simp] theorem State.irq_link (s : State) (n : Nat) : (s.irq n).link = s.link := by
  unfold State.irq; dsimp only; split
  · rfl
  · split <;> rfl
@[simp] theorem State.irq_fe (s : State) (n : Nat) : (s.irq n).fe = s.fe := by
  unfold State.irq; dsimp only; split
  · rfl
  · split <;> rfl
@[simp] theorem State.irq_acq (s : State) (n : Nat) : (s.irq n).acq = s.acq := by
  unfold State.irq; dsimp only; split
  · rfl
  · split <;> rfl
@[simp] theorem State.irq_bus (s : State) (n : Nat) : (s.irq n).bus = s.bus := by
  unfold State.irq; dsimp only; split
  · rfl
  · split <;> rfl
@[simp] theorem State.irq_twin (s : State) (n : Nat) : (s.irq n).twin = s.twin := by
  unfold State.irq; dsimp only; split
  · rfl
  · split <;> rfl
@[simp] theorem State.irq_pwr (s : State) (n : Nat) : (s.irq n).pwr = s.pwr := by
  unfold State.irq; dsimp only; split
  · rfl
  · split <;> rfl
@[simp] theorem State.irq_loader (s : State) (n : Nat) : (s.irq n).loader = s.loader := by
  unfold State.irq; dsimp only; split
  · rfl
  · split <;> rfl
@[simp] theorem State.irq_warden (s : State) (n : Nat) : (s.irq n).warden = s.warden := by
  unfold State.irq; dsimp only; split
  · rfl
  · split <;> rfl
@[simp] theorem State.irq_free (s : State) (n : Nat) : (s.irq n).free = s.free := by
  unfold State.irq; dsimp only; split
  · rfl
  · split <;> rfl

/-- An interrupt changes no register but IRQ_STATUS. -/
theorem State.rd_irq (s : State) (n a : Nat) (h : a ≠ Reg.irqStatus) : (s.irq n).rd a = s.rd a := by
  unfold State.irq; dsimp only
  split
  · rfl
  · split
    · exact State.rd_wr_other s Reg.irqStatus a _ h
    · exact State.rd_wr_other s Reg.irqStatus a _ h

@[simp] theorem State.rdB_irq (s : State) (n a : Nat) : (s.irq n).rdB a = s.rdB a := by
  unfold State.rdB; rw [State.irq_mem]

/-- An interrupt sends no reply and ends no command. -/
theorem State.irq_host (s : State) (n : Nat) : (s.irq n).host = { s.host with msi := (s.irq n).host.msi } := by
  unfold State.irq; dsimp only
  split
  · rfl
  · split <;> rfl

@[simp] theorem State.irq_async (s : State) (n : Nat) : (s.irq n).host.async = s.host.async := by rw [State.irq_host]
@[simp] theorem State.irq_replies (s : State) (n : Nat) : (s.irq n).host.replies = s.host.replies := by rw [State.irq_host]
@[simp] theorem State.irq_held (s : State) (n : Nat) : (s.irq n).host.held = s.host.held := by rw [State.irq_host]
@[simp] theorem State.irq_spiReplies (s : State) (n : Nat) : (s.irq n).host.spiReplies = s.host.spiReplies := by rw [State.irq_host]
@[simp] theorem State.irq_inbandReplies (s : State) (n : Nat) : (s.irq n).host.inbandReplies = s.host.inbandReplies := by
  rw [State.irq_host]

@[simp] theorem State.irq_outbox (s : State) (n : Nat) (tr : Transport) : (s.irq n).outbox tr = s.outbox tr := by
  cases tr <;> simp [State.outbox]

@[simp] theorem State.toRing_pending (s : State) (r : Reply) : (s.toRing r).pending = s.pending := by
  unfold State.toRing; dsimp only; split
  · simp [State.wrF]
  · rfl
@[simp] theorem State.toRing_mem (s : State) (r : Reply) : (s.toRing r).mem = s.mem := by
  unfold State.toRing; dsimp only; split
  · simp [State.wrF]
  · rfl
@[simp] theorem State.toRing_poison (s : State) (r : Reply) : (s.toRing r).poison = s.poison := by
  unfold State.toRing; dsimp only; split
  · simp [State.wrF]
  · rfl
@[simp] theorem State.toRing_dev (s : State) (r : Reply) : (s.toRing r).dev = s.dev := by
  unfold State.toRing; dsimp only; split
  · simp [State.wrF]
  · rfl
@[simp] theorem State.toRing_windows (s : State) (r : Reply) : (s.toRing r).windows = s.windows := by
  unfold State.toRing; dsimp only; split
  · simp [State.wrF]
  · rfl
@[simp] theorem State.toRing_log (s : State) (r : Reply) : (s.toRing r).log = s.log := by
  unfold State.toRing; dsimp only; split
  · simp [State.wrF]
  · rfl
@[simp] theorem State.toRing_owners (s : State) (r : Reply) : (s.toRing r).owners = s.owners := by
  unfold State.toRing; dsimp only; split
  · simp [State.wrF]
  · rfl
@[simp] theorem State.toRing_evidence (s : State) (r : Reply) : (s.toRing r).evidence = s.evidence := by
  unfold State.toRing; dsimp only; split
  · simp [State.wrF]
  · rfl
@[simp] theorem State.toRing_tod (s : State) (r : Reply) : (s.toRing r).tod = s.tod := by
  unfold State.toRing; dsimp only; split
  · simp [State.wrF]
  · rfl
@[simp] theorem State.toRing_tick (s : State) (r : Reply) : (s.toRing r).tick = s.tick := by
  unfold State.toRing; dsimp only; split
  · simp [State.wrF]
  · rfl
@[simp] theorem State.toRing_clk (s : State) (r : Reply) : (s.toRing r).clk = s.clk := by
  unfold State.toRing; dsimp only; split
  · simp [State.wrF]
  · rfl
@[simp] theorem State.toRing_ctx (s : State) (r : Reply) : (s.toRing r).ctx = s.ctx := by
  unfold State.toRing; dsimp only; split
  · simp [State.wrF]
  · rfl
@[simp] theorem State.toRing_ant (s : State) (r : Reply) : (s.toRing r).ant = s.ant := by
  unfold State.toRing; dsimp only; split
  · simp [State.wrF]
  · rfl
@[simp] theorem State.toRing_subst (s : State) (r : Reply) : (s.toRing r).subst = s.subst := by
  unfold State.toRing; dsimp only; split
  · simp [State.wrF]
  · rfl
@[simp] theorem State.toRing_scarab (s : State) (r : Reply) : (s.toRing r).scarab = s.scarab := by
  unfold State.toRing; dsimp only; split
  · simp [State.wrF]
  · rfl
@[simp] theorem State.toRing_banks (s : State) (r : Reply) : (s.toRing r).banks = s.banks := by
  unfold State.toRing; dsimp only; split
  · simp [State.wrF]
  · rfl
@[simp] theorem State.toRing_link (s : State) (r : Reply) : (s.toRing r).link = s.link := by
  unfold State.toRing; dsimp only; split
  · simp [State.wrF]
  · rfl
@[simp] theorem State.toRing_fe (s : State) (r : Reply) : (s.toRing r).fe = s.fe := by
  unfold State.toRing; dsimp only; split
  · simp [State.wrF]
  · rfl
@[simp] theorem State.toRing_acq (s : State) (r : Reply) : (s.toRing r).acq = s.acq := by
  unfold State.toRing; dsimp only; split
  · simp [State.wrF]
  · rfl
@[simp] theorem State.toRing_bus (s : State) (r : Reply) : (s.toRing r).bus = s.bus := by
  unfold State.toRing; dsimp only; split
  · simp [State.wrF]
  · rfl
@[simp] theorem State.toRing_twin (s : State) (r : Reply) : (s.toRing r).twin = s.twin := by
  unfold State.toRing; dsimp only; split
  · simp [State.wrF]
  · rfl
@[simp] theorem State.toRing_pwr (s : State) (r : Reply) : (s.toRing r).pwr = s.pwr := by
  unfold State.toRing; dsimp only; split
  · simp [State.wrF]
  · rfl
@[simp] theorem State.toRing_loader (s : State) (r : Reply) : (s.toRing r).loader = s.loader := by
  unfold State.toRing; dsimp only; split
  · simp [State.wrF]
  · rfl
@[simp] theorem State.toRing_warden (s : State) (r : Reply) : (s.toRing r).warden = s.warden := by
  unfold State.toRing; dsimp only; split
  · simp [State.wrF]
  · rfl
@[simp] theorem State.toRing_free (s : State) (r : Reply) : (s.toRing r).free = s.free := by
  unfold State.toRing; dsimp only; split
  · simp [State.wrF]
  · rfl

/-- The ring takes a reply, or it is held: either way it comes last. -/
theorem State.toRing_outbox (s : State) (r : Reply) : (s.toRing r).outbox .pcie = s.outbox .pcie ++ [r] := by
  unfold State.toRing; dsimp only; split
  · next h1 h2 h3 =>
    have : s.host.held = [] := by simpa using h2
    simp [State.outbox, State.wrF, this]
  · simp [State.outbox]

theorem State.rd_toRing (s : State) (r : Reply) (a : Nat) (h : a ∉ replyRegs) : (s.toRing r).rd a = s.rd a := by
  simp only [replyRegs, List.mem_cons, List.not_mem_nil, or_false, not_or] at h
  unfold State.toRing; dsimp only; split
  · rw [State.rd_irq _ _ _ h.2, State.rd_wrF, if_neg h.1]; rfl
  · rfl

@[simp] theorem State.toRing_async (s : State) (r : Reply) : (s.toRing r).host.async = s.host.async := by
  unfold State.toRing; dsimp only; split
  · simp [State.wrF]
  · rfl

@[simp] theorem State.toRing_spiReplies (s : State) (r : Reply) : (s.toRing r).host.spiReplies = s.host.spiReplies := by
  unfold State.toRing; dsimp only; split
  · simp [State.wrF]
  · rfl

@[simp] theorem State.toRing_inbandReplies (s : State) (r : Reply) : (s.toRing r).host.inbandReplies = s.host.inbandReplies := by
  unfold State.toRing; dsimp only; split
  · simp [State.wrF]
  · rfl

@[simp] theorem State.send_pending (s : State) (r : Reply) : (s.send r).pending = s.pending := by
  unfold State.send; split
  · simp
  · rfl
  · rfl
@[simp] theorem State.send_mem (s : State) (r : Reply) : (s.send r).mem = s.mem := by
  unfold State.send; split
  · simp
  · rfl
  · rfl
@[simp] theorem State.send_poison (s : State) (r : Reply) : (s.send r).poison = s.poison := by
  unfold State.send; split
  · simp
  · rfl
  · rfl
@[simp] theorem State.send_dev (s : State) (r : Reply) : (s.send r).dev = s.dev := by
  unfold State.send; split
  · simp
  · rfl
  · rfl
@[simp] theorem State.send_windows (s : State) (r : Reply) : (s.send r).windows = s.windows := by
  unfold State.send; split
  · simp
  · rfl
  · rfl
@[simp] theorem State.send_log (s : State) (r : Reply) : (s.send r).log = s.log := by
  unfold State.send; split
  · simp
  · rfl
  · rfl
@[simp] theorem State.send_owners (s : State) (r : Reply) : (s.send r).owners = s.owners := by
  unfold State.send; split
  · simp
  · rfl
  · rfl
@[simp] theorem State.send_evidence (s : State) (r : Reply) : (s.send r).evidence = s.evidence := by
  unfold State.send; split
  · simp
  · rfl
  · rfl
@[simp] theorem State.send_tod (s : State) (r : Reply) : (s.send r).tod = s.tod := by
  unfold State.send; split
  · simp
  · rfl
  · rfl
@[simp] theorem State.send_tick (s : State) (r : Reply) : (s.send r).tick = s.tick := by
  unfold State.send; split
  · simp
  · rfl
  · rfl
@[simp] theorem State.send_clk (s : State) (r : Reply) : (s.send r).clk = s.clk := by
  unfold State.send; split
  · simp
  · rfl
  · rfl
@[simp] theorem State.send_ctx (s : State) (r : Reply) : (s.send r).ctx = s.ctx := by
  unfold State.send; split
  · simp
  · rfl
  · rfl
@[simp] theorem State.send_ant (s : State) (r : Reply) : (s.send r).ant = s.ant := by
  unfold State.send; split
  · simp
  · rfl
  · rfl
@[simp] theorem State.send_subst (s : State) (r : Reply) : (s.send r).subst = s.subst := by
  unfold State.send; split
  · simp
  · rfl
  · rfl
@[simp] theorem State.send_scarab (s : State) (r : Reply) : (s.send r).scarab = s.scarab := by
  unfold State.send; split
  · simp
  · rfl
  · rfl
@[simp] theorem State.send_banks (s : State) (r : Reply) : (s.send r).banks = s.banks := by
  unfold State.send; split
  · simp
  · rfl
  · rfl
@[simp] theorem State.send_link (s : State) (r : Reply) : (s.send r).link = s.link := by
  unfold State.send; split
  · simp
  · rfl
  · rfl
@[simp] theorem State.send_fe (s : State) (r : Reply) : (s.send r).fe = s.fe := by
  unfold State.send; split
  · simp
  · rfl
  · rfl
@[simp] theorem State.send_acq (s : State) (r : Reply) : (s.send r).acq = s.acq := by
  unfold State.send; split
  · simp
  · rfl
  · rfl
@[simp] theorem State.send_bus (s : State) (r : Reply) : (s.send r).bus = s.bus := by
  unfold State.send; split
  · simp
  · rfl
  · rfl
@[simp] theorem State.send_twin (s : State) (r : Reply) : (s.send r).twin = s.twin := by
  unfold State.send; split
  · simp
  · rfl
  · rfl
@[simp] theorem State.send_pwr (s : State) (r : Reply) : (s.send r).pwr = s.pwr := by
  unfold State.send; split
  · simp
  · rfl
  · rfl
@[simp] theorem State.send_loader (s : State) (r : Reply) : (s.send r).loader = s.loader := by
  unfold State.send; split
  · simp
  · rfl
  · rfl
@[simp] theorem State.send_warden (s : State) (r : Reply) : (s.send r).warden = s.warden := by
  unfold State.send; split
  · simp
  · rfl
  · rfl
@[simp] theorem State.send_free (s : State) (r : Reply) : (s.send r).free = s.free := by
  unfold State.send; split
  · simp
  · rfl
  · rfl

/-- A reply goes out last on its transport. -/
theorem State.send_outbox (s : State) (r : Reply) : (s.send r).outbox r.transport = s.outbox r.transport ++ [r] := by
  unfold State.send
  split
  · next h => rw [h]; exact State.toRing_outbox s r
  · next h => rw [h]; rfl
  · next g src h => rw [h]; simp [State.outbox]

/-- Sending a reply changes RPL_TAIL and IRQ_STATUS at most. -/
theorem State.rd_send (s : State) (r : Reply) (a : Nat) (h : a ∉ replyRegs) : (s.send r).rd a = s.rd a := by
  unfold State.send
  split
  · exact State.rd_toRing s r a h
  · rfl
  · rfl

@[simp] theorem State.send_async (s : State) (r : Reply) : (s.send r).host.async = s.host.async := by
  unfold State.send
  split
  · exact State.toRing_async s r
  · rfl
  · rfl

@[simp] theorem State.reply_pending (s : State) (tr : Transport) (tag op : Nat) (c : Bool) (st : Nat) (p : List W32) : (s.reply tr tag op c st p).pending = s.pending := State.send_pending _ _
@[simp] theorem State.reply_mem (s : State) (tr : Transport) (tag op : Nat) (c : Bool) (st : Nat) (p : List W32) : (s.reply tr tag op c st p).mem = s.mem := State.send_mem _ _
@[simp] theorem State.reply_poison (s : State) (tr : Transport) (tag op : Nat) (c : Bool) (st : Nat) (p : List W32) : (s.reply tr tag op c st p).poison = s.poison := State.send_poison _ _
@[simp] theorem State.reply_dev (s : State) (tr : Transport) (tag op : Nat) (c : Bool) (st : Nat) (p : List W32) : (s.reply tr tag op c st p).dev = s.dev := State.send_dev _ _
@[simp] theorem State.reply_windows (s : State) (tr : Transport) (tag op : Nat) (c : Bool) (st : Nat) (p : List W32) : (s.reply tr tag op c st p).windows = s.windows := State.send_windows _ _
@[simp] theorem State.reply_log (s : State) (tr : Transport) (tag op : Nat) (c : Bool) (st : Nat) (p : List W32) : (s.reply tr tag op c st p).log = s.log := State.send_log _ _
@[simp] theorem State.reply_owners (s : State) (tr : Transport) (tag op : Nat) (c : Bool) (st : Nat) (p : List W32) : (s.reply tr tag op c st p).owners = s.owners := State.send_owners _ _
@[simp] theorem State.reply_evidence (s : State) (tr : Transport) (tag op : Nat) (c : Bool) (st : Nat) (p : List W32) : (s.reply tr tag op c st p).evidence = s.evidence := State.send_evidence _ _
@[simp] theorem State.reply_tod (s : State) (tr : Transport) (tag op : Nat) (c : Bool) (st : Nat) (p : List W32) : (s.reply tr tag op c st p).tod = s.tod := State.send_tod _ _
@[simp] theorem State.reply_tick (s : State) (tr : Transport) (tag op : Nat) (c : Bool) (st : Nat) (p : List W32) : (s.reply tr tag op c st p).tick = s.tick := State.send_tick _ _
@[simp] theorem State.reply_clk (s : State) (tr : Transport) (tag op : Nat) (c : Bool) (st : Nat) (p : List W32) : (s.reply tr tag op c st p).clk = s.clk := State.send_clk _ _
@[simp] theorem State.reply_ctx (s : State) (tr : Transport) (tag op : Nat) (c : Bool) (st : Nat) (p : List W32) : (s.reply tr tag op c st p).ctx = s.ctx := State.send_ctx _ _
@[simp] theorem State.reply_ant (s : State) (tr : Transport) (tag op : Nat) (c : Bool) (st : Nat) (p : List W32) : (s.reply tr tag op c st p).ant = s.ant := State.send_ant _ _
@[simp] theorem State.reply_subst (s : State) (tr : Transport) (tag op : Nat) (c : Bool) (st : Nat) (p : List W32) : (s.reply tr tag op c st p).subst = s.subst := State.send_subst _ _
@[simp] theorem State.reply_scarab (s : State) (tr : Transport) (tag op : Nat) (c : Bool) (st : Nat) (p : List W32) : (s.reply tr tag op c st p).scarab = s.scarab := State.send_scarab _ _
@[simp] theorem State.reply_banks (s : State) (tr : Transport) (tag op : Nat) (c : Bool) (st : Nat) (p : List W32) : (s.reply tr tag op c st p).banks = s.banks := State.send_banks _ _
@[simp] theorem State.reply_link (s : State) (tr : Transport) (tag op : Nat) (c : Bool) (st : Nat) (p : List W32) : (s.reply tr tag op c st p).link = s.link := State.send_link _ _
@[simp] theorem State.reply_fe (s : State) (tr : Transport) (tag op : Nat) (c : Bool) (st : Nat) (p : List W32) : (s.reply tr tag op c st p).fe = s.fe := State.send_fe _ _
@[simp] theorem State.reply_acq (s : State) (tr : Transport) (tag op : Nat) (c : Bool) (st : Nat) (p : List W32) : (s.reply tr tag op c st p).acq = s.acq := State.send_acq _ _
@[simp] theorem State.reply_bus (s : State) (tr : Transport) (tag op : Nat) (c : Bool) (st : Nat) (p : List W32) : (s.reply tr tag op c st p).bus = s.bus := State.send_bus _ _
@[simp] theorem State.reply_twin (s : State) (tr : Transport) (tag op : Nat) (c : Bool) (st : Nat) (p : List W32) : (s.reply tr tag op c st p).twin = s.twin := State.send_twin _ _
@[simp] theorem State.reply_pwr (s : State) (tr : Transport) (tag op : Nat) (c : Bool) (st : Nat) (p : List W32) : (s.reply tr tag op c st p).pwr = s.pwr := State.send_pwr _ _
@[simp] theorem State.reply_loader (s : State) (tr : Transport) (tag op : Nat) (c : Bool) (st : Nat) (p : List W32) : (s.reply tr tag op c st p).loader = s.loader := State.send_loader _ _
@[simp] theorem State.reply_warden (s : State) (tr : Transport) (tag op : Nat) (c : Bool) (st : Nat) (p : List W32) : (s.reply tr tag op c st p).warden = s.warden := State.send_warden _ _
@[simp] theorem State.reply_free (s : State) (tr : Transport) (tag op : Nat) (c : Bool) (st : Nat) (p : List W32) : (s.reply tr tag op c st p).free = s.free := State.send_free _ _

theorem State.rd_reply (s : State) (tr : Transport) (tag op : Nat) (c : Bool) (st : Nat) (p : List W32) (a : Nat)
    (h : a ∉ replyRegs) : (s.reply tr tag op c st p).rd a = s.rd a := State.rd_send _ _ a h

@[simp] theorem State.reply_async (s : State) (tr : Transport) (tag op : Nat) (c : Bool) (st : Nat) (p : List W32) :
    (s.reply tr tag op c st p).host.async = s.host.async := State.send_async _ _

@[simp] theorem State.rdB_reply (s : State) (tr : Transport) (tag op : Nat) (c : Bool) (st : Nat) (p : List W32) (a : Nat) :
    (s.reply tr tag op c st p).rdB a = s.rdB a := by unfold State.rdB; rw [State.reply_mem]

/-- A rejection or a synchronous answer is the packet's reply. -/
theorem State.reply_replied (s : State) (h : Hdr) (op st : Nat) (p : List W32) :
    Replied s (s.reply h.transport h.tag op false st p) h op st p :=
  ⟨_, State.send_outbox s (Reply.mk h.transport h.tag op false false s.dev.state.code st p s.tod.ns), rfl, rfl, rfl, rfl, rfl, rfl⟩

/-! Taking a packet, and keeping its counter. -/

@[simp] theorem State.take_pending (s : State) (h : Hdr) (op : Nat) : (s.take h op).pending = s.pending := by
  unfold State.take; dsimp only; repeat (first | rfl | split)
@[simp] theorem State.take_regs (s : State) (h : Hdr) (op : Nat) : (s.take h op).regs = s.regs := by
  unfold State.take; dsimp only; repeat (first | rfl | split)
@[simp] theorem State.take_mem (s : State) (h : Hdr) (op : Nat) : (s.take h op).mem = s.mem := by
  unfold State.take; dsimp only; repeat (first | rfl | split)
@[simp] theorem State.take_poison (s : State) (h : Hdr) (op : Nat) : (s.take h op).poison = s.poison := by
  unfold State.take; dsimp only; repeat (first | rfl | split)
@[simp] theorem State.take_dev (s : State) (h : Hdr) (op : Nat) : (s.take h op).dev = s.dev := by
  unfold State.take; dsimp only; repeat (first | rfl | split)
@[simp] theorem State.take_windows (s : State) (h : Hdr) (op : Nat) : (s.take h op).windows = s.windows := by
  unfold State.take; dsimp only; repeat (first | rfl | split)
@[simp] theorem State.take_log (s : State) (h : Hdr) (op : Nat) : (s.take h op).log = s.log := by
  unfold State.take; dsimp only; repeat (first | rfl | split)
@[simp] theorem State.take_owners (s : State) (h : Hdr) (op : Nat) : (s.take h op).owners = s.owners := by
  unfold State.take; dsimp only; repeat (first | rfl | split)
@[simp] theorem State.take_evidence (s : State) (h : Hdr) (op : Nat) : (s.take h op).evidence = s.evidence := by
  unfold State.take; dsimp only; repeat (first | rfl | split)
@[simp] theorem State.take_tod (s : State) (h : Hdr) (op : Nat) : (s.take h op).tod = s.tod := by
  unfold State.take; dsimp only; repeat (first | rfl | split)
@[simp] theorem State.take_tick (s : State) (h : Hdr) (op : Nat) : (s.take h op).tick = s.tick := by
  unfold State.take; dsimp only; repeat (first | rfl | split)
@[simp] theorem State.take_clk (s : State) (h : Hdr) (op : Nat) : (s.take h op).clk = s.clk := by
  unfold State.take; dsimp only; repeat (first | rfl | split)
@[simp] theorem State.take_ctx (s : State) (h : Hdr) (op : Nat) : (s.take h op).ctx = s.ctx := by
  unfold State.take; dsimp only; repeat (first | rfl | split)
@[simp] theorem State.take_ant (s : State) (h : Hdr) (op : Nat) : (s.take h op).ant = s.ant := by
  unfold State.take; dsimp only; repeat (first | rfl | split)
@[simp] theorem State.take_subst (s : State) (h : Hdr) (op : Nat) : (s.take h op).subst = s.subst := by
  unfold State.take; dsimp only; repeat (first | rfl | split)
@[simp] theorem State.take_scarab (s : State) (h : Hdr) (op : Nat) : (s.take h op).scarab = s.scarab := by
  unfold State.take; dsimp only; repeat (first | rfl | split)
@[simp] theorem State.take_banks (s : State) (h : Hdr) (op : Nat) : (s.take h op).banks = s.banks := by
  unfold State.take; dsimp only; repeat (first | rfl | split)
@[simp] theorem State.take_link (s : State) (h : Hdr) (op : Nat) : (s.take h op).link = s.link := by
  unfold State.take; dsimp only; repeat (first | rfl | split)
@[simp] theorem State.take_fe (s : State) (h : Hdr) (op : Nat) : (s.take h op).fe = s.fe := by
  unfold State.take; dsimp only; repeat (first | rfl | split)
@[simp] theorem State.take_acq (s : State) (h : Hdr) (op : Nat) : (s.take h op).acq = s.acq := by
  unfold State.take; dsimp only; repeat (first | rfl | split)
@[simp] theorem State.take_bus (s : State) (h : Hdr) (op : Nat) : (s.take h op).bus = s.bus := by
  unfold State.take; dsimp only; repeat (first | rfl | split)
@[simp] theorem State.take_twin (s : State) (h : Hdr) (op : Nat) : (s.take h op).twin = s.twin := by
  unfold State.take; dsimp only; repeat (first | rfl | split)
@[simp] theorem State.take_pwr (s : State) (h : Hdr) (op : Nat) : (s.take h op).pwr = s.pwr := by
  unfold State.take; dsimp only; repeat (first | rfl | split)
@[simp] theorem State.take_loader (s : State) (h : Hdr) (op : Nat) : (s.take h op).loader = s.loader := by
  unfold State.take; dsimp only; repeat (first | rfl | split)
@[simp] theorem State.take_warden (s : State) (h : Hdr) (op : Nat) : (s.take h op).warden = s.warden := by
  unfold State.take; dsimp only; repeat (first | rfl | split)
@[simp] theorem State.take_free (s : State) (h : Hdr) (op : Nat) : (s.take h op).free = s.free := by
  unfold State.take; dsimp only; repeat (first | rfl | split)

@[simp] theorem State.take_async (s : State) (h : Hdr) (op : Nat) : (s.take h op).host.async = s.host.async := by
  unfold State.take; dsimp only; repeat (first | rfl | split)

@[simp] theorem State.take_outbox (s : State) (h : Hdr) (op : Nat) (tr : Transport) : (s.take h op).outbox tr = s.outbox tr := by
  cases tr <;> (unfold State.take State.outbox; dsimp only; repeat (first | rfl | split))

@[simp] theorem State.rd_take (s : State) (h : Hdr) (op a : Nat) : (s.take h op).rd a = s.rd a := by
  unfold State.rd; rw [State.take_regs]

@[simp] theorem State.rdB_take (s : State) (h : Hdr) (op a : Nat) : (s.take h op).rdB a = s.rdB a := by
  unfold State.rdB; rw [State.take_mem]

@[simp] theorem State.sigKeep_pending (s : State) (h : Hdr) : (s.sigKeep h).pending = s.pending := by
  unfold State.sigKeep; split <;> rfl
@[simp] theorem State.sigKeep_regs (s : State) (h : Hdr) : (s.sigKeep h).regs = s.regs := by
  unfold State.sigKeep; split <;> rfl
@[simp] theorem State.sigKeep_mem (s : State) (h : Hdr) : (s.sigKeep h).mem = s.mem := by
  unfold State.sigKeep; split <;> rfl
@[simp] theorem State.sigKeep_poison (s : State) (h : Hdr) : (s.sigKeep h).poison = s.poison := by
  unfold State.sigKeep; split <;> rfl
@[simp] theorem State.sigKeep_dev (s : State) (h : Hdr) : (s.sigKeep h).dev = s.dev := by
  unfold State.sigKeep; split <;> rfl
@[simp] theorem State.sigKeep_host (s : State) (h : Hdr) : (s.sigKeep h).host = s.host := by
  unfold State.sigKeep; split <;> rfl
@[simp] theorem State.sigKeep_windows (s : State) (h : Hdr) : (s.sigKeep h).windows = s.windows := by
  unfold State.sigKeep; split <;> rfl
@[simp] theorem State.sigKeep_log (s : State) (h : Hdr) : (s.sigKeep h).log = s.log := by
  unfold State.sigKeep; split <;> rfl
@[simp] theorem State.sigKeep_evidence (s : State) (h : Hdr) : (s.sigKeep h).evidence = s.evidence := by
  unfold State.sigKeep; split <;> rfl
@[simp] theorem State.sigKeep_tod (s : State) (h : Hdr) : (s.sigKeep h).tod = s.tod := by
  unfold State.sigKeep; split <;> rfl
@[simp] theorem State.sigKeep_tick (s : State) (h : Hdr) : (s.sigKeep h).tick = s.tick := by
  unfold State.sigKeep; split <;> rfl
@[simp] theorem State.sigKeep_clk (s : State) (h : Hdr) : (s.sigKeep h).clk = s.clk := by
  unfold State.sigKeep; split <;> rfl
@[simp] theorem State.sigKeep_ctx (s : State) (h : Hdr) : (s.sigKeep h).ctx = s.ctx := by
  unfold State.sigKeep; split <;> rfl
@[simp] theorem State.sigKeep_ant (s : State) (h : Hdr) : (s.sigKeep h).ant = s.ant := by
  unfold State.sigKeep; split <;> rfl
@[simp] theorem State.sigKeep_subst (s : State) (h : Hdr) : (s.sigKeep h).subst = s.subst := by
  unfold State.sigKeep; split <;> rfl
@[simp] theorem State.sigKeep_scarab (s : State) (h : Hdr) : (s.sigKeep h).scarab = s.scarab := by
  unfold State.sigKeep; split <;> rfl
@[simp] theorem State.sigKeep_banks (s : State) (h : Hdr) : (s.sigKeep h).banks = s.banks := by
  unfold State.sigKeep; split <;> rfl
@[simp] theorem State.sigKeep_link (s : State) (h : Hdr) : (s.sigKeep h).link = s.link := by
  unfold State.sigKeep; split <;> rfl
@[simp] theorem State.sigKeep_fe (s : State) (h : Hdr) : (s.sigKeep h).fe = s.fe := by
  unfold State.sigKeep; split <;> rfl
@[simp] theorem State.sigKeep_acq (s : State) (h : Hdr) : (s.sigKeep h).acq = s.acq := by
  unfold State.sigKeep; split <;> rfl
@[simp] theorem State.sigKeep_bus (s : State) (h : Hdr) : (s.sigKeep h).bus = s.bus := by
  unfold State.sigKeep; split <;> rfl
@[simp] theorem State.sigKeep_twin (s : State) (h : Hdr) : (s.sigKeep h).twin = s.twin := by
  unfold State.sigKeep; split <;> rfl
@[simp] theorem State.sigKeep_pwr (s : State) (h : Hdr) : (s.sigKeep h).pwr = s.pwr := by
  unfold State.sigKeep; split <;> rfl
@[simp] theorem State.sigKeep_loader (s : State) (h : Hdr) : (s.sigKeep h).loader = s.loader := by
  unfold State.sigKeep; split <;> rfl
@[simp] theorem State.sigKeep_warden (s : State) (h : Hdr) : (s.sigKeep h).warden = s.warden := by
  unfold State.sigKeep; split <;> rfl
@[simp] theorem State.sigKeep_free (s : State) (h : Hdr) : (s.sigKeep h).free = s.free := by
  unfold State.sigKeep; split <;> rfl

/-- The state that step 10 judges a packet in: it is taken out of those that wait, and a signed one has stored its counter. -/
def State.taken (s : State) (h : Hdr) (op : Nat) : State := (s.take h op).sigKeep h

@[simp] theorem State.taken_pending (s : State) (h : Hdr) (op : Nat) : (s.taken h op).pending = s.pending := by simp [State.taken]
@[simp] theorem State.taken_regs (s : State) (h : Hdr) (op : Nat) : (s.taken h op).regs = s.regs := by simp [State.taken]
@[simp] theorem State.taken_mem (s : State) (h : Hdr) (op : Nat) : (s.taken h op).mem = s.mem := by simp [State.taken]
@[simp] theorem State.taken_poison (s : State) (h : Hdr) (op : Nat) : (s.taken h op).poison = s.poison := by simp [State.taken]
@[simp] theorem State.taken_dev (s : State) (h : Hdr) (op : Nat) : (s.taken h op).dev = s.dev := by simp [State.taken]
@[simp] theorem State.taken_windows (s : State) (h : Hdr) (op : Nat) : (s.taken h op).windows = s.windows := by simp [State.taken]
@[simp] theorem State.taken_log (s : State) (h : Hdr) (op : Nat) : (s.taken h op).log = s.log := by simp [State.taken]
@[simp] theorem State.taken_evidence (s : State) (h : Hdr) (op : Nat) : (s.taken h op).evidence = s.evidence := by simp [State.taken]
@[simp] theorem State.taken_tod (s : State) (h : Hdr) (op : Nat) : (s.taken h op).tod = s.tod := by simp [State.taken]
@[simp] theorem State.taken_tick (s : State) (h : Hdr) (op : Nat) : (s.taken h op).tick = s.tick := by simp [State.taken]
@[simp] theorem State.taken_clk (s : State) (h : Hdr) (op : Nat) : (s.taken h op).clk = s.clk := by simp [State.taken]
@[simp] theorem State.taken_ctx (s : State) (h : Hdr) (op : Nat) : (s.taken h op).ctx = s.ctx := by simp [State.taken]
@[simp] theorem State.taken_ant (s : State) (h : Hdr) (op : Nat) : (s.taken h op).ant = s.ant := by simp [State.taken]
@[simp] theorem State.taken_subst (s : State) (h : Hdr) (op : Nat) : (s.taken h op).subst = s.subst := by simp [State.taken]
@[simp] theorem State.taken_scarab (s : State) (h : Hdr) (op : Nat) : (s.taken h op).scarab = s.scarab := by simp [State.taken]
@[simp] theorem State.taken_banks (s : State) (h : Hdr) (op : Nat) : (s.taken h op).banks = s.banks := by simp [State.taken]
@[simp] theorem State.taken_link (s : State) (h : Hdr) (op : Nat) : (s.taken h op).link = s.link := by simp [State.taken]
@[simp] theorem State.taken_fe (s : State) (h : Hdr) (op : Nat) : (s.taken h op).fe = s.fe := by simp [State.taken]
@[simp] theorem State.taken_acq (s : State) (h : Hdr) (op : Nat) : (s.taken h op).acq = s.acq := by simp [State.taken]
@[simp] theorem State.taken_bus (s : State) (h : Hdr) (op : Nat) : (s.taken h op).bus = s.bus := by simp [State.taken]
@[simp] theorem State.taken_twin (s : State) (h : Hdr) (op : Nat) : (s.taken h op).twin = s.twin := by simp [State.taken]
@[simp] theorem State.taken_pwr (s : State) (h : Hdr) (op : Nat) : (s.taken h op).pwr = s.pwr := by simp [State.taken]
@[simp] theorem State.taken_loader (s : State) (h : Hdr) (op : Nat) : (s.taken h op).loader = s.loader := by simp [State.taken]
@[simp] theorem State.taken_warden (s : State) (h : Hdr) (op : Nat) : (s.taken h op).warden = s.warden := by simp [State.taken]
@[simp] theorem State.taken_free (s : State) (h : Hdr) (op : Nat) : (s.taken h op).free = s.free := by simp [State.taken]

@[simp] theorem State.taken_async (s : State) (h : Hdr) (op : Nat) : (s.taken h op).host.async = s.host.async := by
  simp [State.taken]

@[simp] theorem State.taken_outbox (s : State) (h : Hdr) (op : Nat) (tr : Transport) : (s.taken h op).outbox tr = s.outbox tr := by
  have : (s.taken h op).host = (s.take h op).host := by simp [State.taken]
  unfold State.outbox; rw [this]
  exact State.take_outbox s h op tr

@[simp] theorem State.rd_taken (s : State) (h : Hdr) (op a : Nat) : (s.taken h op).rd a = s.rd a := by
  unfold State.rd; rw [State.taken_regs]

@[simp] theorem State.rdF_taken (s : State) (h : Hdr) (op a lo n : Nat) : (s.taken h op).rdF a lo n = s.rdF a lo n := by
  unfold State.rdF; rw [State.rd_taken]

@[simp] theorem State.rdB_taken (s : State) (h : Hdr) (op a : Nat) : (s.taken h op).rdB a = s.rdB a := by
  unfold State.rdB; rw [State.taken_mem]

/-- What the packet processor does with a packet that reaches step 10: its own checks, then its effect and its answer. -/
theorem State.serve_ready (s : State) (h : Hdr) (op : Nat) (check : State → Option Rej) (eff : State → Effect)
    (hr : s.ready h op = true) :
    s.serve h op check eff =
      match check (s.taken h op) with
      | some r => ((s.taken h op).noteRej op r).rejectWith h op r
      | none => State.answer h op (eff (s.taken h op)) := by
  simp only [State.ready, Bool.and_eq_true] at hr
  obtain ⟨⟨⟨⟨⟨⟨h1, h2⟩, h3⟩, h4⟩, h5⟩, h6⟩, h7⟩ := hr
  have hs : ∀ b, (s.take h op).sigCheck b none = s.sigCheck b none := by
    intro b; simp only [State.sigCheck, State.take_owners]
  have ht : (s.take h op).transportOk h.transport op = true := by
    rw [← h2]; unfold State.transportOk; cases h.transport <;> simp
  have hj : (s.take h op).judge h op = none := by
    cases hsig : h.sig with
    | none =>
      rw [hsig] at h4
      simp [State.judge, firstRej, ht, h3, hsig, h4]
    | some b =>
      rw [hsig] at h4
      simp only [Bool.and_eq_true] at h4
      simp [State.judge, firstRej, ht, h3, hsig, h4.1]
  have hg : (s.take h op).judgeSig h none = none := by
    unfold State.judgeSig
    cases hsig : h.sig with
    | none => rfl
    | some b =>
      rw [hsig] at h4
      simp only [Bool.and_eq_true, Option.isNone_iff_eq_none] at h4
      simp [hs, h4.2]
  have hk : (s.taken h op).judgeSlot h op = none := by
    simp [State.judgeSlot, firstRej, h5, h6]
  have hw : (s.taken h op).warden = s.warden := State.taken_warden s h op
  unfold State.serve State.serveKey
  simp only [h1, Bool.not_true, Bool.false_eq_true, if_false, hj, hg]
  have : (s.take h op).sigKeep h = s.taken h op := rfl
  simp only [this, hk, hw]
  have hz : (s.warden.romOnly && !romServes op) = false := by
    cases hro : s.warden.romOnly
    · rfl
    · rw [hro] at h7; simpa using h7
  rw [hz]
  rfl

/-! The end of a step. -/

@[simp] theorem State.seal_poison (s t : State) : (s.seal t).poison = t.poison := by
  unfold State.seal; dsimp only; split <;> simp
@[simp] theorem State.seal_dev (s t : State) : (s.seal t).dev = t.dev := by
  unfold State.seal; dsimp only; split <;> simp
@[simp] theorem State.seal_windows (s t : State) : (s.seal t).windows = t.windows := by
  unfold State.seal; dsimp only; split <;> simp
@[simp] theorem State.seal_log (s t : State) : (s.seal t).log = t.log := by
  unfold State.seal; dsimp only; split <;> simp
@[simp] theorem State.seal_owners (s t : State) : (s.seal t).owners = t.owners := by
  unfold State.seal; dsimp only; split <;> simp
@[simp] theorem State.seal_evidence (s t : State) : (s.seal t).evidence = t.evidence := by
  unfold State.seal; dsimp only; split <;> simp
@[simp] theorem State.seal_tod (s t : State) : (s.seal t).tod = t.tod := by
  unfold State.seal; dsimp only; split <;> simp
@[simp] theorem State.seal_tick (s t : State) : (s.seal t).tick = t.tick := by
  unfold State.seal; dsimp only; split <;> simp
@[simp] theorem State.seal_clk (s t : State) : (s.seal t).clk = t.clk := by
  unfold State.seal; dsimp only; split <;> simp
@[simp] theorem State.seal_ctx (s t : State) : (s.seal t).ctx = t.ctx := by
  unfold State.seal; dsimp only; split <;> simp
@[simp] theorem State.seal_ant (s t : State) : (s.seal t).ant = t.ant := by
  unfold State.seal; dsimp only; split <;> simp
@[simp] theorem State.seal_subst (s t : State) : (s.seal t).subst = t.subst := by
  unfold State.seal; dsimp only; split <;> simp
@[simp] theorem State.seal_scarab (s t : State) : (s.seal t).scarab = t.scarab := by
  unfold State.seal; dsimp only; split <;> simp
@[simp] theorem State.seal_banks (s t : State) : (s.seal t).banks = t.banks := by
  unfold State.seal; dsimp only; split <;> simp
@[simp] theorem State.seal_link (s t : State) : (s.seal t).link = t.link := by
  unfold State.seal; dsimp only; split <;> simp
@[simp] theorem State.seal_fe (s t : State) : (s.seal t).fe = t.fe := by
  unfold State.seal; dsimp only; split <;> simp
@[simp] theorem State.seal_acq (s t : State) : (s.seal t).acq = t.acq := by
  unfold State.seal; dsimp only; split <;> simp
@[simp] theorem State.seal_bus (s t : State) : (s.seal t).bus = t.bus := by
  unfold State.seal; dsimp only; split <;> simp
@[simp] theorem State.seal_twin (s t : State) : (s.seal t).twin = t.twin := by
  unfold State.seal; dsimp only; split <;> simp
@[simp] theorem State.seal_pwr (s t : State) : (s.seal t).pwr = t.pwr := by
  unfold State.seal; dsimp only; split <;> simp
@[simp] theorem State.seal_loader (s t : State) : (s.seal t).loader = t.loader := by
  unfold State.seal; dsimp only; split <;> simp
@[simp] theorem State.seal_warden (s t : State) : (s.seal t).warden = t.warden := by
  unfold State.seal; dsimp only; split <;> simp
@[simp] theorem State.seal_free (s t : State) : (s.seal t).free = t.free := by
  unfold State.seal; dsimp only; split <;> simp

@[simp] theorem State.seal_pending (s t : State) : (s.seal t).pending = s.pending := rfl

/-- The end of a step changes no register but IRQ_STATUS. -/
theorem State.rd_seal (s t : State) (a : Nat) (h : a ≠ Reg.irqStatus) : (s.seal t).rd a = t.rd a := by
  unfold State.seal; dsimp only
  show SMap.get (regReset a) (SMap.norm regReset _) a = _
  rw [SMap.get_norm]
  split
  · rfl
  · exact State.rd_irq t irqState a h

/-- The end of a step changes no byte of memory. -/
@[simp] theorem State.rdB_seal (s t : State) (a : Nat) : (s.seal t).rdB a = t.rdB a := by
  unfold State.seal; dsimp only
  show SMap.get Memory.unlisted (SMap.norm (fun _ => Memory.unlisted) _) a = _
  rw [SMap.get_norm (fun _ => Memory.unlisted)]
  split
  · rfl
  · rw [State.irq_mem]; rfl

@[simp] theorem State.seal_outbox (s t : State) (tr : Transport) : (s.seal t).outbox tr = t.outbox tr := by
  unfold State.seal; dsimp only
  split
  · rfl
  · exact State.irq_outbox t irqState tr

@[simp] theorem State.seal_async (s t : State) : (s.seal t).host.async = t.host.async := by
  unfold State.seal; dsimp only
  split
  · rfl
  · exact State.irq_async t irqState

/-- Every step ends in canonical form. -/
theorem State.inv_seal (s t : State) : (s.seal t).inv = true := by
  unfold State.seal; dsimp only
  simp only [State.inv, Bool.and_eq_true]
  exact ⟨SMap.wf_norm regReset _, SMap.wf_norm _ _⟩

/-- A meaning that ends in `done` always answers a next state. -/
theorem State.done_eq (s t : State) : s.done t = .next (s.seal t) := rfl

/-- A meaning that names units answers a next state exactly where they exist. -/
theorem State.onUnit_true (s t : State) : s.onUnit true t = .next (s.seal t) := rfl

theorem State.onUnit_next (s t u : State) (ok : Bool) (h : s.onUnit ok t = .next u) : ok = true ∧ u = s.seal t := by
  unfold State.onUnit State.done at h
  cases ok with
  | true => simp at h; exact ⟨rfl, h.symm⟩
  | false => simp at h

/-! Completions (15 R386). -/

theorem State.foldReply_pending (l : List Async) (st : Nat) (p : List W32) (s : State) :
    (l.foldl (fun t a => t.reply a.transport a.tag a.opcode true st p) s).pending = s.pending := by
  induction l generalizing s with
  | nil => rfl
  | cons a r ih => rw [List.foldl_cons, ih, State.reply_pending]
theorem State.foldReply_mem (l : List Async) (st : Nat) (p : List W32) (s : State) :
    (l.foldl (fun t a => t.reply a.transport a.tag a.opcode true st p) s).mem = s.mem := by
  induction l generalizing s with
  | nil => rfl
  | cons a r ih => rw [List.foldl_cons, ih, State.reply_mem]
theorem State.foldReply_poison (l : List Async) (st : Nat) (p : List W32) (s : State) :
    (l.foldl (fun t a => t.reply a.transport a.tag a.opcode true st p) s).poison = s.poison := by
  induction l generalizing s with
  | nil => rfl
  | cons a r ih => rw [List.foldl_cons, ih, State.reply_poison]
theorem State.foldReply_dev (l : List Async) (st : Nat) (p : List W32) (s : State) :
    (l.foldl (fun t a => t.reply a.transport a.tag a.opcode true st p) s).dev = s.dev := by
  induction l generalizing s with
  | nil => rfl
  | cons a r ih => rw [List.foldl_cons, ih, State.reply_dev]
theorem State.foldReply_windows (l : List Async) (st : Nat) (p : List W32) (s : State) :
    (l.foldl (fun t a => t.reply a.transport a.tag a.opcode true st p) s).windows = s.windows := by
  induction l generalizing s with
  | nil => rfl
  | cons a r ih => rw [List.foldl_cons, ih, State.reply_windows]
theorem State.foldReply_log (l : List Async) (st : Nat) (p : List W32) (s : State) :
    (l.foldl (fun t a => t.reply a.transport a.tag a.opcode true st p) s).log = s.log := by
  induction l generalizing s with
  | nil => rfl
  | cons a r ih => rw [List.foldl_cons, ih, State.reply_log]
theorem State.foldReply_owners (l : List Async) (st : Nat) (p : List W32) (s : State) :
    (l.foldl (fun t a => t.reply a.transport a.tag a.opcode true st p) s).owners = s.owners := by
  induction l generalizing s with
  | nil => rfl
  | cons a r ih => rw [List.foldl_cons, ih, State.reply_owners]
theorem State.foldReply_evidence (l : List Async) (st : Nat) (p : List W32) (s : State) :
    (l.foldl (fun t a => t.reply a.transport a.tag a.opcode true st p) s).evidence = s.evidence := by
  induction l generalizing s with
  | nil => rfl
  | cons a r ih => rw [List.foldl_cons, ih, State.reply_evidence]
theorem State.foldReply_tod (l : List Async) (st : Nat) (p : List W32) (s : State) :
    (l.foldl (fun t a => t.reply a.transport a.tag a.opcode true st p) s).tod = s.tod := by
  induction l generalizing s with
  | nil => rfl
  | cons a r ih => rw [List.foldl_cons, ih, State.reply_tod]
theorem State.foldReply_tick (l : List Async) (st : Nat) (p : List W32) (s : State) :
    (l.foldl (fun t a => t.reply a.transport a.tag a.opcode true st p) s).tick = s.tick := by
  induction l generalizing s with
  | nil => rfl
  | cons a r ih => rw [List.foldl_cons, ih, State.reply_tick]
theorem State.foldReply_clk (l : List Async) (st : Nat) (p : List W32) (s : State) :
    (l.foldl (fun t a => t.reply a.transport a.tag a.opcode true st p) s).clk = s.clk := by
  induction l generalizing s with
  | nil => rfl
  | cons a r ih => rw [List.foldl_cons, ih, State.reply_clk]
theorem State.foldReply_ctx (l : List Async) (st : Nat) (p : List W32) (s : State) :
    (l.foldl (fun t a => t.reply a.transport a.tag a.opcode true st p) s).ctx = s.ctx := by
  induction l generalizing s with
  | nil => rfl
  | cons a r ih => rw [List.foldl_cons, ih, State.reply_ctx]
theorem State.foldReply_ant (l : List Async) (st : Nat) (p : List W32) (s : State) :
    (l.foldl (fun t a => t.reply a.transport a.tag a.opcode true st p) s).ant = s.ant := by
  induction l generalizing s with
  | nil => rfl
  | cons a r ih => rw [List.foldl_cons, ih, State.reply_ant]
theorem State.foldReply_subst (l : List Async) (st : Nat) (p : List W32) (s : State) :
    (l.foldl (fun t a => t.reply a.transport a.tag a.opcode true st p) s).subst = s.subst := by
  induction l generalizing s with
  | nil => rfl
  | cons a r ih => rw [List.foldl_cons, ih, State.reply_subst]
theorem State.foldReply_scarab (l : List Async) (st : Nat) (p : List W32) (s : State) :
    (l.foldl (fun t a => t.reply a.transport a.tag a.opcode true st p) s).scarab = s.scarab := by
  induction l generalizing s with
  | nil => rfl
  | cons a r ih => rw [List.foldl_cons, ih, State.reply_scarab]
theorem State.foldReply_banks (l : List Async) (st : Nat) (p : List W32) (s : State) :
    (l.foldl (fun t a => t.reply a.transport a.tag a.opcode true st p) s).banks = s.banks := by
  induction l generalizing s with
  | nil => rfl
  | cons a r ih => rw [List.foldl_cons, ih, State.reply_banks]
theorem State.foldReply_link (l : List Async) (st : Nat) (p : List W32) (s : State) :
    (l.foldl (fun t a => t.reply a.transport a.tag a.opcode true st p) s).link = s.link := by
  induction l generalizing s with
  | nil => rfl
  | cons a r ih => rw [List.foldl_cons, ih, State.reply_link]
theorem State.foldReply_fe (l : List Async) (st : Nat) (p : List W32) (s : State) :
    (l.foldl (fun t a => t.reply a.transport a.tag a.opcode true st p) s).fe = s.fe := by
  induction l generalizing s with
  | nil => rfl
  | cons a r ih => rw [List.foldl_cons, ih, State.reply_fe]
theorem State.foldReply_acq (l : List Async) (st : Nat) (p : List W32) (s : State) :
    (l.foldl (fun t a => t.reply a.transport a.tag a.opcode true st p) s).acq = s.acq := by
  induction l generalizing s with
  | nil => rfl
  | cons a r ih => rw [List.foldl_cons, ih, State.reply_acq]
theorem State.foldReply_bus (l : List Async) (st : Nat) (p : List W32) (s : State) :
    (l.foldl (fun t a => t.reply a.transport a.tag a.opcode true st p) s).bus = s.bus := by
  induction l generalizing s with
  | nil => rfl
  | cons a r ih => rw [List.foldl_cons, ih, State.reply_bus]
theorem State.foldReply_twin (l : List Async) (st : Nat) (p : List W32) (s : State) :
    (l.foldl (fun t a => t.reply a.transport a.tag a.opcode true st p) s).twin = s.twin := by
  induction l generalizing s with
  | nil => rfl
  | cons a r ih => rw [List.foldl_cons, ih, State.reply_twin]
theorem State.foldReply_pwr (l : List Async) (st : Nat) (p : List W32) (s : State) :
    (l.foldl (fun t a => t.reply a.transport a.tag a.opcode true st p) s).pwr = s.pwr := by
  induction l generalizing s with
  | nil => rfl
  | cons a r ih => rw [List.foldl_cons, ih, State.reply_pwr]
theorem State.foldReply_loader (l : List Async) (st : Nat) (p : List W32) (s : State) :
    (l.foldl (fun t a => t.reply a.transport a.tag a.opcode true st p) s).loader = s.loader := by
  induction l generalizing s with
  | nil => rfl
  | cons a r ih => rw [List.foldl_cons, ih, State.reply_loader]
theorem State.foldReply_warden (l : List Async) (st : Nat) (p : List W32) (s : State) :
    (l.foldl (fun t a => t.reply a.transport a.tag a.opcode true st p) s).warden = s.warden := by
  induction l generalizing s with
  | nil => rfl
  | cons a r ih => rw [List.foldl_cons, ih, State.reply_warden]
theorem State.foldReply_free (l : List Async) (st : Nat) (p : List W32) (s : State) :
    (l.foldl (fun t a => t.reply a.transport a.tag a.opcode true st p) s).free = s.free := by
  induction l generalizing s with
  | nil => rfl
  | cons a r ih => rw [List.foldl_cons, ih, State.reply_free]

@[simp] theorem State.complete_pending (s : State) (q : Async → Bool) (st : Nat) (p : List W32) : (s.complete q st p).pending = s.pending := State.foldReply_pending _ _ _ _
@[simp] theorem State.complete_mem (s : State) (q : Async → Bool) (st : Nat) (p : List W32) : (s.complete q st p).mem = s.mem := State.foldReply_mem _ _ _ _
@[simp] theorem State.complete_poison (s : State) (q : Async → Bool) (st : Nat) (p : List W32) : (s.complete q st p).poison = s.poison := State.foldReply_poison _ _ _ _
@[simp] theorem State.complete_dev (s : State) (q : Async → Bool) (st : Nat) (p : List W32) : (s.complete q st p).dev = s.dev := State.foldReply_dev _ _ _ _
@[simp] theorem State.complete_windows (s : State) (q : Async → Bool) (st : Nat) (p : List W32) : (s.complete q st p).windows = s.windows := State.foldReply_windows _ _ _ _
@[simp] theorem State.complete_log (s : State) (q : Async → Bool) (st : Nat) (p : List W32) : (s.complete q st p).log = s.log := State.foldReply_log _ _ _ _
@[simp] theorem State.complete_owners (s : State) (q : Async → Bool) (st : Nat) (p : List W32) : (s.complete q st p).owners = s.owners := State.foldReply_owners _ _ _ _
@[simp] theorem State.complete_evidence (s : State) (q : Async → Bool) (st : Nat) (p : List W32) : (s.complete q st p).evidence = s.evidence := State.foldReply_evidence _ _ _ _
@[simp] theorem State.complete_tod (s : State) (q : Async → Bool) (st : Nat) (p : List W32) : (s.complete q st p).tod = s.tod := State.foldReply_tod _ _ _ _
@[simp] theorem State.complete_tick (s : State) (q : Async → Bool) (st : Nat) (p : List W32) : (s.complete q st p).tick = s.tick := State.foldReply_tick _ _ _ _
@[simp] theorem State.complete_clk (s : State) (q : Async → Bool) (st : Nat) (p : List W32) : (s.complete q st p).clk = s.clk := State.foldReply_clk _ _ _ _
@[simp] theorem State.complete_ctx (s : State) (q : Async → Bool) (st : Nat) (p : List W32) : (s.complete q st p).ctx = s.ctx := State.foldReply_ctx _ _ _ _
@[simp] theorem State.complete_ant (s : State) (q : Async → Bool) (st : Nat) (p : List W32) : (s.complete q st p).ant = s.ant := State.foldReply_ant _ _ _ _
@[simp] theorem State.complete_subst (s : State) (q : Async → Bool) (st : Nat) (p : List W32) : (s.complete q st p).subst = s.subst := State.foldReply_subst _ _ _ _
@[simp] theorem State.complete_scarab (s : State) (q : Async → Bool) (st : Nat) (p : List W32) : (s.complete q st p).scarab = s.scarab := State.foldReply_scarab _ _ _ _
@[simp] theorem State.complete_banks (s : State) (q : Async → Bool) (st : Nat) (p : List W32) : (s.complete q st p).banks = s.banks := State.foldReply_banks _ _ _ _
@[simp] theorem State.complete_link (s : State) (q : Async → Bool) (st : Nat) (p : List W32) : (s.complete q st p).link = s.link := State.foldReply_link _ _ _ _
@[simp] theorem State.complete_fe (s : State) (q : Async → Bool) (st : Nat) (p : List W32) : (s.complete q st p).fe = s.fe := State.foldReply_fe _ _ _ _
@[simp] theorem State.complete_acq (s : State) (q : Async → Bool) (st : Nat) (p : List W32) : (s.complete q st p).acq = s.acq := State.foldReply_acq _ _ _ _
@[simp] theorem State.complete_bus (s : State) (q : Async → Bool) (st : Nat) (p : List W32) : (s.complete q st p).bus = s.bus := State.foldReply_bus _ _ _ _
@[simp] theorem State.complete_twin (s : State) (q : Async → Bool) (st : Nat) (p : List W32) : (s.complete q st p).twin = s.twin := State.foldReply_twin _ _ _ _
@[simp] theorem State.complete_pwr (s : State) (q : Async → Bool) (st : Nat) (p : List W32) : (s.complete q st p).pwr = s.pwr := State.foldReply_pwr _ _ _ _
@[simp] theorem State.complete_loader (s : State) (q : Async → Bool) (st : Nat) (p : List W32) : (s.complete q st p).loader = s.loader := State.foldReply_loader _ _ _ _
@[simp] theorem State.complete_warden (s : State) (q : Async → Bool) (st : Nat) (p : List W32) : (s.complete q st p).warden = s.warden := State.foldReply_warden _ _ _ _
@[simp] theorem State.complete_free (s : State) (q : Async → Bool) (st : Nat) (p : List W32) : (s.complete q st p).free = s.free := State.foldReply_free _ _ _ _

theorem State.rd_complete (s : State) (q : Async → Bool) (st : Nat) (p : List W32) (a : Nat) (h : a ∉ replyRegs) :
    (s.complete q st p).rd a = s.rd a := by
  unfold State.complete; dsimp only
  generalize s.host.async.filter q = l
  show _ = ({ s with host.async := s.host.async.filter (fun a => !q a) } : State).rd a
  generalize ({ s with host.async := s.host.async.filter (fun a => !q a) } : State) = t
  induction l generalizing t with
  | nil => rfl
  | cons x r ih => rw [List.foldl_cons, ih, State.rd_reply _ _ _ _ _ _ _ a h]

@[simp] theorem State.rdB_complete (s : State) (q : Async → Bool) (st : Nat) (p : List W32) (a : Nat) :
    (s.complete q st p).rdB a = s.rdB a := by unfold State.rdB; rw [State.complete_mem]

/-- The commands that are completed are outstanding no more. -/
theorem State.complete_async (s : State) (q : Async → Bool) (st : Nat) (p : List W32) :
    (s.complete q st p).host.async = s.host.async.filter (fun a => !q a) := by
  unfold State.complete; dsimp only
  generalize s.host.async.filter q = l
  show _ = ({ s with host.async := s.host.async.filter (fun a => !q a) } : State).host.async
  generalize ({ s with host.async := s.host.async.filter (fun a => !q a) } : State) = t
  induction l generalizing t with
  | nil => rfl
  | cons x r ih => rw [List.foldl_cons, ih, State.reply_async]

end Sys2Proof.Machine
end

