-- ==== Sys2Proof/Laws/PerInstr.lean ====
section
/-! SUPPORT. Per command: a packet has an opcode of Table 15.10, and a well-formed packet has a well-formed header (15 Table 15.1). -/

namespace Sys2Proof.Laws

open Sys2Proof.Machine

set_option Elab.async false

/-- The opcode of a packet is one of Table 15.10, and its header is well formed where the packet is. -/
def Packet.Statement (i : Instr) : Prop :=
  ∀ h op, i.packet = some (h, op) → opDefined op = true ∧ (i.wf = true → h.wf = true)

/-- An event is no packet. -/
theorem packet_of_none (i : Instr) (e : i.packet = none) : Packet.Statement i := by
  intro h op x; rw [e] at x; cases x

/-- A packet by its header and opcode. -/
theorem packet_of_some (i : Instr) (h : Hdr) (op : Nat) (e : i.packet = some (h, op)) (d : opDefined op = true)
    (w : i.wf = true → h.wf = true) : Packet.Statement i := by
  intro h' op' x; rw [e] at x; cases x; exact ⟨d, w⟩

theorem Packet.sysNop (h : Hdr) : Packet.Statement (.sysNop h) :=
  packet_of_some _ h _ rfl (by decide) (fun w => w)
theorem Packet.sysInfo (h : Hdr) : Packet.Statement (.sysInfo h) :=
  packet_of_some _ h _ rfl (by decide) (fun w => w)
theorem Packet.sysState (h : Hdr) : Packet.Statement (.sysState h) :=
  packet_of_some _ h _ rfl (by decide) (fun w => w)
theorem Packet.sysReset (h : Hdr) (kind : Nat) : Packet.Statement (.sysReset h kind) :=
  packet_of_some _ h _ rfl (by decide) (fun w => by simp only [Instr.wf, Bool.and_eq_true] at w; exact w.1)
theorem Packet.regRead (h : Hdr) (addr count : Nat) : Packet.Statement (.regRead h addr count) :=
  packet_of_some _ h _ rfl (by decide) (fun w => by simp only [Instr.wf, Bool.and_eq_true] at w; exact w.1.1)
theorem Packet.regWrite (h : Hdr) (addr : Nat) (ws : List W32) : Packet.Statement (.regWrite h addr ws) :=
  packet_of_some _ h _ rfl (by decide) (fun w => by simp only [Instr.wf, Bool.and_eq_true] at w; exact w.1.1)
theorem Packet.sigTable (h : Hdr) : Packet.Statement (.sigTable h) :=
  packet_of_some _ h _ rfl (by decide) (fun w => w)
theorem Packet.tickConfig (h : Hdr) (source cTick : Nat) : Packet.Statement (.tickConfig h source cTick) :=
  packet_of_some _ h _ rfl (by decide) (fun w => by simp only [Instr.wf, Bool.and_eq_true] at w; exact w.1.1)
theorem Packet.tickIdSet (h : Hdr) (id : W32) : Packet.Statement (.tickIdSet h id) :=
  packet_of_some _ h _ rfl (by decide) (fun w => w)
theorem Packet.loadBegin (h : Hdr) (len : Nat) (img : Contents) : Packet.Statement (.loadBegin h len img) :=
  packet_of_some _ h _ rfl (by decide) (fun w => by simp only [Instr.wf, Bool.and_eq_true] at w; exact w.1)
theorem Packet.loadChunk (h : Hdr) (handle off : Nat) (bytes : List W8) : Packet.Statement (.loadChunk h handle off bytes) :=
  packet_of_some _ h _ rfl (by decide) (fun w => by simp only [Instr.wf, Bool.and_eq_true] at w; exact w.1.1.1)
theorem Packet.relocate (h : Hdr) (handle : Nat) (ents : List RelocEnt) : Packet.Statement (.relocate h handle ents) :=
  packet_of_some _ h _ rfl (by decide) (fun w => by simp only [Instr.wf, Bool.and_eq_true] at w; exact w.1.1)
theorem Packet.patch (h : Hdr) (slot : Option Nat) (handle pid : Nat) (value : W64) : Packet.Statement (.patch h slot handle pid value) :=
  packet_of_some _ h _ rfl (by decide) (fun w => by simp only [Instr.wf, Bool.and_eq_true] at w; exact w.1.1.1)
theorem Packet.commit (h : Hdr) (handle : Nat) : Packet.Statement (.commit h handle) :=
  packet_of_some _ h _ rfl (by decide) (fun w => by simp only [Instr.wf, Bool.and_eq_true] at w; exact w.1)
theorem Packet.unload (h : Hdr) (handle : Option Nat) (mask : Nat) : Packet.Statement (.unload h handle mask) :=
  packet_of_some _ h _ rfl (by decide) (fun w => by simp only [Instr.wf, Bool.and_eq_true] at w; exact w.1.1)
theorem Packet.loadInfo (h : Hdr) (slot sect off : Nat) : Packet.Statement (.loadInfo h slot sect off) :=
  packet_of_some _ h _ rfl (by decide) (fun w => by simp only [Instr.wf, Bool.and_eq_true] at w; exact w.1.1.1)
theorem Packet.arm (h : Hdr) (mask : Nat) : Packet.Statement (.arm h mask) :=
  packet_of_some _ h _ rfl (by decide) (fun w => by simp only [Instr.wf, Bool.and_eq_true] at w; exact w.1)
theorem Packet.start (h : Hdr) (mask : Nat) (sAt : W32) : Packet.Statement (.start h mask sAt) :=
  packet_of_some _ h _ rfl (by decide) (fun w => by simp only [Instr.wf, Bool.and_eq_true] at w; exact w.1)
theorem Packet.drain (h : Hdr) (mask : Nat) (d : W32) : Packet.Statement (.drain h mask d) :=
  packet_of_some _ h _ rfl (by decide) (fun w => by simp only [Instr.wf, Bool.and_eq_true] at w; exact w.1)
theorem Packet.stop (h : Hdr) (mask : Nat) : Packet.Statement (.stop h mask) :=
  packet_of_some _ h _ rfl (by decide) (fun w => by simp only [Instr.wf, Bool.and_eq_true] at w; exact w.1)
theorem Packet.resume (h : Hdr) (mode : Nat) : Packet.Statement (.resume h mode) :=
  packet_of_some _ h _ rfl (by decide) (fun w => by simp only [Instr.wf, Bool.and_eq_true] at w; exact w.1)
theorem Packet.laneConfig (h : Hdr) (quad rate : Nat) (modes : List Nat) : Packet.Statement (.laneConfig h quad rate modes) :=
  packet_of_some _ h _ rfl (by decide) (fun w => by simp only [Instr.wf, Bool.and_eq_true] at w; exact w.1.1.1)
theorem Packet.laneTrain (h : Hdr) (lane : Nat) : Packet.Statement (.laneTrain h lane) :=
  packet_of_some _ h _ rfl (by decide) (fun w => by simp only [Instr.wf, Bool.and_eq_true] at w; exact w.1)
theorem Packet.lanePower (h : Hdr) (lane tx st : Nat) : Packet.Statement (.lanePower h lane tx st) :=
  packet_of_some _ h _ rfl (by decide) (fun w => by simp only [Instr.wf, Bool.and_eq_true] at w; exact w.1.1.1)
theorem Packet.laneGroup (h : Hdr) (g : Nat) (cfg : GroupCfg) : Packet.Statement (.laneGroup h g cfg) :=
  packet_of_some _ h _ rfl (by decide) (fun w => by simp only [Instr.wf, Bool.and_eq_true] at w; exact w.1.1)
theorem Packet.lanePrbs (h : Hdr) (lane : Nat) (w : W32) : Packet.Statement (.lanePrbs h lane w) :=
  packet_of_some _ h _ rfl (by decide) (fun w => by simp only [Instr.wf, Bool.and_eq_true] at w; exact w.1)
theorem Packet.laneInject (h : Hdr) (lane : Nat) (w : W32) : Packet.Statement (.laneInject h lane w) :=
  packet_of_some _ h _ rfl (by decide) (fun w => by simp only [Instr.wf, Bool.and_eq_true] at w; exact w.1)
theorem Packet.laneEye (h : Hdr) (lane : Nat) : Packet.Statement (.laneEye h lane) :=
  packet_of_some _ h _ rfl (by decide) (fun w => by simp only [Instr.wf, Bool.and_eq_true] at w; exact w.1)
theorem Packet.linkPersonality (h : Hdr) (processor : Bool) (id : Nat) : Packet.Statement (.linkPersonality h processor id) :=
  packet_of_some _ h _ rfl (by decide) (fun w => by simp only [Instr.wf, Bool.and_eq_true] at w; exact w.1)
theorem Packet.meshRoute (h : Hdr) (part : Nat) (valid : Bool) (group : Nat) : Packet.Statement (.meshRoute h part valid group) :=
  packet_of_some _ h _ rfl (by decide) (fun w => by simp only [Instr.wf, Bool.and_eq_true] at w; exact w.1.1)
theorem Packet.linkField (h : Hdr) (f : Nat) (cfg dest exp fill : W32) : Packet.Statement (.linkField h f cfg dest exp fill) :=
  packet_of_some _ h _ rfl (by decide) (fun w => by simp only [Instr.wf, Bool.and_eq_true] at w; exact w.1)
theorem Packet.linkAggregate (h : Hdr) (st : Nat) (entry : W64) (items : List W64) : Packet.Statement (.linkAggregate h st entry items) :=
  packet_of_some _ h _ rfl (by decide) (fun w => by simp only [Instr.wf, Bool.and_eq_true] at w; exact w.1.1)
theorem Packet.feConfig (h : Hdr) (ticks cycle : Nat) (chs : List (Nat × W32 × W32)) : Packet.Statement (.feConfig h ticks cycle chs) :=
  packet_of_some _ h _ rfl (by decide) (fun w => by simp only [Instr.wf, Bool.and_eq_true] at w; exact w.1.1.1)
theorem Packet.primConfig (h : Hdr) (ents : List (Nat × W32 × W32 × W32)) : Packet.Statement (.primConfig h ents) :=
  packet_of_some _ h _ rfl (by decide) (fun w => by simp only [Instr.wf, Bool.and_eq_true] at w; exact w.1)
theorem Packet.primSet (h : Hdr) (sAt : W32) (ents : List (Nat × Bool × W32 × W32)) : Packet.Statement (.primSet h sAt ents) :=
  packet_of_some _ h _ rfl (by decide) (fun w => by simp only [Instr.wf, Bool.and_eq_true] at w; exact w.1)
theorem Packet.clickConfig (h : Hdr) (ents : List (Nat × W32 × W32)) : Packet.Statement (.clickConfig h ents) :=
  packet_of_some _ h _ rfl (by decide) (fun w => by simp only [Instr.wf, Bool.and_eq_true] at w; exact w.1)
theorem Packet.clickCal (h : Hdr) (mask : Nat) : Packet.Statement (.clickCal h mask) :=
  packet_of_some _ h _ rfl (by decide) (fun w => by simp only [Instr.wf, Bool.and_eq_true] at w; exact w.1)
theorem Packet.combConfig (h : Hdr) (pairs : List (Nat × W32)) : Packet.Statement (.combConfig h pairs) :=
  packet_of_some _ h _ rfl (by decide) (fun w => by simp only [Instr.wf, Bool.and_eq_true] at w; exact w.1)
theorem Packet.condSet (h : Hdr) (sAt : W32) (ents : List (Nat × Nat × Nat × Nat)) : Packet.Statement (.condSet h sAt ents) :=
  packet_of_some _ h _ rfl (by decide) (fun w => by simp only [Instr.wf, Bool.and_eq_true] at w; exact w.1)
theorem Packet.trigEnable (h : Hdr) (sAt : W32) (en : Bool) (num : Option W32) : Packet.Statement (.trigEnable h sAt en num) :=
  packet_of_some _ h _ rfl (by decide) (fun w => w)
theorem Packet.busConfig (h : Hdr) (master : Bool) (outEn inEn : Nat) : Packet.Statement (.busConfig h master outEn inEn) :=
  packet_of_some _ h _ rfl (by decide) (fun w => by simp only [Instr.wf, Bool.and_eq_true] at w; exact w.1.1)
theorem Packet.busCal (h : Hdr) (busy : Nat) : Packet.Statement (.busCal h busy) :=
  packet_of_some _ h _ rfl (by decide) (fun w => by simp only [Instr.wf, Bool.and_eq_true] at w; exact w.1)
theorem Packet.busComp (h : Hdr) (lSys : Nat) (asym : List Int) : Packet.Statement (.busComp h lSys asym) :=
  packet_of_some _ h _ rfl (by decide) (fun w => by simp only [Instr.wf, Bool.and_eq_true] at w; exact w.1.1)
theorem Packet.busAlign (h : Hdr) : Packet.Statement (.busAlign h) :=
  packet_of_some _ h _ rfl (by decide) (fun w => w)
theorem Packet.busTxMap (h : Hdr) (ents : List (Nat × W64)) : Packet.Statement (.busTxMap h ents) :=
  packet_of_some _ h _ rfl (by decide) (fun w => by simp only [Instr.wf, Bool.and_eq_true] at w; exact w.1)
theorem Packet.acqConfig (h : Hdr) (cfgs : List AcqCfg) : Packet.Statement (.acqConfig h cfgs) :=
  packet_of_some _ h _ rfl (by decide) (fun w => by simp only [Instr.wf, Bool.and_eq_true] at w; exact w.1)
theorem Packet.acqArm (h : Hdr) (mask : Nat) (sAt : W32) : Packet.Statement (.acqArm h mask sAt) :=
  packet_of_some _ h _ rfl (by decide) (fun w => by simp only [Instr.wf, Bool.and_eq_true] at w; exact w.1)
theorem Packet.acqDisarm (h : Hdr) (mask : Nat) (sAt : W32) : Packet.Statement (.acqDisarm h mask sAt) :=
  packet_of_some _ h _ rfl (by decide) (fun w => by simp only [Instr.wf, Bool.and_eq_true] at w; exact w.1)
theorem Packet.chgConfig (h : Hdr) (ents : List (Nat × W32 × W32)) : Packet.Statement (.chgConfig h ents) :=
  packet_of_some _ h _ rfl (by decide) (fun w => by simp only [Instr.wf, Bool.and_eq_true] at w; exact w.1)
theorem Packet.acqStream (h : Hdr) (st : Nat) (cfg : StrCfg) : Packet.Statement (.acqStream h st cfg) :=
  packet_of_some _ h _ rfl (by decide) (fun w => by simp only [Instr.wf, Bool.and_eq_true] at w; exact w.1)
theorem Packet.acqStats (h : Hdr) (kind idx : Nat) (clear : Bool) : Packet.Statement (.acqStats h kind idx clear) :=
  packet_of_some _ h _ rfl (by decide) (fun w => by simp only [Instr.wf, Bool.and_eq_true] at w; exact w.1.1)
theorem Packet.timeSet (h : Hdr) (sec ns : Nat) : Packet.Statement (.timeSet h sec ns) :=
  packet_of_some _ h _ rfl (by decide) (fun w => by simp only [Instr.wf, Bool.and_eq_true] at w; exact w.1.1)
theorem Packet.timeStep (h : Hdr) (off : W64) : Packet.Statement (.timeStep h off) :=
  packet_of_some _ h _ rfl (by decide) (fun w => w)
theorem Packet.timeInc (h : Hdr) (frac whole : Nat) : Packet.Statement (.timeInc h frac whole) :=
  packet_of_some _ h _ rfl (by decide) (fun w => by simp only [Instr.wf, Bool.and_eq_true] at w; exact w.1.1)
theorem Packet.timeHoldover (h : Hdr) (enter : Bool) : Packet.Statement (.timeHoldover h enter) :=
  packet_of_some _ h _ rfl (by decide) (fun w => w)
theorem Packet.ppsConfig (h : Hdr) (cfg ofs : W32) : Packet.Statement (.ppsConfig h cfg ofs) :=
  packet_of_some _ h _ rfl (by decide) (fun w => w)
theorem Packet.tsConfig (h : Hdr) (cfg : W32) : Packet.Statement (.tsConfig h cfg) :=
  packet_of_some _ h _ rfl (by decide) (fun w => w)
theorem Packet.ptpConfig (h : Hdr) (lane : Nat) (en oneStep : Bool) : Packet.Statement (.ptpConfig h lane en oneStep) :=
  packet_of_some _ h _ rfl (by decide) (fun w => by simp only [Instr.wf, Bool.and_eq_true] at w; exact w.1)
theorem Packet.timeFrame (h : Hdr) (g : Nat) : Packet.Statement (.timeFrame h g) :=
  packet_of_some _ h _ rfl (by decide) (fun w => by simp only [Instr.wf, Bool.and_eq_true] at w; exact w.1)
theorem Packet.timeFrameRead (h : Hdr) (g : Nat) : Packet.Statement (.timeFrameRead h g) :=
  packet_of_some _ h _ rfl (by decide) (fun w => by simp only [Instr.wf, Bool.and_eq_true] at w; exact w.1)
theorem Packet.twinConfig (h : Hdr) (role relay tie : Bool) : Packet.Statement (.twinConfig h role relay tie) :=
  packet_of_some _ h _ rfl (by decide) (fun w => w)
theorem Packet.admitPartner (h : Hdr) (fp : BitVec 384) : Packet.Statement (.admitPartner h fp) :=
  packet_of_some _ h _ rfl (by decide) (fun w => w)
theorem Packet.twinStatus (h : Hdr) (clear : Bool) : Packet.Statement (.twinStatus h clear) :=
  packet_of_some _ h _ rfl (by decide) (fun w => w)
theorem Packet.twinHandover (h : Hdr) (hAt : W32) : Packet.Statement (.twinHandover h hAt) :=
  packet_of_some _ h _ rfl (by decide) (fun w => w)
theorem Packet.twinDisable (h : Hdr) : Packet.Statement (.twinDisable h) :=
  packet_of_some _ h _ rfl (by decide) (fun w => w)
theorem Packet.pwrStatus (h : Hdr) : Packet.Statement (.pwrStatus h) :=
  packet_of_some _ h _ rfl (by decide) (fun w => w)
theorem Packet.feedConfig (h : Hdr) (bEn : Bool) (returnMs restoreMs : Nat) (keep : W64) : Packet.Statement (.feedConfig h bEn returnMs restoreMs keep) :=
  packet_of_some _ h _ rfl (by decide) (fun w => by simp only [Instr.wf, Bool.and_eq_true] at w; exact w.1.1)
theorem Packet.loopConfig (h : Hdr) (mask : Nat) (freeze droopEn : Bool) (guardMv : Nat) : Packet.Statement (.loopConfig h mask freeze droopEn guardMv) :=
  packet_of_some _ h _ rfl (by decide) (fun w => by simp only [Instr.wf, Bool.and_eq_true] at w; exact w.1.1)
theorem Packet.attest (h : Hdr) (cert : Bool) (nonce : BitVec 384) : Packet.Statement (.attest h cert nonce) :=
  packet_of_some _ h _ rfl (by decide) (fun w => w)
theorem Packet.ownerKey (h : Hdr) (slot : Nat) (revoke : Bool) (key : BitVec 768) : Packet.Statement (.ownerKey h slot revoke key) :=
  packet_of_some _ h _ rfl (by decide) (fun w => by simp only [Instr.wf, Bool.and_eq_true] at w; exact w.1)
theorem Packet.fuseBlow (h : Hdr) (fuse : Nat) : Packet.Statement (.fuseBlow h fuse) :=
  packet_of_some _ h _ rfl (by decide) (fun w => by simp only [Instr.wf, Bool.and_eq_true] at w; exact w.1)
theorem Packet.fwUpdateBegin (h : Hdr) (kind len : Nat) : Packet.Statement (.fwUpdateBegin h kind len) :=
  packet_of_some _ h _ rfl (by decide) (fun w => by simp only [Instr.wf, Bool.and_eq_true] at w; exact w.1.1)
theorem Packet.fwUpdateChunk (h : Hdr) (off : Nat) (bytes : List W8) : Packet.Statement (.fwUpdateChunk h off bytes) :=
  packet_of_some _ h _ rfl (by decide) (fun w => by simp only [Instr.wf, Bool.and_eq_true] at w; exact w.1.1)
theorem Packet.fwUpdateCommit (h : Hdr) (kind : Nat) (raise : Bool) : Packet.Statement (.fwUpdateCommit h kind raise) :=
  packet_of_some _ h _ rfl (by decide) (fun w => by simp only [Instr.wf, Bool.and_eq_true] at w; exact w.1)
theorem Packet.eventLogRead (h : Hdr) (seq count : Nat) : Packet.Statement (.eventLogRead h seq count) :=
  packet_of_some _ h _ rfl (by decide) (fun w => by simp only [Instr.wf, Bool.and_eq_true] at w; exact w.1.1)
theorem Packet.sensorRead (h : Hdr) (code a b : Nat) : Packet.Statement (.sensorRead h code a b) :=
  packet_of_some _ h _ rfl (by decide) (fun w => by simp only [Instr.wf, Bool.and_eq_true] at w; exact w.1.1.1)
theorem Packet.coreRetire (h : Hdr) (tile row pos : Nat) : Packet.Statement (.coreRetire h tile row pos) :=
  packet_of_some _ h _ rfl (by decide) (fun w => by simp only [Instr.wf, Bool.and_eq_true] at w; exact w.1.1.1)
theorem Packet.coreReturn (h : Hdr) (tile row pos : Nat) : Packet.Statement (.coreReturn h tile row pos) :=
  packet_of_some _ h _ rfl (by decide) (fun w => by simp only [Instr.wf, Bool.and_eq_true] at w; exact w.1.1.1)
theorem Packet.selftest (h : Hdr) (mask : Nat) : Packet.Statement (.selftest h mask) :=
  packet_of_some _ h _ rfl (by decide) (fun w => by simp only [Instr.wf, Bool.and_eq_true] at w; exact w.1)
theorem Packet.debugRead (h : Hdr) (addr count : Nat) (ecc : Findings := []) : Packet.Statement (.debugRead h addr count ecc) :=
  packet_of_some _ h _ rfl (by decide) (fun w => by simp only [Instr.wf, Bool.and_eq_true] at w; exact w.1.1)
theorem Packet.debugWrite (h : Hdr) (addr : Nat) (ws : List W32) : Packet.Statement (.debugWrite h addr ws) :=
  packet_of_some _ h _ rfl (by decide) (fun w => by simp only [Instr.wf, Bool.and_eq_true] at w; exact w.1.1)
theorem Packet.patRead (h : Hdr) (table : Nat) (gen : Bool) (key : BitVec 96) (count : Nat) (ecc : Findings := []) : Packet.Statement (.patRead h table gen key count ecc) :=
  packet_of_some _ h _ rfl (by decide) (fun w => by simp only [Instr.wf, Bool.and_eq_true] at w; exact w.1.1)
theorem Packet.patWrite (h : Hdr) (table first : Nat) (vals : List W64) : Packet.Statement (.patWrite h table first vals) :=
  packet_of_some _ h _ rfl (by decide) (fun w => by simp only [Instr.wf, Bool.and_eq_true] at w; exact w.1.1.1)
theorem Packet.patInsert (h : Hdr) (table : Nat) (kvs : List (BitVec 96 × W64)) : Packet.Statement (.patInsert h table kvs) :=
  packet_of_some _ h _ rfl (by decide) (fun w => by simp only [Instr.wf, Bool.and_eq_true] at w; exact w.1.1)
theorem Packet.patDelete (h : Hdr) (table : Nat) (keys : List (BitVec 96)) : Packet.Statement (.patDelete h table keys) :=
  packet_of_some _ h _ rfl (by decide) (fun w => by simp only [Instr.wf, Bool.and_eq_true] at w; exact w.1.1)
theorem Packet.patGenSwitch (h : Hdr) (table : Nat) (sAt : W32) : Packet.Statement (.patGenSwitch h table sAt) :=
  packet_of_some _ h _ rfl (by decide) (fun w => by simp only [Instr.wf, Bool.and_eq_true] at w; exact w.1)
theorem Packet.patSync (h : Hdr) (table : Nat) : Packet.Statement (.patSync h table) :=
  packet_of_some _ h _ rfl (by decide) (fun w => by simp only [Instr.wf, Bool.and_eq_true] at w; exact w.1)
theorem Packet.patStats (h : Hdr) (table : Nat) (clear : Bool) : Packet.Statement (.patStats h table clear) :=
  packet_of_some _ h _ rfl (by decide) (fun w => by simp only [Instr.wf, Bool.and_eq_true] at w; exact w.1)
theorem Packet.cmdTail (tail : Nat) (pkts : List (List W32)) : Packet.Statement (.cmdTail tail pkts) := packet_of_none _ rfl
theorem Packet.cmdCfg (en : Bool) (size : Nat) : Packet.Statement (.cmdCfg en size) := packet_of_none _ rfl
theorem Packet.rplCfg (en : Bool) (size : Nat) : Packet.Statement (.rplCfg en size) := packet_of_none _ rfl
theorem Packet.fltCfg (en : Bool) (size : Nat) : Packet.Statement (.fltCfg en size) := packet_of_none _ rfl
theorem Packet.rplHead (v : Nat) : Packet.Statement (.rplHead v) := packet_of_none _ rfl
theorem Packet.fltHead (v : Nat) : Packet.Statement (.fltHead v) := packet_of_none _ rfl
theorem Packet.irqStatus (v : W32) : Packet.Statement (.irqStatus v) := packet_of_none _ rfl
theorem Packet.pktWrite (ws : List W32) : Packet.Statement (.pktWrite ws) := packet_of_none _ rfl
theorem Packet.rplRead (complete : Bool) : Packet.Statement (.rplRead complete) := packet_of_none _ rfl
theorem Packet.statRead : Packet.Statement .statRead := packet_of_none _ rfl
theorem Packet.windowBRead (addr n : Nat) (ecc : Findings := []) : Packet.Statement (.windowBRead addr n ecc) := packet_of_none _ rfl
theorem Packet.windowBWrite (addr : Nat) (bytes : List W8) : Packet.Statement (.windowBWrite addr bytes) := packet_of_none _ rfl
theorem Packet.registerWrite (addr : Nat) (v : W32) : Packet.Statement (.registerWrite addr v) := packet_of_none _ rfl
theorem Packet.scCtrlClr (tile m : Nat) : Packet.Statement (.scCtrlClr tile m) := packet_of_none _ rfl
theorem Packet.fbClr (k o : Nat) : Packet.Statement (.fbClr k o) := packet_of_none _ rfl
theorem Packet.reqPrio (id : Nat) (v : W32) : Packet.Statement (.reqPrio id v) := packet_of_none _ rfl
theorem Packet.strRd (st : Nat) (v : W32) : Packet.Statement (.strRd st v) := packet_of_none _ rfl
theorem Packet.injGo (lane : Nat) : Packet.Statement (.injGo lane) := packet_of_none _ rfl
theorem Packet.todLatch : Packet.Statement .todLatch := packet_of_none _ rfl
theorem Packet.tsTick : Packet.Statement .tsTick := packet_of_none _ rfl
theorem Packet.powerOn (aMv bMv : Nat) : Packet.Statement (.powerOn aMv bMv) := packet_of_none _ rfl
theorem Packet.resetN : Packet.Statement .resetN := packet_of_none _ rfl
theorem Packet.perstN : Packet.Statement .perstN := packet_of_none _ rfl
theorem Packet.hubWatchdog : Packet.Statement .hubWatchdog := packet_of_none _ rfl
theorem Packet.wardenFwVerify (copy : Nat) (ok : Bool) : Packet.Statement (.wardenFwVerify copy ok) := packet_of_none _ rfl
theorem Packet.hubFwVerify (copy : Nat) (ok : Bool) : Packet.Statement (.hubFwVerify copy ok) := packet_of_none _ rfl
theorem Packet.refMeasure (khz : Nat) : Packet.Statement (.refMeasure khz) := packet_of_none _ rfl
theorem Packet.pllLock : Packet.Statement .pllLock := packet_of_none _ rfl
theorem Packet.hubInitDone (cals : List CalResult) : Packet.Statement (.hubInitDone cals) := packet_of_none _ rfl
theorem Packet.smbusBlockRead (addr code a b : Nat) : Packet.Statement (.smbusBlockRead addr code a b) := packet_of_none _ rfl
theorem Packet.tickStrobe : Packet.Statement .tickStrobe := packet_of_none _ rfl
theorem Packet.tickOutFall : Packet.Statement .tickOutFall := packet_of_none _ rfl
theorem Packet.tickInEdge (cyc : Nat) : Packet.Statement (.tickInEdge cyc) := packet_of_none _ rfl
theorem Packet.tickInWindowEnd : Packet.Statement .tickInWindowEnd := packet_of_none _ rfl
theorem Packet.tickInLock : Packet.Statement .tickInLock := packet_of_none _ rfl
theorem Packet.tickInLost : Packet.Statement .tickInLost := packet_of_none _ rfl
theorem Packet.tickInPhaseTake : Packet.Statement .tickInPhaseTake := packet_of_none _ rfl
theorem Packet.droopStretch (tile cycle eighths : Nat) : Packet.Statement (.droopStretch tile cycle eighths) := packet_of_none _ rfl
theorem Packet.stageGroupCompletion (tile m : Nat) (event : W32) (cycle : Nat) : Packet.Statement (.stageGroupCompletion tile m event cycle) := packet_of_none _ rfl
theorem Packet.deadlineExpiry (tile m : Nat) (event : W32) : Packet.Statement (.deadlineExpiry tile m event) := packet_of_none _ rfl
theorem Packet.outputHandoff (k o : Nat) (event : W32) : Packet.Statement (.outputHandoff k o event) := packet_of_none _ rfl
theorem Packet.escalationWindowEnd (k o : Nat) : Packet.Statement (.escalationWindowEnd k o) := packet_of_none _ rfl
theorem Packet.haltedEntry : Packet.Statement .haltedEntry := packet_of_none _ rfl
theorem Packet.resumeStrobe : Packet.Statement .resumeStrobe := packet_of_none _ rfl
theorem Packet.firingStart (tile core cyc : Nat) : Packet.Statement (.firingStart tile core cyc) := packet_of_none _ rfl
theorem Packet.surveyOverrun (tile core : Nat) : Packet.Statement (.surveyOverrun tile core) := packet_of_none _ rfl
theorem Packet.mov (tile core : Nat) (m : AntMeas := {}) : Packet.Statement (.mov tile core m) := packet_of_none _ rfl
theorem Packet.ldv (tile core : Nat) (m : AntMeas := {}) : Packet.Statement (.ldv tile core m) := packet_of_none _ rfl
theorem Packet.stv (tile core : Nat) (m : AntMeas := {}) : Packet.Statement (.stv tile core m) := packet_of_none _ rfl
theorem Packet.ldi (tile core : Nat) (m : AntMeas := {}) : Packet.Statement (.ldi tile core m) := packet_of_none _ rfl
theorem Packet.accclr (tile core : Nat) (m : AntMeas := {}) : Packet.Statement (.accclr tile core m) := packet_of_none _ rfl
theorem Packet.dot (tile core : Nat) (m : AntMeas := {}) : Packet.Statement (.dot tile core m) := packet_of_none _ rfl
theorem Packet.outp (tile core : Nat) (m : AntMeas := {}) : Packet.Statement (.outp tile core m) := packet_of_none _ rfl
theorem Packet.xadd (tile core : Nat) (m : AntMeas := {}) : Packet.Statement (.xadd tile core m) := packet_of_none _ rfl
theorem Packet.accout (tile core : Nat) (m : AntMeas := {}) : Packet.Statement (.accout tile core m) := packet_of_none _ rfl
theorem Packet.vadd (tile core : Nat) (m : AntMeas := {}) : Packet.Statement (.vadd tile core m) := packet_of_none _ rfl
theorem Packet.vmul (tile core : Nat) (m : AntMeas := {}) : Packet.Statement (.vmul tile core m) := packet_of_none _ rfl
theorem Packet.vmax (tile core : Nat) (m : AntMeas := {}) : Packet.Statement (.vmax tile core m) := packet_of_none _ rfl
theorem Packet.vmin (tile core : Nat) (m : AntMeas := {}) : Packet.Statement (.vmin tile core m) := packet_of_none _ rfl
theorem Packet.vfma (tile core : Nat) (m : AntMeas := {}) : Packet.Statement (.vfma tile core m) := packet_of_none _ rfl
theorem Packet.vcmp (tile core : Nat) (m : AntMeas := {}) : Packet.Statement (.vcmp tile core m) := packet_of_none _ rfl
theorem Packet.vsel (tile core : Nat) (m : AntMeas := {}) : Packet.Statement (.vsel tile core m) := packet_of_none _ rfl
theorem Packet.vcvt (tile core : Nat) (m : AntMeas := {}) : Packet.Statement (.vcvt tile core m) := packet_of_none _ rfl
theorem Packet.vrsc (tile core : Nat) (m : AntMeas := {}) : Packet.Statement (.vrsc tile core m) := packet_of_none _ rfl
theorem Packet.qpop (tile core : Nat) (m : AntMeas := {}) : Packet.Statement (.qpop tile core m) := packet_of_none _ rfl
theorem Packet.qpush (tile core : Nat) (m : AntMeas := {}) : Packet.Statement (.qpush tile core m) := packet_of_none _ rfl
theorem Packet.qfwd (tile core : Nat) (m : AntMeas := {}) : Packet.Statement (.qfwd tile core m) := packet_of_none _ rfl
theorem Packet.sreq (tile core : Nat) (m : AntMeas := {}) : Packet.Statement (.sreq tile core m) := packet_of_none _ rfl
theorem Packet.sfuc (tile core : Nat) (m : AntMeas := {}) : Packet.Statement (.sfuc tile core m) := packet_of_none _ rfl
theorem Packet.nop (tile core : Nat) (m : AntMeas := {}) : Packet.Statement (.nop tile core m) := packet_of_none _ rfl
theorem Packet.loopOp (tile core : Nat) (m : AntMeas := {}) : Packet.Statement (.loopOp tile core m) := packet_of_none _ rfl
theorem Packet.endOp (tile core : Nat) (m : AntMeas := {}) : Packet.Statement (.endOp tile core m) := packet_of_none _ rfl
theorem Packet.flitWrite (ix held : Nat) (ecc : Findings := []) : Packet.Statement (.flitWrite ix held ecc) := packet_of_none _ rfl
theorem Packet.creditReturn (ix : Nat) : Packet.Statement (.creditReturn ix) := packet_of_none _ rfl
theorem Packet.retirementThreshold (tile core : Nat) : Packet.Statement (.retirementThreshold tile core) := packet_of_none _ rfl
theorem Packet.substCopy (tile row : Nat) (ecc : Findings := []) : Packet.Statement (.substCopy tile row ecc) := packet_of_none _ rfl
theorem Packet.substQuietTick (tile row : Nat) (ecc : Findings := []) : Packet.Statement (.substQuietTick tile row ecc) := packet_of_none _ rfl
theorem Packet.substSwitch (tile row : Nat) (ecc : Findings := []) : Packet.Statement (.substSwitch tile row ecc) := packet_of_none _ rfl
theorem Packet.sfuCallStart (tile unit slot cyc : Nat) (residue : Bool) : Packet.Statement (.sfuCallStart tile unit slot cyc residue) := packet_of_none _ rfl
theorem Packet.sfuResult (tile unit : Nat) : Packet.Statement (.sfuResult tile unit) := packet_of_none _ rfl
theorem Packet.kvLoad (tile unit : Nat) : Packet.Statement (.kvLoad tile unit) := packet_of_none _ rfl
theorem Packet.contextArmed : Packet.Statement .contextArmed := packet_of_none _ rfl
theorem Packet.contextStartStrobe : Packet.Statement .contextStartStrobe := packet_of_none _ rfl
theorem Packet.drainStrobe : Packet.Statement .drainStrobe := packet_of_none _ rfl
theorem Packet.contextRetirement : Packet.Statement .contextRetirement := packet_of_none _ rfl
theorem Packet.stopStrobe : Packet.Statement .stopStrobe := packet_of_none _ rfl
theorem Packet.surveyDrainRetire (k : Nat) : Packet.Statement (.surveyDrainRetire k) := packet_of_none _ rfl
theorem Packet.drainTimeout (k : Nat) : Packet.Statement (.drainTimeout k) := packet_of_none _ rfl
theorem Packet.contextFaulted : Packet.Statement .contextFaulted := packet_of_none _ rfl
theorem Packet.scarabStep (tile cyc : Nat) : Packet.Statement (.scarabStep tile cyc) := packet_of_none _ rfl
theorem Packet.scarabHubStep (cyc : Nat) : Packet.Statement (.scarabHubStep cyc) := packet_of_none _ rfl
theorem Packet.passSwitch (k : Nat) (ecc : Findings := []) : Packet.Statement (.passSwitch k ecc) := packet_of_none _ rfl
theorem Packet.reservedSlot (port slot : Nat) (ecc : Findings) : Packet.Statement (.reservedSlot port slot ecc) := packet_of_none _ rfl
theorem Packet.arbRequest (arb id len cyc : Nat) (acc : Option ArbAccess := none) : Packet.Statement (.arbRequest arb id len cyc acc) := packet_of_none _ rfl
theorem Packet.arbGrant (arb cyc : Nat) : Packet.Statement (.arbGrant arb cyc) := packet_of_none _ rfl
theorem Packet.arbTransferEnd (arb cyc : Nat) (ecc : Findings := []) : Packet.Statement (.arbTransferEnd arb cyc ecc) := packet_of_none _ rfl
theorem Packet.scrubRead (addr : Nat) (ecc : Findings) : Packet.Statement (.scrubRead addr ecc) := packet_of_none _ rfl
theorem Packet.scrubPassEnd (kind seconds : Nat) : Packet.Statement (.scrubPassEnd kind seconds) := packet_of_none _ rfl
theorem Packet.patRequest (ix : Nat) (ecc : Findings) (cyc : Nat) : Packet.Statement (.patRequest ix ecc cyc) := packet_of_none _ rfl
theorem Packet.patResult (ix : Nat) : Packet.Statement (.patResult ix) := packet_of_none _ rfl
theorem Packet.patGenFlip (table : Nat) : Packet.Statement (.patGenFlip table) := packet_of_none _ rfl
theorem Packet.commitWriteOut (ecc : Findings := []) : Packet.Statement (.commitWriteOut ecc) := packet_of_none _ rfl
theorem Packet.commitValid : Packet.Statement .commitValid := packet_of_none _ rfl
theorem Packet.trainingBlock (lane : Nat) (w : W64) (satisfied : Bool) : Packet.Statement (.trainingBlock lane w satisfied) := packet_of_none _ rfl
theorem Packet.trainStepTimeout (lane : Nat) : Packet.Statement (.trainStepTimeout lane) := packet_of_none _ rfl
theorem Packet.trainBackoffEnd (lane : Nat) : Packet.Statement (.trainBackoffEnd lane) := packet_of_none _ rfl
theorem Packet.autoRetry (lane : Nat) : Packet.Statement (.autoRetry lane) := packet_of_none _ rfl
theorem Packet.blockReceive (lane sync : Nat) (w : W64) (fill : Int) : Packet.Statement (.blockReceive lane sync w fill) := packet_of_none _ rfl
theorem Packet.lockHuntTimeout (lane : Nat) : Packet.Statement (.lockHuntTimeout lane) := packet_of_none _ rfl
theorem Packet.alignmentMarker (lane : Nat) (w : W64) (late : Nat) (setPoint : Option Nat) : Packet.Statement (.alignmentMarker lane w late setPoint) := packet_of_none _ rfl
theorem Packet.markerSend (lane : Nat) : Packet.Statement (.markerSend lane) := packet_of_none _ rfl
theorem Packet.txPllUnlock (edge : Nat) : Packet.Statement (.txPllUnlock edge) := packet_of_none _ rfl
theorem Packet.txPllRelock (edge : Nat) : Packet.Statement (.txPllRelock edge) := packet_of_none _ rfl
theorem Packet.lanePowerReturn (lane : Nat) (tx : Bool) : Packet.Statement (.lanePowerReturn lane tx) := packet_of_none _ rfl
theorem Packet.laneEyeDone (lane height width : Nat) : Packet.Statement (.laneEyeDone lane height width) := packet_of_none _ rfl
theorem Packet.fecCodeword (lane : Nat) (message check : List Nat) : Packet.Statement (.fecCodeword lane message check) := packet_of_none _ rfl
theorem Packet.eventHdr (g cyc : Nat) : Packet.Statement (.eventHdr g cyc) := packet_of_none _ rfl
theorem Packet.trailer (g st : Nat) : Packet.Statement (.trailer g st) := packet_of_none _ rfl
theorem Packet.fieldRelease (f : Nat) : Packet.Statement (.fieldRelease f) := packet_of_none _ rfl
theorem Packet.frameAbsent (g st : Nat) : Packet.Statement (.frameAbsent g st) := packet_of_none _ rfl
theorem Packet.ctrlCommand (g : Nat) : Packet.Statement (.ctrlCommand g) := packet_of_none _ rfl
theorem Packet.ctrlReply (g : Nat) : Packet.Statement (.ctrlReply g) := packet_of_none _ rfl
theorem Packet.txIdle (g : Nat) : Packet.Statement (.txIdle g) := packet_of_none _ rfl
theorem Packet.ping (g : Nat) : Packet.Statement (.ping g) := packet_of_none _ rfl
theorem Packet.pong (g cyc : Nat) : Packet.Statement (.pong g cyc) := packet_of_none _ rfl
theorem Packet.timeHdr (g : Nat) : Packet.Statement (.timeHdr g) := packet_of_none _ rfl
theorem Packet.fastTick (g age : Nat) : Packet.Statement (.fastTick g age) := packet_of_none _ rfl
theorem Packet.ack (g : Nat) : Packet.Statement (.ack g) := packet_of_none _ rfl
theorem Packet.nak (g : Nat) : Packet.Statement (.nak g) := packet_of_none _ rfl
theorem Packet.replayTimeout (g : Nat) : Packet.Statement (.replayTimeout g) := packet_of_none _ rfl
theorem Packet.readReq (g : Nat) (ecc : Findings := []) : Packet.Statement (.readReq g ecc) := packet_of_none _ rfl
theorem Packet.readRsp (g : Nat) : Packet.Statement (.readRsp g) := packet_of_none _ rfl
theorem Packet.memWrite (g : Nat) : Packet.Statement (.memWrite g) := packet_of_none _ rfl
theorem Packet.writeAck (g : Nat) : Packet.Statement (.writeAck g) := packet_of_none _ rfl
theorem Packet.treadReq (g : Nat) (ecc : Findings := []) : Packet.Statement (.treadReq g ecc) := packet_of_none _ rfl
theorem Packet.treadRsp (g : Nat) : Packet.Statement (.treadRsp g) := packet_of_none _ rfl
theorem Packet.treadRelease (g : Nat) : Packet.Statement (.treadRelease g) := packet_of_none _ rfl
theorem Packet.outboundFrameSend (st : Nat) : Packet.Statement (.outboundFrameSend st) := packet_of_none _ rfl
theorem Packet.sampleEntry (ch j : Nat) : Packet.Statement (.sampleEntry ch j) := packet_of_none _ rfl
theorem Packet.clickEdge (u : Nat) (rising : Bool) (cyc fine : Nat) : Packet.Statement (.clickEdge u rising cyc fine) := packet_of_none _ rfl
theorem Packet.clickCalDone (res : List CalResult) : Packet.Statement (.clickCalDone res) := packet_of_none _ rfl
theorem Packet.combinerPulse : Packet.Statement .combinerPulse := packet_of_none _ rfl
theorem Packet.triggerRecord : Packet.Statement .triggerRecord := packet_of_none _ rfl
theorem Packet.decisionDrive (j : Nat) : Packet.Statement (.decisionDrive j) := packet_of_none _ rfl
theorem Packet.decisionRelease (j : Nat) : Packet.Statement (.decisionRelease j) := packet_of_none _ rfl
theorem Packet.acqTrigger (g : Nat) : Packet.Statement (.acqTrigger g) := packet_of_none _ rfl
theorem Packet.acqCapture (g : Nat) (ecc : Findings := []) : Packet.Statement (.acqCapture g ecc) := packet_of_none _ rfl
theorem Packet.segmentClose (g : Nat) : Packet.Statement (.segmentClose g) := packet_of_none _ rfl
theorem Packet.acqRearm (g : Nat) : Packet.Statement (.acqRearm g) := packet_of_none _ rfl
theorem Packet.acqBufferFree (g b : Nat) : Packet.Statement (.acqBufferFree g b) := packet_of_none _ rfl
theorem Packet.acqArmStrobe : Packet.Statement .acqArmStrobe := packet_of_none _ rfl
theorem Packet.acqDisarmStrobe : Packet.Statement .acqDisarmStrobe := packet_of_none _ rfl
theorem Packet.changeSample (u : Nat) : Packet.Statement (.changeSample u) := packet_of_none _ rfl
theorem Packet.streamItemWrite (st : Nat) (ecc : Findings := []) : Packet.Statement (.streamItemWrite st ecc) := packet_of_none _ rfl
theorem Packet.primSetStrobe : Packet.Statement .primSetStrobe := packet_of_none _ rfl
theorem Packet.condSetStrobe : Packet.Statement .condSetStrobe := packet_of_none _ rfl
theorem Packet.trigEnableStrobe : Packet.Statement .trigEnableStrobe := packet_of_none _ rfl
theorem Packet.busSlotLaunch : Packet.Statement .busSlotLaunch := packet_of_none _ rfl
theorem Packet.busSlotReceive (lines : List Nat) (cyc : Nat) : Packet.Statement (.busSlotReceive lines cyc) := packet_of_none _ rfl
theorem Packet.busCalDone (loops : List (Nat × Nat)) : Packet.Statement (.busCalDone loops) := packet_of_none _ rfl
theorem Packet.busAlignDone : Packet.Statement .busAlignDone := packet_of_none _ rfl
theorem Packet.holdoverTimeout : Packet.Statement .holdoverTimeout := packet_of_none _ rfl
theorem Packet.timePllUnlock : Packet.Statement .timePllUnlock := packet_of_none _ rfl
theorem Packet.timePllRelock : Packet.Statement .timePllRelock := packet_of_none _ rfl
theorem Packet.ppsOutRise : Packet.Statement .ppsOutRise := packet_of_none _ rfl
theorem Packet.ppsOutFall : Packet.Statement .ppsOutFall := packet_of_none _ rfl
theorem Packet.ppsInEdge : Packet.Statement .ppsInEdge := packet_of_none _ rfl
theorem Packet.ptpRx (lane cyc : Nat) (frame : List W8) : Packet.Statement (.ptpRx lane cyc frame) := packet_of_none _ rfl
theorem Packet.ptpTx (lane cyc tag : Nat) (frame : List W8) : Packet.Statement (.ptpTx lane cyc tag frame) := packet_of_none _ rfl
theorem Packet.twinAttestation : Packet.Statement .twinAttestation := packet_of_none _ rfl
theorem Packet.attestAnswer (a : AttAnswer) : Packet.Statement (.attestAnswer a) := packet_of_none _ rfl
theorem Packet.attestTimeout : Packet.Statement .attestTimeout := packet_of_none _ rfl
theorem Packet.attestRetry : Packet.Statement .attestRetry := packet_of_none _ rfl
theorem Packet.digestSend : Packet.Statement .digestSend := packet_of_none _ rfl
theorem Packet.digestReceive : Packet.Statement .digestReceive := packet_of_none _ rfl
theorem Packet.digestCompare : Packet.Statement .digestCompare := packet_of_none _ rfl
theorem Packet.twinRelease : Packet.Statement .twinRelease := packet_of_none _ rfl
theorem Packet.twinTakeover : Packet.Statement .twinTakeover := packet_of_none _ rfl
theorem Packet.partnerAbsent : Packet.Statement .partnerAbsent := packet_of_none _ rfl
theorem Packet.feedSample (aV bV busV aI bI : Nat) (aBad bBad : Bool) (temp : Int) (die : Nat) : Packet.Statement (.feedSample aV bV busV aI bI aBad bBad temp die) := packet_of_none _ rfl
theorem Packet.feedFaultClear : Packet.Statement .feedFaultClear := packet_of_none _ rfl
theorem Packet.feedSwitch : Packet.Statement .feedSwitch := packet_of_none _ rfl
theorem Packet.feedReturn : Packet.Statement .feedReturn := packet_of_none _ rfl
theorem Packet.shedEnter (stage : Nat) : Packet.Statement (.shedEnter stage) := packet_of_none _ rfl
theorem Packet.shedStrongStrobe : Packet.Statement .shedStrongStrobe := packet_of_none _ rfl
theorem Packet.shedS6 : Packet.Statement .shedS6 := packet_of_none _ rfl
theorem Packet.shedRestore (stage : Nat) (ecc : Findings := []) : Packet.Statement (.shedRestore stage ecc) := packet_of_none _ rfl
theorem Packet.resumeRewriteDone (ecc : Findings := []) : Packet.Statement (.resumeRewriteDone ecc) := packet_of_none _ rfl
theorem Packet.coolantRange (temp : Int) : Packet.Statement (.coolantRange temp) := packet_of_none _ rfl
theorem Packet.avsStep (tile : Nat) (raise : Bool) : Packet.Statement (.avsStep tile raise) := packet_of_none _ rfl
theorem Packet.clockUnlock : Packet.Statement .clockUnlock := packet_of_none _ rfl
theorem Packet.numWindowEnd : Packet.Statement .numWindowEnd := packet_of_none _ rfl
theorem Packet.reportWindowEnd : Packet.Statement .reportWindowEnd := packet_of_none _ rfl
theorem Packet.lossOfPower : Packet.Statement .lossOfPower := packet_of_none _ rfl
theorem Packet.resetNHigh : Packet.Statement .resetNHigh := packet_of_none _ rfl
theorem Packet.signalDetect (lane : Nat) : Packet.Statement (.signalDetect lane) := packet_of_none _ rfl
theorem Packet.adaptConverged (lane : Nat) : Packet.Statement (.adaptConverged lane) := packet_of_none _ rfl
theorem Packet.prbsCheckerLock (lane : Nat) (bits : List Bool) : Packet.Statement (.prbsCheckerLock lane bits) := packet_of_none _ rfl
theorem Packet.canaryFailure (tile core : Nat) : Packet.Statement (.canaryFailure tile core) := packet_of_none _ rfl
theorem Packet.attestDone : Packet.Statement .attestDone := packet_of_none _ rfl
theorem Packet.fuseBlowDone (ok : Bool) : Packet.Statement (.fuseBlowDone ok) := packet_of_none _ rfl
theorem Packet.fwUpdateCommitDone (ok : Bool) : Packet.Statement (.fwUpdateCommitDone ok) := packet_of_none _ rfl
theorem Packet.selftestDone (core : Option (Nat × Nat)) (pass : List Nat) : Packet.Statement (.selftestDone core pass) := packet_of_none _ rfl
theorem Packet.patSyncDone (table : Nat) (ecc : Findings := []) : Packet.Statement (.patSyncDone table ecc) := packet_of_none _ rfl
theorem Packet.jtagInstruction (ir : Nat) : Packet.Statement (.jtagInstruction ir) := packet_of_none _ rfl

end Sys2Proof.Laws
end

