-- ==== Sys2Proof/Laws/Raise.lean ====
section
/-! SUPPORT. What raising a code can do, said once: it touches the counter of its code, the fault ring, the event log, the report
windows, the evidence and IRQ_STATUS, and nothing else. -/

namespace Sys2Proof.Machine

theorem State.outbox_host (s t : State) (tr : Transport) (h : s.host = t.host) : s.outbox tr = t.outbox tr := by
  unfold State.outbox; rw [h]

/-- Those of a record. -/
def recordRegs : List Nat := [Reg.fltTail, Reg.faultSummary, Reg.fltDrops, Reg.irqStatus]

/-- The bits of FAULT_SUMMARY that records set. -/
def State.noteClass (s : State) (rs : List FaultRec) : State :=
  rs.foldl (fun t r => if r.kind = 0 ∨ r.kind = 2 ∨ r.kind = 3 then
      t.wr Reg.faultSummary (setBit (t.rd Reg.faultSummary) (r.code / 4096) true) else t) s

@[simp] theorem State.noteClass_pending (rs : List FaultRec) (s : State) : (s.noteClass rs).pending = s.pending := by
  unfold State.noteClass
  induction rs generalizing s with
  | nil => rfl
  | cons r l ih => rw [List.foldl_cons, ih]; split <;> rfl
@[simp] theorem State.noteClass_mem (rs : List FaultRec) (s : State) : (s.noteClass rs).mem = s.mem := by
  unfold State.noteClass
  induction rs generalizing s with
  | nil => rfl
  | cons r l ih => rw [List.foldl_cons, ih]; split <;> rfl
@[simp] theorem State.noteClass_poison (rs : List FaultRec) (s : State) : (s.noteClass rs).poison = s.poison := by
  unfold State.noteClass
  induction rs generalizing s with
  | nil => rfl
  | cons r l ih => rw [List.foldl_cons, ih]; split <;> rfl
@[simp] theorem State.noteClass_dev (rs : List FaultRec) (s : State) : (s.noteClass rs).dev = s.dev := by
  unfold State.noteClass
  induction rs generalizing s with
  | nil => rfl
  | cons r l ih => rw [List.foldl_cons, ih]; split <;> rfl
@[simp] theorem State.noteClass_host (rs : List FaultRec) (s : State) : (s.noteClass rs).host = s.host := by
  unfold State.noteClass
  induction rs generalizing s with
  | nil => rfl
  | cons r l ih => rw [List.foldl_cons, ih]; split <;> rfl
@[simp] theorem State.noteClass_windows (rs : List FaultRec) (s : State) : (s.noteClass rs).windows = s.windows := by
  unfold State.noteClass
  induction rs generalizing s with
  | nil => rfl
  | cons r l ih => rw [List.foldl_cons, ih]; split <;> rfl
@[simp] theorem State.noteClass_log (rs : List FaultRec) (s : State) : (s.noteClass rs).log = s.log := by
  unfold State.noteClass
  induction rs generalizing s with
  | nil => rfl
  | cons r l ih => rw [List.foldl_cons, ih]; split <;> rfl
@[simp] theorem State.noteClass_owners (rs : List FaultRec) (s : State) : (s.noteClass rs).owners = s.owners := by
  unfold State.noteClass
  induction rs generalizing s with
  | nil => rfl
  | cons r l ih => rw [List.foldl_cons, ih]; split <;> rfl
@[simp] theorem State.noteClass_evidence (rs : List FaultRec) (s : State) : (s.noteClass rs).evidence = s.evidence := by
  unfold State.noteClass
  induction rs generalizing s with
  | nil => rfl
  | cons r l ih => rw [List.foldl_cons, ih]; split <;> rfl
@[simp] theorem State.noteClass_tod (rs : List FaultRec) (s : State) : (s.noteClass rs).tod = s.tod := by
  unfold State.noteClass
  induction rs generalizing s with
  | nil => rfl
  | cons r l ih => rw [List.foldl_cons, ih]; split <;> rfl
@[simp] theorem State.noteClass_tick (rs : List FaultRec) (s : State) : (s.noteClass rs).tick = s.tick := by
  unfold State.noteClass
  induction rs generalizing s with
  | nil => rfl
  | cons r l ih => rw [List.foldl_cons, ih]; split <;> rfl
@[simp] theorem State.noteClass_clk (rs : List FaultRec) (s : State) : (s.noteClass rs).clk = s.clk := by
  unfold State.noteClass
  induction rs generalizing s with
  | nil => rfl
  | cons r l ih => rw [List.foldl_cons, ih]; split <;> rfl
@[simp] theorem State.noteClass_ctx (rs : List FaultRec) (s : State) : (s.noteClass rs).ctx = s.ctx := by
  unfold State.noteClass
  induction rs generalizing s with
  | nil => rfl
  | cons r l ih => rw [List.foldl_cons, ih]; split <;> rfl
@[simp] theorem State.noteClass_ant (rs : List FaultRec) (s : State) : (s.noteClass rs).ant = s.ant := by
  unfold State.noteClass
  induction rs generalizing s with
  | nil => rfl
  | cons r l ih => rw [List.foldl_cons, ih]; split <;> rfl
@[simp] theorem State.noteClass_subst (rs : List FaultRec) (s : State) : (s.noteClass rs).subst = s.subst := by
  unfold State.noteClass
  induction rs generalizing s with
  | nil => rfl
  | cons r l ih => rw [List.foldl_cons, ih]; split <;> rfl
@[simp] theorem State.noteClass_scarab (rs : List FaultRec) (s : State) : (s.noteClass rs).scarab = s.scarab := by
  unfold State.noteClass
  induction rs generalizing s with
  | nil => rfl
  | cons r l ih => rw [List.foldl_cons, ih]; split <;> rfl
@[simp] theorem State.noteClass_banks (rs : List FaultRec) (s : State) : (s.noteClass rs).banks = s.banks := by
  unfold State.noteClass
  induction rs generalizing s with
  | nil => rfl
  | cons r l ih => rw [List.foldl_cons, ih]; split <;> rfl
@[simp] theorem State.noteClass_link (rs : List FaultRec) (s : State) : (s.noteClass rs).link = s.link := by
  unfold State.noteClass
  induction rs generalizing s with
  | nil => rfl
  | cons r l ih => rw [List.foldl_cons, ih]; split <;> rfl
@[simp] theorem State.noteClass_fe (rs : List FaultRec) (s : State) : (s.noteClass rs).fe = s.fe := by
  unfold State.noteClass
  induction rs generalizing s with
  | nil => rfl
  | cons r l ih => rw [List.foldl_cons, ih]; split <;> rfl
@[simp] theorem State.noteClass_acq (rs : List FaultRec) (s : State) : (s.noteClass rs).acq = s.acq := by
  unfold State.noteClass
  induction rs generalizing s with
  | nil => rfl
  | cons r l ih => rw [List.foldl_cons, ih]; split <;> rfl
@[simp] theorem State.noteClass_bus (rs : List FaultRec) (s : State) : (s.noteClass rs).bus = s.bus := by
  unfold State.noteClass
  induction rs generalizing s with
  | nil => rfl
  | cons r l ih => rw [List.foldl_cons, ih]; split <;> rfl
@[simp] theorem State.noteClass_twin (rs : List FaultRec) (s : State) : (s.noteClass rs).twin = s.twin := by
  unfold State.noteClass
  induction rs generalizing s with
  | nil => rfl
  | cons r l ih => rw [List.foldl_cons, ih]; split <;> rfl
@[simp] theorem State.noteClass_pwr (rs : List FaultRec) (s : State) : (s.noteClass rs).pwr = s.pwr := by
  unfold State.noteClass
  induction rs generalizing s with
  | nil => rfl
  | cons r l ih => rw [List.foldl_cons, ih]; split <;> rfl
@[simp] theorem State.noteClass_loader (rs : List FaultRec) (s : State) : (s.noteClass rs).loader = s.loader := by
  unfold State.noteClass
  induction rs generalizing s with
  | nil => rfl
  | cons r l ih => rw [List.foldl_cons, ih]; split <;> rfl
@[simp] theorem State.noteClass_warden (rs : List FaultRec) (s : State) : (s.noteClass rs).warden = s.warden := by
  unfold State.noteClass
  induction rs generalizing s with
  | nil => rfl
  | cons r l ih => rw [List.foldl_cons, ih]; split <;> rfl
@[simp] theorem State.noteClass_free (rs : List FaultRec) (s : State) : (s.noteClass rs).free = s.free := by
  unfold State.noteClass
  induction rs generalizing s with
  | nil => rfl
  | cons r l ih => rw [List.foldl_cons, ih]; split <;> rfl

theorem State.rd_noteClass (rs : List FaultRec) (s : State) (a : Nat) (h : a ≠ Reg.faultSummary) :
    (s.noteClass rs).rd a = s.rd a := by
  unfold State.noteClass
  induction rs generalizing s with
  | nil => rfl
  | cons r l ih =>
    rw [List.foldl_cons, ih]; split
    · exact State.rd_wr_other s _ a _ h
    · rfl

@[simp] theorem State.fltPut_pending (s : State) (rs : List FaultRec) : (s.fltPut rs).pending = s.pending := by
  show ((State.noteClass _ rs).irq irqFault).pending = _
  rw [State.irq_pending, State.noteClass_pending]; rfl
@[simp] theorem State.fltPut_mem (s : State) (rs : List FaultRec) : (s.fltPut rs).mem = s.mem := by
  show ((State.noteClass _ rs).irq irqFault).mem = _
  rw [State.irq_mem, State.noteClass_mem]; rfl
@[simp] theorem State.fltPut_poison (s : State) (rs : List FaultRec) : (s.fltPut rs).poison = s.poison := by
  show ((State.noteClass _ rs).irq irqFault).poison = _
  rw [State.irq_poison, State.noteClass_poison]; rfl
@[simp] theorem State.fltPut_dev (s : State) (rs : List FaultRec) : (s.fltPut rs).dev = s.dev := by
  show ((State.noteClass _ rs).irq irqFault).dev = _
  rw [State.irq_dev, State.noteClass_dev]; rfl
@[simp] theorem State.fltPut_windows (s : State) (rs : List FaultRec) : (s.fltPut rs).windows = s.windows := by
  show ((State.noteClass _ rs).irq irqFault).windows = _
  rw [State.irq_windows, State.noteClass_windows]; rfl
@[simp] theorem State.fltPut_log (s : State) (rs : List FaultRec) : (s.fltPut rs).log = s.log := by
  show ((State.noteClass _ rs).irq irqFault).log = _
  rw [State.irq_log, State.noteClass_log]; rfl
@[simp] theorem State.fltPut_owners (s : State) (rs : List FaultRec) : (s.fltPut rs).owners = s.owners := by
  show ((State.noteClass _ rs).irq irqFault).owners = _
  rw [State.irq_owners, State.noteClass_owners]; rfl
@[simp] theorem State.fltPut_evidence (s : State) (rs : List FaultRec) : (s.fltPut rs).evidence = s.evidence := by
  show ((State.noteClass _ rs).irq irqFault).evidence = _
  rw [State.irq_evidence, State.noteClass_evidence]; rfl
@[simp] theorem State.fltPut_tod (s : State) (rs : List FaultRec) : (s.fltPut rs).tod = s.tod := by
  show ((State.noteClass _ rs).irq irqFault).tod = _
  rw [State.irq_tod, State.noteClass_tod]; rfl
@[simp] theorem State.fltPut_tick (s : State) (rs : List FaultRec) : (s.fltPut rs).tick = s.tick := by
  show ((State.noteClass _ rs).irq irqFault).tick = _
  rw [State.irq_tick, State.noteClass_tick]; rfl
@[simp] theorem State.fltPut_clk (s : State) (rs : List FaultRec) : (s.fltPut rs).clk = s.clk := by
  show ((State.noteClass _ rs).irq irqFault).clk = _
  rw [State.irq_clk, State.noteClass_clk]; rfl
@[simp] theorem State.fltPut_ctx (s : State) (rs : List FaultRec) : (s.fltPut rs).ctx = s.ctx := by
  show ((State.noteClass _ rs).irq irqFault).ctx = _
  rw [State.irq_ctx, State.noteClass_ctx]; rfl
@[simp] theorem State.fltPut_ant (s : State) (rs : List FaultRec) : (s.fltPut rs).ant = s.ant := by
  show ((State.noteClass _ rs).irq irqFault).ant = _
  rw [State.irq_ant, State.noteClass_ant]; rfl
@[simp] theorem State.fltPut_subst (s : State) (rs : List FaultRec) : (s.fltPut rs).subst = s.subst := by
  show ((State.noteClass _ rs).irq irqFault).subst = _
  rw [State.irq_subst, State.noteClass_subst]; rfl
@[simp] theorem State.fltPut_scarab (s : State) (rs : List FaultRec) : (s.fltPut rs).scarab = s.scarab := by
  show ((State.noteClass _ rs).irq irqFault).scarab = _
  rw [State.irq_scarab, State.noteClass_scarab]; rfl
@[simp] theorem State.fltPut_banks (s : State) (rs : List FaultRec) : (s.fltPut rs).banks = s.banks := by
  show ((State.noteClass _ rs).irq irqFault).banks = _
  rw [State.irq_banks, State.noteClass_banks]; rfl
@[simp] theorem State.fltPut_link (s : State) (rs : List FaultRec) : (s.fltPut rs).link = s.link := by
  show ((State.noteClass _ rs).irq irqFault).link = _
  rw [State.irq_link, State.noteClass_link]; rfl
@[simp] theorem State.fltPut_fe (s : State) (rs : List FaultRec) : (s.fltPut rs).fe = s.fe := by
  show ((State.noteClass _ rs).irq irqFault).fe = _
  rw [State.irq_fe, State.noteClass_fe]; rfl
@[simp] theorem State.fltPut_acq (s : State) (rs : List FaultRec) : (s.fltPut rs).acq = s.acq := by
  show ((State.noteClass _ rs).irq irqFault).acq = _
  rw [State.irq_acq, State.noteClass_acq]; rfl
@[simp] theorem State.fltPut_bus (s : State) (rs : List FaultRec) : (s.fltPut rs).bus = s.bus := by
  show ((State.noteClass _ rs).irq irqFault).bus = _
  rw [State.irq_bus, State.noteClass_bus]; rfl
@[simp] theorem State.fltPut_twin (s : State) (rs : List FaultRec) : (s.fltPut rs).twin = s.twin := by
  show ((State.noteClass _ rs).irq irqFault).twin = _
  rw [State.irq_twin, State.noteClass_twin]; rfl
@[simp] theorem State.fltPut_pwr (s : State) (rs : List FaultRec) : (s.fltPut rs).pwr = s.pwr := by
  show ((State.noteClass _ rs).irq irqFault).pwr = _
  rw [State.irq_pwr, State.noteClass_pwr]; rfl
@[simp] theorem State.fltPut_loader (s : State) (rs : List FaultRec) : (s.fltPut rs).loader = s.loader := by
  show ((State.noteClass _ rs).irq irqFault).loader = _
  rw [State.irq_loader, State.noteClass_loader]; rfl
@[simp] theorem State.fltPut_warden (s : State) (rs : List FaultRec) : (s.fltPut rs).warden = s.warden := by
  show ((State.noteClass _ rs).irq irqFault).warden = _
  rw [State.irq_warden, State.noteClass_warden]; rfl
@[simp] theorem State.fltPut_free (s : State) (rs : List FaultRec) : (s.fltPut rs).free = s.free := by
  show ((State.noteClass _ rs).irq irqFault).free = _
  rw [State.irq_free, State.noteClass_free]; rfl

theorem State.rd_fltPut (s : State) (rs : List FaultRec) (a : Nat) (h : a ∉ recordRegs) : (s.fltPut rs).rd a = s.rd a := by
  simp only [recordRegs, List.mem_cons, List.not_mem_nil, or_false, not_or] at h
  show ((State.noteClass _ rs).irq irqFault).rd a = _
  rw [State.rd_irq _ _ _ h.2.2.2, State.rd_noteClass _ _ _ h.2.1, State.rd_wrF, if_neg h.1]; rfl

/-- The parts of the host interface that raising a code leaves: replies, outstanding commands, packets. -/
def HostIf.core (x : HostIf) : List Fetched × List Forwarded × Nat × List Async × List Reply × List Reply × List Reply × Bool × Bool :=
  (x.fetched, x.forwarded, x.seqSpi, x.async, x.replies, x.held, x.spiReplies, x.spiFull, x.overrun)

theorem State.fltPut_host (s : State) (rs : List FaultRec) :
    (s.fltPut rs).host = { s.host with faultRing := s.host.faultRing ++ rs, msi := (s.fltPut rs).host.msi } := by
  show ((State.noteClass _ rs).irq irqFault).host = _
  rw [State.irq_host, State.noteClass_host]; rfl

@[simp] theorem State.record_pending (s : State) (r : FaultRec) : (s.record r).pending = s.pending := by
  unfold State.record; repeat (first | exact State.fltPut_pending _ _ | split | rfl)
@[simp] theorem State.record_mem (s : State) (r : FaultRec) : (s.record r).mem = s.mem := by
  unfold State.record; repeat (first | exact State.fltPut_mem _ _ | split | rfl)
@[simp] theorem State.record_poison (s : State) (r : FaultRec) : (s.record r).poison = s.poison := by
  unfold State.record; repeat (first | exact State.fltPut_poison _ _ | split | rfl)
@[simp] theorem State.record_dev (s : State) (r : FaultRec) : (s.record r).dev = s.dev := by
  unfold State.record; repeat (first | exact State.fltPut_dev _ _ | split | rfl)
@[simp] theorem State.record_windows (s : State) (r : FaultRec) : (s.record r).windows = s.windows := by
  unfold State.record; repeat (first | exact State.fltPut_windows _ _ | split | rfl)
@[simp] theorem State.record_log (s : State) (r : FaultRec) : (s.record r).log = s.log := by
  unfold State.record; repeat (first | exact State.fltPut_log _ _ | split | rfl)
@[simp] theorem State.record_owners (s : State) (r : FaultRec) : (s.record r).owners = s.owners := by
  unfold State.record; repeat (first | exact State.fltPut_owners _ _ | split | rfl)
@[simp] theorem State.record_evidence (s : State) (r : FaultRec) : (s.record r).evidence = s.evidence := by
  unfold State.record; repeat (first | exact State.fltPut_evidence _ _ | split | rfl)
@[simp] theorem State.record_tod (s : State) (r : FaultRec) : (s.record r).tod = s.tod := by
  unfold State.record; repeat (first | exact State.fltPut_tod _ _ | split | rfl)
@[simp] theorem State.record_tick (s : State) (r : FaultRec) : (s.record r).tick = s.tick := by
  unfold State.record; repeat (first | exact State.fltPut_tick _ _ | split | rfl)
@[simp] theorem State.record_clk (s : State) (r : FaultRec) : (s.record r).clk = s.clk := by
  unfold State.record; repeat (first | exact State.fltPut_clk _ _ | split | rfl)
@[simp] theorem State.record_ctx (s : State) (r : FaultRec) : (s.record r).ctx = s.ctx := by
  unfold State.record; repeat (first | exact State.fltPut_ctx _ _ | split | rfl)
@[simp] theorem State.record_ant (s : State) (r : FaultRec) : (s.record r).ant = s.ant := by
  unfold State.record; repeat (first | exact State.fltPut_ant _ _ | split | rfl)
@[simp] theorem State.record_subst (s : State) (r : FaultRec) : (s.record r).subst = s.subst := by
  unfold State.record; repeat (first | exact State.fltPut_subst _ _ | split | rfl)
@[simp] theorem State.record_scarab (s : State) (r : FaultRec) : (s.record r).scarab = s.scarab := by
  unfold State.record; repeat (first | exact State.fltPut_scarab _ _ | split | rfl)
@[simp] theorem State.record_banks (s : State) (r : FaultRec) : (s.record r).banks = s.banks := by
  unfold State.record; repeat (first | exact State.fltPut_banks _ _ | split | rfl)
@[simp] theorem State.record_link (s : State) (r : FaultRec) : (s.record r).link = s.link := by
  unfold State.record; repeat (first | exact State.fltPut_link _ _ | split | rfl)
@[simp] theorem State.record_fe (s : State) (r : FaultRec) : (s.record r).fe = s.fe := by
  unfold State.record; repeat (first | exact State.fltPut_fe _ _ | split | rfl)
@[simp] theorem State.record_acq (s : State) (r : FaultRec) : (s.record r).acq = s.acq := by
  unfold State.record; repeat (first | exact State.fltPut_acq _ _ | split | rfl)
@[simp] theorem State.record_bus (s : State) (r : FaultRec) : (s.record r).bus = s.bus := by
  unfold State.record; repeat (first | exact State.fltPut_bus _ _ | split | rfl)
@[simp] theorem State.record_twin (s : State) (r : FaultRec) : (s.record r).twin = s.twin := by
  unfold State.record; repeat (first | exact State.fltPut_twin _ _ | split | rfl)
@[simp] theorem State.record_pwr (s : State) (r : FaultRec) : (s.record r).pwr = s.pwr := by
  unfold State.record; repeat (first | exact State.fltPut_pwr _ _ | split | rfl)
@[simp] theorem State.record_loader (s : State) (r : FaultRec) : (s.record r).loader = s.loader := by
  unfold State.record; repeat (first | exact State.fltPut_loader _ _ | split | rfl)
@[simp] theorem State.record_warden (s : State) (r : FaultRec) : (s.record r).warden = s.warden := by
  unfold State.record; repeat (first | exact State.fltPut_warden _ _ | split | rfl)
@[simp] theorem State.record_free (s : State) (r : FaultRec) : (s.record r).free = s.free := by
  unfold State.record; repeat (first | exact State.fltPut_free _ _ | split | rfl)

theorem State.rd_record (s : State) (r : FaultRec) (a : Nat) (h : a ∉ recordRegs) : (s.record r).rd a = s.rd a := by
  have h' := h
  simp only [recordRegs, List.mem_cons, List.not_mem_nil, or_false, not_or] at h'
  unfold State.record
  split
  · rfl
  · split
    · split
      · exact State.rd_fltPut s _ a h
      · show (s.bump Reg.fltDrops).rd a = _
        rw [State.rd_bump, if_neg h'.2.2.1]
    · split
      · show (s.fltPut _).rd a = _
        exact State.rd_fltPut s _ a h
      · show (s.bump Reg.fltDrops).rd a = _
        rw [State.rd_bump, if_neg h'.2.2.1]

@[simp] theorem State.fltPut_fetched (s : State) (rs : List FaultRec) : (s.fltPut rs).host.fetched = s.host.fetched := by rw [State.fltPut_host]

@[simp] theorem State.record_fetched (s : State) (r : FaultRec) : (s.record r).host.fetched = s.host.fetched := by
  unfold State.record
  repeat (first | exact State.fltPut_fetched s _ | split | rfl)

@[simp] theorem State.fltPut_forwarded (s : State) (rs : List FaultRec) : (s.fltPut rs).host.forwarded = s.host.forwarded := by rw [State.fltPut_host]

@[simp] theorem State.record_forwarded (s : State) (r : FaultRec) : (s.record r).host.forwarded = s.host.forwarded := by
  unfold State.record
  repeat (first | exact State.fltPut_forwarded s _ | split | rfl)

@[simp] theorem State.fltPut_seqSpi (s : State) (rs : List FaultRec) : (s.fltPut rs).host.seqSpi = s.host.seqSpi := by rw [State.fltPut_host]

@[simp] theorem State.record_seqSpi (s : State) (r : FaultRec) : (s.record r).host.seqSpi = s.host.seqSpi := by
  unfold State.record
  repeat (first | exact State.fltPut_seqSpi s _ | split | rfl)

@[simp] theorem State.fltPut_seqInband (s : State) (rs : List FaultRec) : (s.fltPut rs).host.seqInband = s.host.seqInband := by rw [State.fltPut_host]

@[simp] theorem State.record_seqInband (s : State) (r : FaultRec) : (s.record r).host.seqInband = s.host.seqInband := by
  unfold State.record
  repeat (first | exact State.fltPut_seqInband s _ | split | rfl)

@[simp] theorem State.fltPut_async (s : State) (rs : List FaultRec) : (s.fltPut rs).host.async = s.host.async := by rw [State.fltPut_host]

@[simp] theorem State.record_async (s : State) (r : FaultRec) : (s.record r).host.async = s.host.async := by
  unfold State.record
  repeat (first | exact State.fltPut_async s _ | split | rfl)

@[simp] theorem State.fltPut_replies (s : State) (rs : List FaultRec) : (s.fltPut rs).host.replies = s.host.replies := by rw [State.fltPut_host]

@[simp] theorem State.record_replies (s : State) (r : FaultRec) : (s.record r).host.replies = s.host.replies := by
  unfold State.record
  repeat (first | exact State.fltPut_replies s _ | split | rfl)

@[simp] theorem State.fltPut_held (s : State) (rs : List FaultRec) : (s.fltPut rs).host.held = s.host.held := by rw [State.fltPut_host]

@[simp] theorem State.record_held (s : State) (r : FaultRec) : (s.record r).host.held = s.host.held := by
  unfold State.record
  repeat (first | exact State.fltPut_held s _ | split | rfl)

@[simp] theorem State.fltPut_spiReplies (s : State) (rs : List FaultRec) : (s.fltPut rs).host.spiReplies = s.host.spiReplies := by rw [State.fltPut_host]

@[simp] theorem State.record_spiReplies (s : State) (r : FaultRec) : (s.record r).host.spiReplies = s.host.spiReplies := by
  unfold State.record
  repeat (first | exact State.fltPut_spiReplies s _ | split | rfl)

@[simp] theorem State.fltPut_spiFull (s : State) (rs : List FaultRec) : (s.fltPut rs).host.spiFull = s.host.spiFull := by rw [State.fltPut_host]

@[simp] theorem State.record_spiFull (s : State) (r : FaultRec) : (s.record r).host.spiFull = s.host.spiFull := by
  unfold State.record
  repeat (first | exact State.fltPut_spiFull s _ | split | rfl)

@[simp] theorem State.fltPut_overrun (s : State) (rs : List FaultRec) : (s.fltPut rs).host.overrun = s.host.overrun := by rw [State.fltPut_host]

@[simp] theorem State.record_overrun (s : State) (r : FaultRec) : (s.record r).host.overrun = s.host.overrun := by
  unfold State.record
  repeat (first | exact State.fltPut_overrun s _ | split | rfl)

@[simp] theorem State.fltPut_inbandReplies (s : State) (rs : List FaultRec) : (s.fltPut rs).host.inbandReplies = s.host.inbandReplies := by rw [State.fltPut_host]

@[simp] theorem State.record_inbandReplies (s : State) (r : FaultRec) : (s.record r).host.inbandReplies = s.host.inbandReplies := by
  unfold State.record
  repeat (first | exact State.fltPut_inbandReplies s _ | split | rfl)

@[simp] theorem State.fltPut_portOut (s : State) (rs : List FaultRec) : (s.fltPut rs).host.portOut = s.host.portOut := by rw [State.fltPut_host]

@[simp] theorem State.record_portOut (s : State) (r : FaultRec) : (s.record r).host.portOut = s.host.portOut := by
  unfold State.record
  repeat (first | exact State.fltPut_portOut s _ | split | rfl)

@[simp] theorem State.fltPut_windowOut (s : State) (rs : List FaultRec) : (s.fltPut rs).host.windowOut = s.host.windowOut := by rw [State.fltPut_host]

@[simp] theorem State.record_windowOut (s : State) (r : FaultRec) : (s.record r).host.windowOut = s.host.windowOut := by
  unfold State.record
  repeat (first | exact State.fltPut_windowOut s _ | split | rfl)

@[simp] theorem State.fltPut_waits (s : State) (rs : List FaultRec) : (s.fltPut rs).host.waits = s.host.waits := by rw [State.fltPut_host]

@[simp] theorem State.record_waits (s : State) (r : FaultRec) : (s.record r).host.waits = s.host.waits := by
  unfold State.record
  repeat (first | exact State.fltPut_waits s _ | split | rfl)

@[simp] theorem State.fltPut_inReset (s : State) (rs : List FaultRec) : (s.fltPut rs).host.inReset = s.host.inReset := by rw [State.fltPut_host]

@[simp] theorem State.record_inReset (s : State) (r : FaultRec) : (s.record r).host.inReset = s.host.inReset := by
  unfold State.record
  repeat (first | exact State.fltPut_inReset s _ | split | rfl)

@[simp] theorem State.record_outbox (s : State) (r : FaultRec) (tr : Transport) : (s.record r).outbox tr = s.outbox tr := by
  cases tr <;> simp [State.outbox]

@[simp] theorem State.logPut_pending (s : State) (c k d : Nat) (t : W32) (x : Nat) : (s.logPut c k d t x).pending = s.pending := rfl
@[simp] theorem State.logPut_mem (s : State) (c k d : Nat) (t : W32) (x : Nat) : (s.logPut c k d t x).mem = s.mem := rfl
@[simp] theorem State.logPut_poison (s : State) (c k d : Nat) (t : W32) (x : Nat) : (s.logPut c k d t x).poison = s.poison := rfl
@[simp] theorem State.logPut_dev (s : State) (c k d : Nat) (t : W32) (x : Nat) : (s.logPut c k d t x).dev = s.dev := rfl
@[simp] theorem State.logPut_host (s : State) (c k d : Nat) (t : W32) (x : Nat) : (s.logPut c k d t x).host = s.host := rfl
@[simp] theorem State.logPut_windows (s : State) (c k d : Nat) (t : W32) (x : Nat) : (s.logPut c k d t x).windows = s.windows := rfl
@[simp] theorem State.logPut_owners (s : State) (c k d : Nat) (t : W32) (x : Nat) : (s.logPut c k d t x).owners = s.owners := rfl
@[simp] theorem State.logPut_evidence (s : State) (c k d : Nat) (t : W32) (x : Nat) : (s.logPut c k d t x).evidence = s.evidence := rfl
@[simp] theorem State.logPut_tod (s : State) (c k d : Nat) (t : W32) (x : Nat) : (s.logPut c k d t x).tod = s.tod := rfl
@[simp] theorem State.logPut_tick (s : State) (c k d : Nat) (t : W32) (x : Nat) : (s.logPut c k d t x).tick = s.tick := rfl
@[simp] theorem State.logPut_clk (s : State) (c k d : Nat) (t : W32) (x : Nat) : (s.logPut c k d t x).clk = s.clk := rfl
@[simp] theorem State.logPut_ctx (s : State) (c k d : Nat) (t : W32) (x : Nat) : (s.logPut c k d t x).ctx = s.ctx := rfl
@[simp] theorem State.logPut_ant (s : State) (c k d : Nat) (t : W32) (x : Nat) : (s.logPut c k d t x).ant = s.ant := rfl
@[simp] theorem State.logPut_subst (s : State) (c k d : Nat) (t : W32) (x : Nat) : (s.logPut c k d t x).subst = s.subst := rfl
@[simp] theorem State.logPut_scarab (s : State) (c k d : Nat) (t : W32) (x : Nat) : (s.logPut c k d t x).scarab = s.scarab := rfl
@[simp] theorem State.logPut_banks (s : State) (c k d : Nat) (t : W32) (x : Nat) : (s.logPut c k d t x).banks = s.banks := rfl
@[simp] theorem State.logPut_link (s : State) (c k d : Nat) (t : W32) (x : Nat) : (s.logPut c k d t x).link = s.link := rfl
@[simp] theorem State.logPut_fe (s : State) (c k d : Nat) (t : W32) (x : Nat) : (s.logPut c k d t x).fe = s.fe := rfl
@[simp] theorem State.logPut_acq (s : State) (c k d : Nat) (t : W32) (x : Nat) : (s.logPut c k d t x).acq = s.acq := rfl
@[simp] theorem State.logPut_bus (s : State) (c k d : Nat) (t : W32) (x : Nat) : (s.logPut c k d t x).bus = s.bus := rfl
@[simp] theorem State.logPut_twin (s : State) (c k d : Nat) (t : W32) (x : Nat) : (s.logPut c k d t x).twin = s.twin := rfl
@[simp] theorem State.logPut_pwr (s : State) (c k d : Nat) (t : W32) (x : Nat) : (s.logPut c k d t x).pwr = s.pwr := rfl
@[simp] theorem State.logPut_loader (s : State) (c k d : Nat) (t : W32) (x : Nat) : (s.logPut c k d t x).loader = s.loader := rfl
@[simp] theorem State.logPut_warden (s : State) (c k d : Nat) (t : W32) (x : Nat) : (s.logPut c k d t x).warden = s.warden := rfl
@[simp] theorem State.logPut_free (s : State) (c k d : Nat) (t : W32) (x : Nat) : (s.logPut c k d t x).free = s.free := rfl

theorem State.rd_logPut (s : State) (c k d : Nat) (t : W32) (x a : Nat) (h : a ≠ Reg.logSeq) :
    (s.logPut c k d t x).rd a = s.rd a := by
  unfold State.logPut
  exact (State.rd_with_log (s.wr Reg.logSeq (BitVec.ofNat 32 ((s.rd Reg.logSeq).toNat + 1))) _ a).trans (State.rd_wr_other s _ a _ h)

@[simp] theorem State.logPut_outbox (s : State) (c k d : Nat) (t : W32) (x : Nat) (tr : Transport) :
    (s.logPut c k d t x).outbox tr = s.outbox tr := State.outbox_host _ _ tr rfl

@[simp] theorem State.summary_pending (s : State) (w : RepWin) : (s.summary w).pending = s.pending := by
  unfold State.summary; split
  · rfl
  · exact State.record_pending _ _
@[simp] theorem State.summary_mem (s : State) (w : RepWin) : (s.summary w).mem = s.mem := by
  unfold State.summary; split
  · rfl
  · exact State.record_mem _ _
@[simp] theorem State.summary_poison (s : State) (w : RepWin) : (s.summary w).poison = s.poison := by
  unfold State.summary; split
  · rfl
  · exact State.record_poison _ _
@[simp] theorem State.summary_dev (s : State) (w : RepWin) : (s.summary w).dev = s.dev := by
  unfold State.summary; split
  · rfl
  · exact State.record_dev _ _
@[simp] theorem State.summary_windows (s : State) (w : RepWin) : (s.summary w).windows = s.windows := by
  unfold State.summary; split
  · rfl
  · exact State.record_windows _ _
@[simp] theorem State.summary_log (s : State) (w : RepWin) : (s.summary w).log = s.log := by
  unfold State.summary; split
  · rfl
  · exact State.record_log _ _
@[simp] theorem State.summary_owners (s : State) (w : RepWin) : (s.summary w).owners = s.owners := by
  unfold State.summary; split
  · rfl
  · exact State.record_owners _ _
@[simp] theorem State.summary_evidence (s : State) (w : RepWin) : (s.summary w).evidence = s.evidence := by
  unfold State.summary; split
  · rfl
  · exact State.record_evidence _ _
@[simp] theorem State.summary_tod (s : State) (w : RepWin) : (s.summary w).tod = s.tod := by
  unfold State.summary; split
  · rfl
  · exact State.record_tod _ _
@[simp] theorem State.summary_tick (s : State) (w : RepWin) : (s.summary w).tick = s.tick := by
  unfold State.summary; split
  · rfl
  · exact State.record_tick _ _
@[simp] theorem State.summary_clk (s : State) (w : RepWin) : (s.summary w).clk = s.clk := by
  unfold State.summary; split
  · rfl
  · exact State.record_clk _ _
@[simp] theorem State.summary_ctx (s : State) (w : RepWin) : (s.summary w).ctx = s.ctx := by
  unfold State.summary; split
  · rfl
  · exact State.record_ctx _ _
@[simp] theorem State.summary_ant (s : State) (w : RepWin) : (s.summary w).ant = s.ant := by
  unfold State.summary; split
  · rfl
  · exact State.record_ant _ _
@[simp] theorem State.summary_subst (s : State) (w : RepWin) : (s.summary w).subst = s.subst := by
  unfold State.summary; split
  · rfl
  · exact State.record_subst _ _
@[simp] theorem State.summary_scarab (s : State) (w : RepWin) : (s.summary w).scarab = s.scarab := by
  unfold State.summary; split
  · rfl
  · exact State.record_scarab _ _
@[simp] theorem State.summary_banks (s : State) (w : RepWin) : (s.summary w).banks = s.banks := by
  unfold State.summary; split
  · rfl
  · exact State.record_banks _ _
@[simp] theorem State.summary_link (s : State) (w : RepWin) : (s.summary w).link = s.link := by
  unfold State.summary; split
  · rfl
  · exact State.record_link _ _
@[simp] theorem State.summary_fe (s : State) (w : RepWin) : (s.summary w).fe = s.fe := by
  unfold State.summary; split
  · rfl
  · exact State.record_fe _ _
@[simp] theorem State.summary_acq (s : State) (w : RepWin) : (s.summary w).acq = s.acq := by
  unfold State.summary; split
  · rfl
  · exact State.record_acq _ _
@[simp] theorem State.summary_bus (s : State) (w : RepWin) : (s.summary w).bus = s.bus := by
  unfold State.summary; split
  · rfl
  · exact State.record_bus _ _
@[simp] theorem State.summary_twin (s : State) (w : RepWin) : (s.summary w).twin = s.twin := by
  unfold State.summary; split
  · rfl
  · exact State.record_twin _ _
@[simp] theorem State.summary_pwr (s : State) (w : RepWin) : (s.summary w).pwr = s.pwr := by
  unfold State.summary; split
  · rfl
  · exact State.record_pwr _ _
@[simp] theorem State.summary_loader (s : State) (w : RepWin) : (s.summary w).loader = s.loader := by
  unfold State.summary; split
  · rfl
  · exact State.record_loader _ _
@[simp] theorem State.summary_warden (s : State) (w : RepWin) : (s.summary w).warden = s.warden := by
  unfold State.summary; split
  · rfl
  · exact State.record_warden _ _
@[simp] theorem State.summary_free (s : State) (w : RepWin) : (s.summary w).free = s.free := by
  unfold State.summary; split
  · rfl
  · exact State.record_free _ _

theorem State.rd_summary (s : State) (w : RepWin) (a : Nat) (h : a ∉ recordRegs) : (s.summary w).rd a = s.rd a := by
  unfold State.summary; split
  · rfl
  · exact State.rd_record s _ a h

theorem State.summary_async (s : State) (w : RepWin) : (s.summary w).host.async = s.host.async := by
  unfold State.summary; split
  · rfl
  · exact State.record_async s _

theorem State.summary_outbox (s : State) (w : RepWin) (tr : Transport) : (s.summary w).outbox tr = s.outbox tr := by
  unfold State.summary; split
  · rfl
  · exact State.record_outbox s _ tr

@[simp] theorem State.countCode_pending (s : State) (c : Nat) (l : Loc) (t : W32) : (s.countCode c l t).pending = s.pending := by
  unfold State.countCode; dsimp only; split <;> rfl
@[simp] theorem State.countCode_mem (s : State) (c : Nat) (l : Loc) (t : W32) : (s.countCode c l t).mem = s.mem := by
  unfold State.countCode; dsimp only; split <;> rfl
@[simp] theorem State.countCode_poison (s : State) (c : Nat) (l : Loc) (t : W32) : (s.countCode c l t).poison = s.poison := by
  unfold State.countCode; dsimp only; split <;> rfl
@[simp] theorem State.countCode_dev (s : State) (c : Nat) (l : Loc) (t : W32) : (s.countCode c l t).dev = s.dev := by
  unfold State.countCode; dsimp only; split <;> rfl
@[simp] theorem State.countCode_host (s : State) (c : Nat) (l : Loc) (t : W32) : (s.countCode c l t).host = s.host := by
  unfold State.countCode; dsimp only; split <;> rfl
@[simp] theorem State.countCode_windows (s : State) (c : Nat) (l : Loc) (t : W32) : (s.countCode c l t).windows = s.windows := by
  unfold State.countCode; dsimp only; split <;> rfl
@[simp] theorem State.countCode_log (s : State) (c : Nat) (l : Loc) (t : W32) : (s.countCode c l t).log = s.log := by
  unfold State.countCode; dsimp only; split <;> rfl
@[simp] theorem State.countCode_owners (s : State) (c : Nat) (l : Loc) (t : W32) : (s.countCode c l t).owners = s.owners := by
  unfold State.countCode; dsimp only; split <;> rfl
@[simp] theorem State.countCode_tod (s : State) (c : Nat) (l : Loc) (t : W32) : (s.countCode c l t).tod = s.tod := by
  unfold State.countCode; dsimp only; split <;> rfl
@[simp] theorem State.countCode_tick (s : State) (c : Nat) (l : Loc) (t : W32) : (s.countCode c l t).tick = s.tick := by
  unfold State.countCode; dsimp only; split <;> rfl
@[simp] theorem State.countCode_clk (s : State) (c : Nat) (l : Loc) (t : W32) : (s.countCode c l t).clk = s.clk := by
  unfold State.countCode; dsimp only; split <;> rfl
@[simp] theorem State.countCode_ctx (s : State) (c : Nat) (l : Loc) (t : W32) : (s.countCode c l t).ctx = s.ctx := by
  unfold State.countCode; dsimp only; split <;> rfl
@[simp] theorem State.countCode_ant (s : State) (c : Nat) (l : Loc) (t : W32) : (s.countCode c l t).ant = s.ant := by
  unfold State.countCode; dsimp only; split <;> rfl
@[simp] theorem State.countCode_subst (s : State) (c : Nat) (l : Loc) (t : W32) : (s.countCode c l t).subst = s.subst := by
  unfold State.countCode; dsimp only; split <;> rfl
@[simp] theorem State.countCode_scarab (s : State) (c : Nat) (l : Loc) (t : W32) : (s.countCode c l t).scarab = s.scarab := by
  unfold State.countCode; dsimp only; split <;> rfl
@[simp] theorem State.countCode_banks (s : State) (c : Nat) (l : Loc) (t : W32) : (s.countCode c l t).banks = s.banks := by
  unfold State.countCode; dsimp only; split <;> rfl
@[simp] theorem State.countCode_link (s : State) (c : Nat) (l : Loc) (t : W32) : (s.countCode c l t).link = s.link := by
  unfold State.countCode; dsimp only; split <;> rfl
@[simp] theorem State.countCode_fe (s : State) (c : Nat) (l : Loc) (t : W32) : (s.countCode c l t).fe = s.fe := by
  unfold State.countCode; dsimp only; split <;> rfl
@[simp] theorem State.countCode_acq (s : State) (c : Nat) (l : Loc) (t : W32) : (s.countCode c l t).acq = s.acq := by
  unfold State.countCode; dsimp only; split <;> rfl
@[simp] theorem State.countCode_bus (s : State) (c : Nat) (l : Loc) (t : W32) : (s.countCode c l t).bus = s.bus := by
  unfold State.countCode; dsimp only; split <;> rfl
@[simp] theorem State.countCode_twin (s : State) (c : Nat) (l : Loc) (t : W32) : (s.countCode c l t).twin = s.twin := by
  unfold State.countCode; dsimp only; split <;> rfl
@[simp] theorem State.countCode_pwr (s : State) (c : Nat) (l : Loc) (t : W32) : (s.countCode c l t).pwr = s.pwr := by
  unfold State.countCode; dsimp only; split <;> rfl
@[simp] theorem State.countCode_loader (s : State) (c : Nat) (l : Loc) (t : W32) : (s.countCode c l t).loader = s.loader := by
  unfold State.countCode; dsimp only; split <;> rfl
@[simp] theorem State.countCode_warden (s : State) (c : Nat) (l : Loc) (t : W32) : (s.countCode c l t).warden = s.warden := by
  unfold State.countCode; dsimp only; split <;> rfl
@[simp] theorem State.countCode_free (s : State) (c : Nat) (l : Loc) (t : W32) : (s.countCode c l t).free = s.free := by
  unfold State.countCode; dsimp only; split <;> rfl

@[simp] theorem State.writeCode_pending (s : State) (c : Nat) (l : Loc) (t : W32) (d : Nat) : (s.writeCode c l t d).pending = s.pending := by
  unfold State.writeCode; dsimp only; split
  · rw [State.logPut_pending, State.record_pending]
  · rw [State.record_pending]
@[simp] theorem State.writeCode_mem (s : State) (c : Nat) (l : Loc) (t : W32) (d : Nat) : (s.writeCode c l t d).mem = s.mem := by
  unfold State.writeCode; dsimp only; split
  · rw [State.logPut_mem, State.record_mem]
  · rw [State.record_mem]
@[simp] theorem State.writeCode_poison (s : State) (c : Nat) (l : Loc) (t : W32) (d : Nat) : (s.writeCode c l t d).poison = s.poison := by
  unfold State.writeCode; dsimp only; split
  · rw [State.logPut_poison, State.record_poison]
  · rw [State.record_poison]
@[simp] theorem State.writeCode_dev (s : State) (c : Nat) (l : Loc) (t : W32) (d : Nat) : (s.writeCode c l t d).dev = s.dev := by
  unfold State.writeCode; dsimp only; split
  · rw [State.logPut_dev, State.record_dev]
  · rw [State.record_dev]
@[simp] theorem State.writeCode_windows (s : State) (c : Nat) (l : Loc) (t : W32) (d : Nat) : (s.writeCode c l t d).windows = s.windows := by
  unfold State.writeCode; dsimp only; split
  · rw [State.logPut_windows, State.record_windows]
  · rw [State.record_windows]
@[simp] theorem State.writeCode_owners (s : State) (c : Nat) (l : Loc) (t : W32) (d : Nat) : (s.writeCode c l t d).owners = s.owners := by
  unfold State.writeCode; dsimp only; split
  · rw [State.logPut_owners, State.record_owners]
  · rw [State.record_owners]
@[simp] theorem State.writeCode_evidence (s : State) (c : Nat) (l : Loc) (t : W32) (d : Nat) : (s.writeCode c l t d).evidence = s.evidence := by
  unfold State.writeCode; dsimp only; split
  · rw [State.logPut_evidence, State.record_evidence]
  · rw [State.record_evidence]
@[simp] theorem State.writeCode_tod (s : State) (c : Nat) (l : Loc) (t : W32) (d : Nat) : (s.writeCode c l t d).tod = s.tod := by
  unfold State.writeCode; dsimp only; split
  · rw [State.logPut_tod, State.record_tod]
  · rw [State.record_tod]
@[simp] theorem State.writeCode_tick (s : State) (c : Nat) (l : Loc) (t : W32) (d : Nat) : (s.writeCode c l t d).tick = s.tick := by
  unfold State.writeCode; dsimp only; split
  · rw [State.logPut_tick, State.record_tick]
  · rw [State.record_tick]
@[simp] theorem State.writeCode_clk (s : State) (c : Nat) (l : Loc) (t : W32) (d : Nat) : (s.writeCode c l t d).clk = s.clk := by
  unfold State.writeCode; dsimp only; split
  · rw [State.logPut_clk, State.record_clk]
  · rw [State.record_clk]
@[simp] theorem State.writeCode_ctx (s : State) (c : Nat) (l : Loc) (t : W32) (d : Nat) : (s.writeCode c l t d).ctx = s.ctx := by
  unfold State.writeCode; dsimp only; split
  · rw [State.logPut_ctx, State.record_ctx]
  · rw [State.record_ctx]
@[simp] theorem State.writeCode_ant (s : State) (c : Nat) (l : Loc) (t : W32) (d : Nat) : (s.writeCode c l t d).ant = s.ant := by
  unfold State.writeCode; dsimp only; split
  · rw [State.logPut_ant, State.record_ant]
  · rw [State.record_ant]
@[simp] theorem State.writeCode_subst (s : State) (c : Nat) (l : Loc) (t : W32) (d : Nat) : (s.writeCode c l t d).subst = s.subst := by
  unfold State.writeCode; dsimp only; split
  · rw [State.logPut_subst, State.record_subst]
  · rw [State.record_subst]
@[simp] theorem State.writeCode_scarab (s : State) (c : Nat) (l : Loc) (t : W32) (d : Nat) : (s.writeCode c l t d).scarab = s.scarab := by
  unfold State.writeCode; dsimp only; split
  · rw [State.logPut_scarab, State.record_scarab]
  · rw [State.record_scarab]
@[simp] theorem State.writeCode_banks (s : State) (c : Nat) (l : Loc) (t : W32) (d : Nat) : (s.writeCode c l t d).banks = s.banks := by
  unfold State.writeCode; dsimp only; split
  · rw [State.logPut_banks, State.record_banks]
  · rw [State.record_banks]
@[simp] theorem State.writeCode_link (s : State) (c : Nat) (l : Loc) (t : W32) (d : Nat) : (s.writeCode c l t d).link = s.link := by
  unfold State.writeCode; dsimp only; split
  · rw [State.logPut_link, State.record_link]
  · rw [State.record_link]
@[simp] theorem State.writeCode_fe (s : State) (c : Nat) (l : Loc) (t : W32) (d : Nat) : (s.writeCode c l t d).fe = s.fe := by
  unfold State.writeCode; dsimp only; split
  · rw [State.logPut_fe, State.record_fe]
  · rw [State.record_fe]
@[simp] theorem State.writeCode_acq (s : State) (c : Nat) (l : Loc) (t : W32) (d : Nat) : (s.writeCode c l t d).acq = s.acq := by
  unfold State.writeCode; dsimp only; split
  · rw [State.logPut_acq, State.record_acq]
  · rw [State.record_acq]
@[simp] theorem State.writeCode_bus (s : State) (c : Nat) (l : Loc) (t : W32) (d : Nat) : (s.writeCode c l t d).bus = s.bus := by
  unfold State.writeCode; dsimp only; split
  · rw [State.logPut_bus, State.record_bus]
  · rw [State.record_bus]
@[simp] theorem State.writeCode_twin (s : State) (c : Nat) (l : Loc) (t : W32) (d : Nat) : (s.writeCode c l t d).twin = s.twin := by
  unfold State.writeCode; dsimp only; split
  · rw [State.logPut_twin, State.record_twin]
  · rw [State.record_twin]
@[simp] theorem State.writeCode_pwr (s : State) (c : Nat) (l : Loc) (t : W32) (d : Nat) : (s.writeCode c l t d).pwr = s.pwr := by
  unfold State.writeCode; dsimp only; split
  · rw [State.logPut_pwr, State.record_pwr]
  · rw [State.record_pwr]
@[simp] theorem State.writeCode_loader (s : State) (c : Nat) (l : Loc) (t : W32) (d : Nat) : (s.writeCode c l t d).loader = s.loader := by
  unfold State.writeCode; dsimp only; split
  · rw [State.logPut_loader, State.record_loader]
  · rw [State.record_loader]
@[simp] theorem State.writeCode_warden (s : State) (c : Nat) (l : Loc) (t : W32) (d : Nat) : (s.writeCode c l t d).warden = s.warden := by
  unfold State.writeCode; dsimp only; split
  · rw [State.logPut_warden, State.record_warden]
  · rw [State.record_warden]
@[simp] theorem State.writeCode_free (s : State) (c : Nat) (l : Loc) (t : W32) (d : Nat) : (s.writeCode c l t d).free = s.free := by
  unfold State.writeCode; dsimp only; split
  · rw [State.logPut_free, State.record_free]
  · rw [State.record_free]

@[simp] theorem State.openWin_pending (s : State) (c : Nat) (l : Loc) (t : W32) : (s.openWin c l t).pending = s.pending := rfl
@[simp] theorem State.openWin_regs (s : State) (c : Nat) (l : Loc) (t : W32) : (s.openWin c l t).regs = s.regs := rfl
@[simp] theorem State.openWin_mem (s : State) (c : Nat) (l : Loc) (t : W32) : (s.openWin c l t).mem = s.mem := rfl
@[simp] theorem State.openWin_poison (s : State) (c : Nat) (l : Loc) (t : W32) : (s.openWin c l t).poison = s.poison := rfl
@[simp] theorem State.openWin_dev (s : State) (c : Nat) (l : Loc) (t : W32) : (s.openWin c l t).dev = s.dev := rfl
@[simp] theorem State.openWin_host (s : State) (c : Nat) (l : Loc) (t : W32) : (s.openWin c l t).host = s.host := rfl
@[simp] theorem State.openWin_log (s : State) (c : Nat) (l : Loc) (t : W32) : (s.openWin c l t).log = s.log := rfl
@[simp] theorem State.openWin_owners (s : State) (c : Nat) (l : Loc) (t : W32) : (s.openWin c l t).owners = s.owners := rfl
@[simp] theorem State.openWin_evidence (s : State) (c : Nat) (l : Loc) (t : W32) : (s.openWin c l t).evidence = s.evidence := rfl
@[simp] theorem State.openWin_tod (s : State) (c : Nat) (l : Loc) (t : W32) : (s.openWin c l t).tod = s.tod := rfl
@[simp] theorem State.openWin_tick (s : State) (c : Nat) (l : Loc) (t : W32) : (s.openWin c l t).tick = s.tick := rfl
@[simp] theorem State.openWin_clk (s : State) (c : Nat) (l : Loc) (t : W32) : (s.openWin c l t).clk = s.clk := rfl
@[simp] theorem State.openWin_ctx (s : State) (c : Nat) (l : Loc) (t : W32) : (s.openWin c l t).ctx = s.ctx := rfl
@[simp] theorem State.openWin_ant (s : State) (c : Nat) (l : Loc) (t : W32) : (s.openWin c l t).ant = s.ant := rfl
@[simp] theorem State.openWin_subst (s : State) (c : Nat) (l : Loc) (t : W32) : (s.openWin c l t).subst = s.subst := rfl
@[simp] theorem State.openWin_scarab (s : State) (c : Nat) (l : Loc) (t : W32) : (s.openWin c l t).scarab = s.scarab := rfl
@[simp] theorem State.openWin_banks (s : State) (c : Nat) (l : Loc) (t : W32) : (s.openWin c l t).banks = s.banks := rfl
@[simp] theorem State.openWin_link (s : State) (c : Nat) (l : Loc) (t : W32) : (s.openWin c l t).link = s.link := rfl
@[simp] theorem State.openWin_fe (s : State) (c : Nat) (l : Loc) (t : W32) : (s.openWin c l t).fe = s.fe := rfl
@[simp] theorem State.openWin_acq (s : State) (c : Nat) (l : Loc) (t : W32) : (s.openWin c l t).acq = s.acq := rfl
@[simp] theorem State.openWin_bus (s : State) (c : Nat) (l : Loc) (t : W32) : (s.openWin c l t).bus = s.bus := rfl
@[simp] theorem State.openWin_twin (s : State) (c : Nat) (l : Loc) (t : W32) : (s.openWin c l t).twin = s.twin := rfl
@[simp] theorem State.openWin_pwr (s : State) (c : Nat) (l : Loc) (t : W32) : (s.openWin c l t).pwr = s.pwr := rfl
@[simp] theorem State.openWin_loader (s : State) (c : Nat) (l : Loc) (t : W32) : (s.openWin c l t).loader = s.loader := rfl
@[simp] theorem State.openWin_warden (s : State) (c : Nat) (l : Loc) (t : W32) : (s.openWin c l t).warden = s.warden := rfl
@[simp] theorem State.openWin_free (s : State) (c : Nat) (l : Loc) (t : W32) : (s.openWin c l t).free = s.free := rfl

@[simp] theorem State.joinWin_pending (s : State) (c : Nat) (l : Loc) (t : W32) : (s.joinWin c l t).pending = s.pending := rfl
@[simp] theorem State.joinWin_regs (s : State) (c : Nat) (l : Loc) (t : W32) : (s.joinWin c l t).regs = s.regs := rfl
@[simp] theorem State.joinWin_mem (s : State) (c : Nat) (l : Loc) (t : W32) : (s.joinWin c l t).mem = s.mem := rfl
@[simp] theorem State.joinWin_poison (s : State) (c : Nat) (l : Loc) (t : W32) : (s.joinWin c l t).poison = s.poison := rfl
@[simp] theorem State.joinWin_dev (s : State) (c : Nat) (l : Loc) (t : W32) : (s.joinWin c l t).dev = s.dev := rfl
@[simp] theorem State.joinWin_host (s : State) (c : Nat) (l : Loc) (t : W32) : (s.joinWin c l t).host = s.host := rfl
@[simp] theorem State.joinWin_log (s : State) (c : Nat) (l : Loc) (t : W32) : (s.joinWin c l t).log = s.log := rfl
@[simp] theorem State.joinWin_owners (s : State) (c : Nat) (l : Loc) (t : W32) : (s.joinWin c l t).owners = s.owners := rfl
@[simp] theorem State.joinWin_evidence (s : State) (c : Nat) (l : Loc) (t : W32) : (s.joinWin c l t).evidence = s.evidence := rfl
@[simp] theorem State.joinWin_tod (s : State) (c : Nat) (l : Loc) (t : W32) : (s.joinWin c l t).tod = s.tod := rfl
@[simp] theorem State.joinWin_tick (s : State) (c : Nat) (l : Loc) (t : W32) : (s.joinWin c l t).tick = s.tick := rfl
@[simp] theorem State.joinWin_clk (s : State) (c : Nat) (l : Loc) (t : W32) : (s.joinWin c l t).clk = s.clk := rfl
@[simp] theorem State.joinWin_ctx (s : State) (c : Nat) (l : Loc) (t : W32) : (s.joinWin c l t).ctx = s.ctx := rfl
@[simp] theorem State.joinWin_ant (s : State) (c : Nat) (l : Loc) (t : W32) : (s.joinWin c l t).ant = s.ant := rfl
@[simp] theorem State.joinWin_subst (s : State) (c : Nat) (l : Loc) (t : W32) : (s.joinWin c l t).subst = s.subst := rfl
@[simp] theorem State.joinWin_scarab (s : State) (c : Nat) (l : Loc) (t : W32) : (s.joinWin c l t).scarab = s.scarab := rfl
@[simp] theorem State.joinWin_banks (s : State) (c : Nat) (l : Loc) (t : W32) : (s.joinWin c l t).banks = s.banks := rfl
@[simp] theorem State.joinWin_link (s : State) (c : Nat) (l : Loc) (t : W32) : (s.joinWin c l t).link = s.link := rfl
@[simp] theorem State.joinWin_fe (s : State) (c : Nat) (l : Loc) (t : W32) : (s.joinWin c l t).fe = s.fe := rfl
@[simp] theorem State.joinWin_acq (s : State) (c : Nat) (l : Loc) (t : W32) : (s.joinWin c l t).acq = s.acq := rfl
@[simp] theorem State.joinWin_bus (s : State) (c : Nat) (l : Loc) (t : W32) : (s.joinWin c l t).bus = s.bus := rfl
@[simp] theorem State.joinWin_twin (s : State) (c : Nat) (l : Loc) (t : W32) : (s.joinWin c l t).twin = s.twin := rfl
@[simp] theorem State.joinWin_pwr (s : State) (c : Nat) (l : Loc) (t : W32) : (s.joinWin c l t).pwr = s.pwr := rfl
@[simp] theorem State.joinWin_loader (s : State) (c : Nat) (l : Loc) (t : W32) : (s.joinWin c l t).loader = s.loader := rfl
@[simp] theorem State.joinWin_warden (s : State) (c : Nat) (l : Loc) (t : W32) : (s.joinWin c l t).warden = s.warden := rfl
@[simp] theorem State.joinWin_free (s : State) (c : Nat) (l : Loc) (t : W32) : (s.joinWin c l t).free = s.free := rfl

@[simp] theorem State.dropWin_pending (s : State) (c : Nat) (l : Loc) : (s.dropWin c l).pending = s.pending := rfl
@[simp] theorem State.dropWin_regs (s : State) (c : Nat) (l : Loc) : (s.dropWin c l).regs = s.regs := rfl
@[simp] theorem State.dropWin_mem (s : State) (c : Nat) (l : Loc) : (s.dropWin c l).mem = s.mem := rfl
@[simp] theorem State.dropWin_poison (s : State) (c : Nat) (l : Loc) : (s.dropWin c l).poison = s.poison := rfl
@[simp] theorem State.dropWin_dev (s : State) (c : Nat) (l : Loc) : (s.dropWin c l).dev = s.dev := rfl
@[simp] theorem State.dropWin_host (s : State) (c : Nat) (l : Loc) : (s.dropWin c l).host = s.host := rfl
@[simp] theorem State.dropWin_log (s : State) (c : Nat) (l : Loc) : (s.dropWin c l).log = s.log := rfl
@[simp] theorem State.dropWin_owners (s : State) (c : Nat) (l : Loc) : (s.dropWin c l).owners = s.owners := rfl
@[simp] theorem State.dropWin_evidence (s : State) (c : Nat) (l : Loc) : (s.dropWin c l).evidence = s.evidence := rfl
@[simp] theorem State.dropWin_tod (s : State) (c : Nat) (l : Loc) : (s.dropWin c l).tod = s.tod := rfl
@[simp] theorem State.dropWin_tick (s : State) (c : Nat) (l : Loc) : (s.dropWin c l).tick = s.tick := rfl
@[simp] theorem State.dropWin_clk (s : State) (c : Nat) (l : Loc) : (s.dropWin c l).clk = s.clk := rfl
@[simp] theorem State.dropWin_ctx (s : State) (c : Nat) (l : Loc) : (s.dropWin c l).ctx = s.ctx := rfl
@[simp] theorem State.dropWin_ant (s : State) (c : Nat) (l : Loc) : (s.dropWin c l).ant = s.ant := rfl
@[simp] theorem State.dropWin_subst (s : State) (c : Nat) (l : Loc) : (s.dropWin c l).subst = s.subst := rfl
@[simp] theorem State.dropWin_scarab (s : State) (c : Nat) (l : Loc) : (s.dropWin c l).scarab = s.scarab := rfl
@[simp] theorem State.dropWin_banks (s : State) (c : Nat) (l : Loc) : (s.dropWin c l).banks = s.banks := rfl
@[simp] theorem State.dropWin_link (s : State) (c : Nat) (l : Loc) : (s.dropWin c l).link = s.link := rfl
@[simp] theorem State.dropWin_fe (s : State) (c : Nat) (l : Loc) : (s.dropWin c l).fe = s.fe := rfl
@[simp] theorem State.dropWin_acq (s : State) (c : Nat) (l : Loc) : (s.dropWin c l).acq = s.acq := rfl
@[simp] theorem State.dropWin_bus (s : State) (c : Nat) (l : Loc) : (s.dropWin c l).bus = s.bus := rfl
@[simp] theorem State.dropWin_twin (s : State) (c : Nat) (l : Loc) : (s.dropWin c l).twin = s.twin := rfl
@[simp] theorem State.dropWin_pwr (s : State) (c : Nat) (l : Loc) : (s.dropWin c l).pwr = s.pwr := rfl
@[simp] theorem State.dropWin_loader (s : State) (c : Nat) (l : Loc) : (s.dropWin c l).loader = s.loader := rfl
@[simp] theorem State.dropWin_warden (s : State) (c : Nat) (l : Loc) : (s.dropWin c l).warden = s.warden := rfl
@[simp] theorem State.dropWin_free (s : State) (c : Nat) (l : Loc) : (s.dropWin c l).free = s.free := rfl

@[simp] theorem State.raise_pending (s : State) (c : Nat) (l : Loc) (t : W32) (d : Nat) : (s.raise c l t d).pending = s.pending := by
  unfold State.raise; dsimp only
  split
  · simp
  · split
    · split <;> simp
    · simp
@[simp] theorem State.raise_mem (s : State) (c : Nat) (l : Loc) (t : W32) (d : Nat) : (s.raise c l t d).mem = s.mem := by
  unfold State.raise; dsimp only
  split
  · simp
  · split
    · split <;> simp
    · simp
@[simp] theorem State.raise_poison (s : State) (c : Nat) (l : Loc) (t : W32) (d : Nat) : (s.raise c l t d).poison = s.poison := by
  unfold State.raise; dsimp only
  split
  · simp
  · split
    · split <;> simp
    · simp
@[simp] theorem State.raise_dev (s : State) (c : Nat) (l : Loc) (t : W32) (d : Nat) : (s.raise c l t d).dev = s.dev := by
  unfold State.raise; dsimp only
  split
  · simp
  · split
    · split <;> simp
    · simp
@[simp] theorem State.raise_owners (s : State) (c : Nat) (l : Loc) (t : W32) (d : Nat) : (s.raise c l t d).owners = s.owners := by
  unfold State.raise; dsimp only
  split
  · simp
  · split
    · split <;> simp
    · simp
@[simp] theorem State.raise_tod (s : State) (c : Nat) (l : Loc) (t : W32) (d : Nat) : (s.raise c l t d).tod = s.tod := by
  unfold State.raise; dsimp only
  split
  · simp
  · split
    · split <;> simp
    · simp
@[simp] theorem State.raise_tick (s : State) (c : Nat) (l : Loc) (t : W32) (d : Nat) : (s.raise c l t d).tick = s.tick := by
  unfold State.raise; dsimp only
  split
  · simp
  · split
    · split <;> simp
    · simp
@[simp] theorem State.raise_clk (s : State) (c : Nat) (l : Loc) (t : W32) (d : Nat) : (s.raise c l t d).clk = s.clk := by
  unfold State.raise; dsimp only
  split
  · simp
  · split
    · split <;> simp
    · simp
@[simp] theorem State.raise_ctx (s : State) (c : Nat) (l : Loc) (t : W32) (d : Nat) : (s.raise c l t d).ctx = s.ctx := by
  unfold State.raise; dsimp only
  split
  · simp
  · split
    · split <;> simp
    · simp
@[simp] theorem State.raise_ant (s : State) (c : Nat) (l : Loc) (t : W32) (d : Nat) : (s.raise c l t d).ant = s.ant := by
  unfold State.raise; dsimp only
  split
  · simp
  · split
    · split <;> simp
    · simp
@[simp] theorem State.raise_subst (s : State) (c : Nat) (l : Loc) (t : W32) (d : Nat) : (s.raise c l t d).subst = s.subst := by
  unfold State.raise; dsimp only
  split
  · simp
  · split
    · split <;> simp
    · simp
@[simp] theorem State.raise_scarab (s : State) (c : Nat) (l : Loc) (t : W32) (d : Nat) : (s.raise c l t d).scarab = s.scarab := by
  unfold State.raise; dsimp only
  split
  · simp
  · split
    · split <;> simp
    · simp
@[simp] theorem State.raise_banks (s : State) (c : Nat) (l : Loc) (t : W32) (d : Nat) : (s.raise c l t d).banks = s.banks := by
  unfold State.raise; dsimp only
  split
  · simp
  · split
    · split <;> simp
    · simp
@[simp] theorem State.raise_link (s : State) (c : Nat) (l : Loc) (t : W32) (d : Nat) : (s.raise c l t d).link = s.link := by
  unfold State.raise; dsimp only
  split
  · simp
  · split
    · split <;> simp
    · simp
@[simp] theorem State.raise_fe (s : State) (c : Nat) (l : Loc) (t : W32) (d : Nat) : (s.raise c l t d).fe = s.fe := by
  unfold State.raise; dsimp only
  split
  · simp
  · split
    · split <;> simp
    · simp
@[simp] theorem State.raise_acq (s : State) (c : Nat) (l : Loc) (t : W32) (d : Nat) : (s.raise c l t d).acq = s.acq := by
  unfold State.raise; dsimp only
  split
  · simp
  · split
    · split <;> simp
    · simp
@[simp] theorem State.raise_bus (s : State) (c : Nat) (l : Loc) (t : W32) (d : Nat) : (s.raise c l t d).bus = s.bus := by
  unfold State.raise; dsimp only
  split
  · simp
  · split
    · split <;> simp
    · simp
@[simp] theorem State.raise_twin (s : State) (c : Nat) (l : Loc) (t : W32) (d : Nat) : (s.raise c l t d).twin = s.twin := by
  unfold State.raise; dsimp only
  split
  · simp
  · split
    · split <;> simp
    · simp
@[simp] theorem State.raise_pwr (s : State) (c : Nat) (l : Loc) (t : W32) (d : Nat) : (s.raise c l t d).pwr = s.pwr := by
  unfold State.raise; dsimp only
  split
  · simp
  · split
    · split <;> simp
    · simp
@[simp] theorem State.raise_loader (s : State) (c : Nat) (l : Loc) (t : W32) (d : Nat) : (s.raise c l t d).loader = s.loader := by
  unfold State.raise; dsimp only
  split
  · simp
  · split
    · split <;> simp
    · simp
@[simp] theorem State.raise_warden (s : State) (c : Nat) (l : Loc) (t : W32) (d : Nat) : (s.raise c l t d).warden = s.warden := by
  unfold State.raise; dsimp only
  split
  · simp
  · split
    · split <;> simp
    · simp
@[simp] theorem State.raise_free (s : State) (c : Nat) (l : Loc) (t : W32) (d : Nat) : (s.raise c l t d).free = s.free := by
  unfold State.raise; dsimp only
  split
  · simp
  · split
    · split <;> simp
    · simp

theorem State.rd_countCode (s : State) (c : Nat) (l : Loc) (t : W32) (a : Nat) :
    (s.countCode c l t).rd a = (s.bump (Reg.fcCount c)).rd a := by
  unfold State.countCode; dsimp only; split <;> rfl

theorem State.rd_writeCode (s : State) (c : Nat) (l : Loc) (t : W32) (d a : Nat) (h1 : a ∉ recordRegs) (h2 : a ≠ Reg.logSeq) :
    (s.writeCode c l t d).rd a = s.rd a := by
  unfold State.writeCode; dsimp only; split
  · rw [State.rd_logPut _ _ _ _ _ _ _ h2, State.rd_record _ _ _ h1]
  · rw [State.rd_record _ _ _ h1]

@[simp] theorem State.writeCode_async (s : State) (c : Nat) (l : Loc) (t : W32) (d : Nat) :
    (s.writeCode c l t d).host.async = s.host.async := by
  unfold State.writeCode; dsimp only; split
  · rw [State.logPut_host, State.record_async]
  · rw [State.record_async]

@[simp] theorem State.writeCode_outbox (s : State) (c : Nat) (l : Loc) (t : W32) (d : Nat) (tr : Transport) :
    (s.writeCode c l t d).outbox tr = s.outbox tr := by
  unfold State.writeCode; dsimp only; split
  · rw [State.logPut_outbox, State.record_outbox]
  · rw [State.record_outbox]

/-- What a raise does to a register outside the ring, the log and IRQ_STATUS: the counter of the code counts. -/
theorem State.rd_raise_bump (s : State) (c : Nat) (l : Loc) (t : W32) (d a : Nat) (h1 : a ∉ recordRegs) (h2 : a ≠ Reg.logSeq) :
    (s.raise c l t d).rd a = (s.bump (Reg.fcCount c)).rd a := by
  unfold State.raise; dsimp only
  have ho : ∀ (x : State), (x.openWin c l t).rd a = x.rd a := fun _ => rfl
  have hj : ∀ (x : State), (x.joinWin c l t).rd a = x.rd a := fun _ => rfl
  have hd : ∀ (x : State), (x.dropWin c l).rd a = x.rd a := fun _ => rfl
  split
  · rw [State.rd_writeCode _ _ _ _ _ _ h1 h2, State.rd_countCode]
  · split
    · split
      · rw [hj, State.rd_countCode]
      · rw [State.rd_writeCode _ _ _ _ _ _ h1 h2, ho, State.rd_summary _ _ _ h1, hd, State.rd_countCode]
    · rw [State.rd_writeCode _ _ _ _ _ _ h1 h2, ho, State.rd_countCode]

/-- Every other register keeps its value. -/
theorem State.rd_raise (s : State) (c : Nat) (l : Loc) (t : W32) (d a : Nat) (h : a ∉ raiseRegs c) :
    (s.raise c l t d).rd a = s.rd a := by
  simp only [raiseRegs, List.mem_cons, List.not_mem_nil, or_false, not_or] at h
  obtain ⟨h1, h2, h3, h4, h5, h6⟩ := h
  have hr : a ∉ recordRegs := by simp [recordRegs, h2, h3, h4, h6]
  rw [State.rd_raise_bump s c l t d a hr h5, State.rd_bump, if_neg h1]

@[simp] theorem State.raise_async (s : State) (c : Nat) (l : Loc) (t : W32) (d : Nat) :
    (s.raise c l t d).host.async = s.host.async := by
  unfold State.raise; dsimp only
  split
  · simp
  · split
    · split
      · simp
      · rw [State.writeCode_async, State.openWin_host, State.summary_async]; simp
    · simp

@[simp] theorem State.raise_outbox (s : State) (c : Nat) (l : Loc) (t : W32) (d : Nat) (tr : Transport) :
    (s.raise c l t d).outbox tr = s.outbox tr := by
  have h0 : (s.countCode c l t).outbox tr = s.outbox tr := State.outbox_host _ _ _ (by simp)
  unfold State.raise; dsimp only
  split
  · rw [State.writeCode_outbox, h0]
  · split
    · split
      · exact h0
      · rw [State.writeCode_outbox]
        show (State.summary _ _).outbox tr = _
        rw [State.summary_outbox]; exact h0
    · rw [State.writeCode_outbox]; exact h0

/-- The counter of a code after a raise (21 R488). -/
theorem State.rd_raise_count (s : State) (c : Nat) (l : Loc) (t : W32) (d : Nat) (h : c < 65536) :
    (s.raise c l t d).rd (Reg.fcCount c) = satInc (s.rd (Reg.fcCount c)) := by
  have e : Reg.fcCount c < 0x1000000000000 ∧ 0x300310000 ≤ Reg.fcCount c := by
    unfold Reg.fcCount; omega
  have h5 : Reg.fcCount c ≠ Reg.logSeq := by have := e.2; unfold Reg.logSeq; omega
  have hr : Reg.fcCount c ∉ recordRegs := by
    have := e.1
    simp only [recordRegs, List.mem_cons, List.not_mem_nil, or_false, not_or]
    unfold Reg.fltTail Reg.faultSummary Reg.fltDrops Reg.irqStatus
    refine ⟨?_, ?_, ?_, ?_⟩ <;> omega
  rw [State.rd_raise_bump s c l t d _ hr h5, State.rd_bump, if_pos rfl]

@[simp] theorem State.rdB_raise (s : State) (c : Nat) (l : Loc) (t : W32) (d a : Nat) : (s.raise c l t d).rdB a = s.rdB a := by
  unfold State.rdB; rw [State.raise_mem]

end Sys2Proof.Machine
end

