-- ==== Sys2Proof/Laws/Ring.lean ====
section
/-! SUPPORT. The release of held replies into the PCIe ring (15 R392), one reply at a time. -/

namespace Sys2Proof.Machine

theorem State.releaseHeld_zero (s : State) : s.releaseHeld 0 = s := rfl

theorem State.releaseHeld_nil (s : State) (n : Nat) (h : s.host.held = []) : s.releaseHeld (n + 1) = s := by
  show (match s.host.held with
    | [] => s
    | r :: rest =>
      let t := { s with host.held := [] }.toRing r
      if t.host.held.isEmpty then { t with host.held := rest }.releaseHeld n else s) = s
  rw [h]

/-- The first reply held goes into the ring where it has room, and the rest follow; else all stay. -/
theorem State.releaseHeld_cons (s : State) (n : Nat) (r : Reply) (rest : List Reply) (h : s.host.held = r :: rest) :
    s.releaseHeld (n + 1) =
      if ({ s with host.held := [] }.toRing r).host.held.isEmpty
      then { ({ s with host.held := [] }.toRing r) with host.held := rest }.releaseHeld n else s := by
  show (match s.host.held with
    | [] => s
    | r :: rest =>
      let t := { s with host.held := [] }.toRing r
      if t.host.held.isEmpty then { t with host.held := rest }.releaseHeld n else s) = _
  rw [h]

end Sys2Proof.Machine
end

