-- ==== Sys2Proof/Laws/Serve.lean ====
section
/-! SUPPORT. The life of a command packet in one lemma each: a synchronous one answers, an asynchronous one is taken, a rejected one has
no effect but its reply; and frames compose. -/

namespace Sys2Proof.Machine

/-- The answer OK of a synchronous command. -/
def State.respond (s : State) (h : Hdr) (op : Nat) (out : List W32) : State :=
  if h.quiet then s else s.reply h.transport h.tag op false Status.ok out

@[simp] theorem State.respond_pending (s : State) (h : Hdr) (op : Nat) (out : List W32) : (s.respond h op out).pending = s.pending := by
  unfold State.respond; split <;> simp
@[simp] theorem State.respond_mem (s : State) (h : Hdr) (op : Nat) (out : List W32) : (s.respond h op out).mem = s.mem := by
  unfold State.respond; split <;> simp
@[simp] theorem State.respond_poison (s : State) (h : Hdr) (op : Nat) (out : List W32) : (s.respond h op out).poison = s.poison := by
  unfold State.respond; split <;> simp
@[simp] theorem State.respond_dev (s : State) (h : Hdr) (op : Nat) (out : List W32) : (s.respond h op out).dev = s.dev := by
  unfold State.respond; split <;> simp
@[simp] theorem State.respond_windows (s : State) (h : Hdr) (op : Nat) (out : List W32) : (s.respond h op out).windows = s.windows := by
  unfold State.respond; split <;> simp
@[simp] theorem State.respond_log (s : State) (h : Hdr) (op : Nat) (out : List W32) : (s.respond h op out).log = s.log := by
  unfold State.respond; split <;> simp
@[simp] theorem State.respond_owners (s : State) (h : Hdr) (op : Nat) (out : List W32) : (s.respond h op out).owners = s.owners := by
  unfold State.respond; split <;> simp
@[simp] theorem State.respond_evidence (s : State) (h : Hdr) (op : Nat) (out : List W32) : (s.respond h op out).evidence = s.evidence := by
  unfold State.respond; split <;> simp
@[simp] theorem State.respond_tod (s : State) (h : Hdr) (op : Nat) (out : List W32) : (s.respond h op out).tod = s.tod := by
  unfold State.respond; split <;> simp
@[simp] theorem State.respond_tick (s : State) (h : Hdr) (op : Nat) (out : List W32) : (s.respond h op out).tick = s.tick := by
  unfold State.respond; split <;> simp
@[simp] theorem State.respond_clk (s : State) (h : Hdr) (op : Nat) (out : List W32) : (s.respond h op out).clk = s.clk := by
  unfold State.respond; split <;> simp
@[simp] theorem State.respond_ctx (s : State) (h : Hdr) (op : Nat) (out : List W32) : (s.respond h op out).ctx = s.ctx := by
  unfold State.respond; split <;> simp
@[simp] theorem State.respond_ant (s : State) (h : Hdr) (op : Nat) (out : List W32) : (s.respond h op out).ant = s.ant := by
  unfold State.respond; split <;> simp
@[simp] theorem State.respond_subst (s : State) (h : Hdr) (op : Nat) (out : List W32) : (s.respond h op out).subst = s.subst := by
  unfold State.respond; split <;> simp
@[simp] theorem State.respond_scarab (s : State) (h : Hdr) (op : Nat) (out : List W32) : (s.respond h op out).scarab = s.scarab := by
  unfold State.respond; split <;> simp
@[simp] theorem State.respond_banks (s : State) (h : Hdr) (op : Nat) (out : List W32) : (s.respond h op out).banks = s.banks := by
  unfold State.respond; split <;> simp
@[simp] theorem State.respond_link (s : State) (h : Hdr) (op : Nat) (out : List W32) : (s.respond h op out).link = s.link := by
  unfold State.respond; split <;> simp
@[simp] theorem State.respond_fe (s : State) (h : Hdr) (op : Nat) (out : List W32) : (s.respond h op out).fe = s.fe := by
  unfold State.respond; split <;> simp
@[simp] theorem State.respond_acq (s : State) (h : Hdr) (op : Nat) (out : List W32) : (s.respond h op out).acq = s.acq := by
  unfold State.respond; split <;> simp
@[simp] theorem State.respond_bus (s : State) (h : Hdr) (op : Nat) (out : List W32) : (s.respond h op out).bus = s.bus := by
  unfold State.respond; split <;> simp
@[simp] theorem State.respond_twin (s : State) (h : Hdr) (op : Nat) (out : List W32) : (s.respond h op out).twin = s.twin := by
  unfold State.respond; split <;> simp
@[simp] theorem State.respond_pwr (s : State) (h : Hdr) (op : Nat) (out : List W32) : (s.respond h op out).pwr = s.pwr := by
  unfold State.respond; split <;> simp
@[simp] theorem State.respond_loader (s : State) (h : Hdr) (op : Nat) (out : List W32) : (s.respond h op out).loader = s.loader := by
  unfold State.respond; split <;> simp
@[simp] theorem State.respond_warden (s : State) (h : Hdr) (op : Nat) (out : List W32) : (s.respond h op out).warden = s.warden := by
  unfold State.respond; split <;> simp
@[simp] theorem State.respond_free (s : State) (h : Hdr) (op : Nat) (out : List W32) : (s.respond h op out).free = s.free := by
  unfold State.respond; split <;> simp

theorem State.rd_respond (s : State) (h : Hdr) (op : Nat) (out : List W32) (a : Nat) (ha : a ∉ replyRegs) :
    (s.respond h op out).rd a = s.rd a := by
  unfold State.respond; split
  · rfl
  · exact State.rd_reply _ _ _ _ _ _ _ a ha

@[simp] theorem State.rdB_respond (s : State) (h : Hdr) (op : Nat) (out : List W32) (a : Nat) : (s.respond h op out).rdB a = s.rdB a := by
  unfold State.rdB; rw [State.respond_mem]

@[simp] theorem State.respond_async (s : State) (h : Hdr) (op : Nat) (out : List W32) :
    (s.respond h op out).host.async = s.host.async := by
  unfold State.respond; split <;> simp

/-- The answer is the packet's reply, or none where QUIET asks for none. -/
theorem State.respond_answered (s u : State) (h : Hdr) (op : Nat) (out : List W32) (ho : u.outbox h.transport = s.outbox h.transport) :
    Answered s (u.respond h op out) h op out := by
  unfold Answered State.respond
  by_cases hq : h.quiet = true
  · simp [hq, ho]
  · simp only [hq, Bool.false_eq_true, if_false]
    obtain ⟨r, hr⟩ := State.reply_replied u h op Status.ok out
    exact ⟨r, by rw [hr.1, ho], hr.2⟩

theorem Answered.seal {s u v : State} {h : Hdr} {op : Nat} {out : List W32} (ha : Answered s u h op out) :
    Answered s (v.seal u) h op out := by
  unfold Answered Replied at *
  rw [State.seal_outbox]; exact ha

theorem Replied.seal {s u v : State} {h : Hdr} {op st : Nat} {out : List W32} (ha : Replied s u h op st out) :
    Replied s (v.seal u) h op st out := by
  unfold Replied at *
  rw [State.seal_outbox]; exact ha

/-- The packet leaves no trace in the replies before it is judged, nor in the owners when it is not signed. -/
theorem State.taken_owners_unsigned (s : State) (h : Hdr) (op : Nat) (hs : h.sig = none) : (s.taken h op).owners = s.owners := by
  unfold State.taken State.sigKeep; rw [hs]; simp

/-- Unsigned commands that reach step 10 carry no signature block. -/
theorem State.ready_unsigned (s : State) (h : Hdr) (op : Nat) (hr : s.ready h op = true) (hu : opSigned op = false) : h.sig = none := by
  simp only [State.ready, Bool.and_eq_true] at hr
  have h4 := hr.1.1.1.2
  cases hsig : h.sig with
  | none => rfl
  | some b => rw [hsig] at h4; simp [hu] at h4

/-- A synchronous command that passes its checks and answers at once. -/
theorem State.serve_sync (s : State) (h : Hdr) (op : Nat) (check : State → Option Rej) (eff : State → Effect)
    (hr : s.ready h op = true) (hc : check (s.taken h op) = none) (ha : opAsync op = false)
    (hl : (eff (s.taken h op)).late = false) :
    s.serve h op check eff =
      (eff (s.taken h op)).after ((eff (s.taken h op)).st.respond h op (eff (s.taken h op)).out) := by
  rw [State.serve_ready s h op check eff hr, hc]
  simp only [State.answer, ha, hl, Bool.or_false, Bool.false_eq_true, if_false]
  rfl

/-- An asynchronous command that passes its checks is outstanding, and ACCEPTED is sent. -/
theorem State.serve_async (s : State) (h : Hdr) (op : Nat) (check : State → Option Rej) (eff : State → Effect)
    (hr : s.ready h op = true) (hc : check (s.taken h op) = none) (ha : opAsync op = true) :
    s.serve h op check eff = (eff (s.taken h op)).after
      (State.reply { (eff (s.taken h op)).st with host.async := (eff (s.taken h op)).st.host.async ++
          [⟨h.transport, h.tag, op, (eff (s.taken h op)).mask, (eff (s.taken h op)).tick⟩] }
        h.transport h.tag op false Status.accepted (eff (s.taken h op)).out) := by
  rw [State.serve_ready s h op check eff hr, hc]
  simp only [State.answer, ha, if_true]

/-- A command that its own checks reject. -/
theorem State.serve_rejected (s : State) (h : Hdr) (op : Nat) (check : State → Option Rej) (eff : State → Effect) (r : Rej)
    (hr : s.ready h op = true) (hc : check (s.taken h op) = some r) :
    s.serve h op check eff = ((s.taken h op).noteRej op r).rejectWith h op r := by
  rw [State.serve_ready s h op check eff hr, hc]

/-- Only the loader's refusals write a record. -/
theorem State.noteRej_other (s : State) (op : Nat) (r : Rej) (h : ¬(0x0200 ≤ op ∧ op ≤ 0x0206 ∧ 0x0901 ≤ r.status ∧ r.status ≤ 0x090E)) :
    s.noteRej op r = s := by unfold State.noteRej; rw [if_neg h]

theorem State.taken_of_unsigned (s : State) (h : Hdr) (op : Nat) (hr : s.ready h op = true) (hu : opSigned op = false) :
    s.taken h op = s.take h op := by
  unfold State.taken State.sigKeep; rw [State.ready_unsigned s h op hr hu]

/-- A completion ends the one command it is meant for. -/
theorem State.complete_completed (s : State) (q : Async → Bool) (st : Nat) (p : List W32) (a : Async)
    (h : s.host.async.filter q = [a]) : Completed s (s.complete q st p) a st p := by
  unfold State.complete; dsimp only
  rw [h]
  simp only [List.foldl_cons, List.foldl_nil]
  have ho : ({ s with host.async := s.host.async.filter (fun a => !q a) } : State).outbox a.transport = s.outbox a.transport := by
    cases a.transport <;> rfl
  refine ⟨Reply.mk a.transport a.tag a.opcode true false s.dev.state.code st p s.tod.ns, ?_, rfl, rfl, rfl, rfl, rfl, rfl⟩
  rw [← ho]
  exact State.send_outbox _ (Reply.mk a.transport a.tag a.opcode true false s.dev.state.code st p s.tod.ns)

theorem Completed.seal {s u v : State} {a : Async} {st : Nat} {out : List W32} (h : Completed s u a st out) :
    Completed s (v.seal u) a st out := by
  unfold Completed at *
  rw [State.seal_outbox]; exact h

/-! Frames. -/

theorem Frame.refl (s : State) : Frame s s [] [] := ⟨fun _ _ => rfl, fun _ => rfl, fun p _ => by cases p <;> rfl⟩

theorem Frame.trans {s t u : State} {r1 r2 : List Nat} {p1 p2 : List Part} (h1 : Frame s t r1 p1) (h2 : Frame t u r2 p2) :
    Frame s u (r1 ++ r2) (p1 ++ p2) := by
  obtain ⟨a1, b1, c1⟩ := h1
  obtain ⟨a2, b2, c2⟩ := h2
  refine ⟨fun a ha => ?_, fun a => (b2 a).trans (b1 a), fun p hp => ?_⟩
  · simp only [List.mem_append, not_or] at ha
    rw [a2 a (by simp [ha]), a1 a (by simp [ha])]
  · simp only [List.mem_append, not_or] at hp
    have x := c1 p hp.1
    have y := c2 p hp.2
    cases p <;> exact Eq.trans y x

theorem Frame.mono {s t : State} {r1 r2 : List Nat} {p1 p2 : List Part} (h : Frame s t r1 p1) (hr : ∀ a ∈ r1, a ∈ r2)
    (hp : ∀ p ∈ p1, p ∈ p2) : Frame s t r2 p2 := by
  refine ⟨fun a ha => h.1 a ?_, h.2.1, fun p hp' => h.2.2 p (fun q => hp' (hp p q))⟩
  simp only [List.mem_append, not_or] at ha ⊢
  exact ⟨ha.1, fun q => ha.2 (hr a q)⟩

/-- The end of a step is in every frame. -/
theorem State.frame_seal (s t : State) : Frame t (s.seal t) [] [] := by
  refine ⟨fun a ha => State.rd_seal s t a ?_, fun a => State.rdB_seal s t a, fun p _ => by cases p <;> simp [Part.Same]⟩
  intro h; subst h; simp [replyRegs] at ha

/-- So are replies. -/
theorem State.frame_reply (s : State) (tr : Transport) (tag op : Nat) (c : Bool) (st : Nat) (p : List W32) :
    Frame s (s.reply tr tag op c st p) [] [] :=
  ⟨fun a ha => State.rd_reply _ _ _ _ _ _ _ a (by simpa using ha), fun a => State.rdB_reply _ _ _ _ _ _ _ a,
   fun p _ => by cases p <;> simp [Part.Same]⟩

theorem State.frame_respond (s : State) (h : Hdr) (op : Nat) (out : List W32) : Frame s (s.respond h op out) [] [] :=
  ⟨fun a ha => State.rd_respond _ _ _ _ a (by simpa using ha), fun a => State.rdB_respond _ _ _ _ a,
   fun p _ => by cases p <;> simp [Part.Same]⟩

theorem State.frame_take (s : State) (h : Hdr) (op : Nat) : Frame s (s.take h op) [] [] :=
  ⟨fun a _ => State.rd_take s h op a, fun a => State.rdB_take s h op a, fun p _ => by cases p <;> simp [Part.Same]⟩

/-- A signed command also stores its counter. -/
theorem State.frame_taken (s : State) (h : Hdr) (op : Nat) : Frame s (s.taken h op) [] [.owners] :=
  ⟨fun a _ => State.rd_taken s h op a, fun a => State.rdB_taken s h op a, fun p hp => by cases p <;> simp [Part.Same] at hp ⊢⟩

theorem State.frame_complete (s : State) (q : Async → Bool) (st : Nat) (p : List W32) : Frame s (s.complete q st p) [] [] :=
  ⟨fun a ha => State.rd_complete s q st p a (by simpa using ha), fun a => State.rdB_complete s q st p a,
   fun p _ => by cases p <;> simp [Part.Same]⟩

theorem State.frame_wr (s : State) (a : Nat) (v : W32) : Frame s (s.wr a v) [a] [] := by
  refine ⟨fun b hb => State.rd_wr_other s a b v ?_, fun _ => rfl, fun p _ => by cases p <;> rfl⟩
  intro h; subst h; simp at hb

/-- A raise touches its counter, the ring, the log, the report windows and the evidence. -/
theorem State.frame_raise (s : State) (c : Nat) (l : Loc) (t : W32) (d : Nat) :
    Frame s (s.raise c l t d) (raiseRegs c) [.windows, .log, .evidence] := by
  refine ⟨fun a ha => State.rd_raise s c l t d a ?_, fun a => State.rdB_raise s c l t d a, fun p hp => ?_⟩
  · intro h; exact ha (List.mem_append_right _ h)
  · cases p <;> simp [Part.Same] at hp ⊢

/-- An asynchronous command that reaches step 10 and passes its own checks is outstanding, and ACCEPTED is sent. -/
theorem State.async_done (s : State) (h : Hdr) (op : Nat) (check : State → Option Rej) (eff : State → Effect)
    (hr : s.ready h op = true) (ha : opAsync op = true) (hc : check (s.taken h op) = none)
    (hid : (eff (s.taken h op)).after = id) (ho : (eff (s.taken h op)).out = [])
    (hb : (eff (s.taken h op)).st.outbox h.transport = s.outbox h.transport)
    (hs : (eff (s.taken h op)).st.host.async = s.host.async) :
    ∃ t, s.done (s.serve h op check eff) = .next t ∧ Taken s t h op (eff (s.taken h op)).mask (eff (s.taken h op)).tick ∧
      Frame (eff (s.taken h op)).st t [] [] := by
  have key := State.serve_async s h op check eff hr hc ha
  rw [hid, ho] at key
  refine ⟨s.seal (s.serve h op check eff), rfl, ⟨?_, ?_⟩, ?_⟩
  · rw [key]
    obtain ⟨r, hx⟩ := State.reply_replied ({ (eff (s.taken h op)).st with host.async := (eff (s.taken h op)).st.host.async ++
          [⟨h.transport, h.tag, op, (eff (s.taken h op)).mask, (eff (s.taken h op)).tick⟩] } : State) h op Status.accepted []
    have hq : Replied s (State.reply { (eff (s.taken h op)).st with host.async := (eff (s.taken h op)).st.host.async ++
          [⟨h.transport, h.tag, op, (eff (s.taken h op)).mask, (eff (s.taken h op)).tick⟩] }
        h.transport h.tag op false Status.accepted []) h op Status.accepted [] := by
      refine ⟨r, hx.1.trans (congrArg (· ++ [r]) (Eq.trans ?_ hb)), hx.2⟩
      cases h.transport <;> rfl
    exact hq.seal
  · rw [key]; simp [hs]
  · rw [key]
    have h0 : Frame (eff (s.taken h op)).st ({ (eff (s.taken h op)).st with host.async := (eff (s.taken h op)).st.host.async ++
          [⟨h.transport, h.tag, op, (eff (s.taken h op)).mask, (eff (s.taken h op)).tick⟩] } : State) [] [] :=
      ⟨fun _ _ => rfl, fun _ => rfl, fun p _ => by cases p <;> rfl⟩
    exact ((h0.trans (State.frame_reply _ _ _ _ _ _ _)).trans (State.frame_seal s _)).mono (by simp) (by simp)

/-- A synchronous, unsigned command that reaches step 10 and passes its own checks: the next state, its answer and its frame. -/
theorem State.sync_done (s : State) (h : Hdr) (op : Nat) (check : State → Option Rej) (eff : State → Effect) (regs : List Nat)
    (parts : List Part) (hr : s.ready h op = true) (hu : opSigned op = false) (ha : opAsync op = false)
    (hc : check (s.take h op) = none) (hf : Frame (s.take h op) (eff (s.take h op)).st regs parts)
    (hh : (eff (s.take h op)).st.outbox h.transport = s.outbox h.transport) (hid : (eff (s.take h op)).after = id) (hl : (eff (s.take h op)).late = false) :
    ∃ t, s.done (s.serve h op check eff) = .next t ∧
      t = s.seal ((eff (s.take h op)).st.respond h op (eff (s.take h op)).out) ∧
      Answered s t h op (eff (s.take h op)).out ∧ Frame s t regs parts := by
  have e := State.taken_of_unsigned s h op hr hu
  have key : s.serve h op check eff = (eff (s.take h op)).st.respond h op (eff (s.take h op)).out := by
    rw [State.serve_sync s h op check eff hr (by rw [e]; exact hc) ha (by rw [e]; exact hl), e, hid]; rfl
  refine ⟨s.seal ((eff (s.take h op)).st.respond h op (eff (s.take h op)).out), by rw [key]; rfl, rfl,
    (State.respond_answered s _ h op _ hh).seal, ?_⟩
  exact ((((State.frame_take s h op).trans hf).trans (State.frame_respond _ h op _)).trans (State.frame_seal s _)).mono
    (by simp) (by simp)

/-- A command that its own checks reject, with a status that is none of the loader's: its reply and nothing else. -/
theorem State.rejected_done (s : State) (h : Hdr) (op : Nat) (check : State → Option Rej) (eff : State → Effect) (r : Rej)
    (hr : s.ready h op = true) (hu : opSigned op = false) (hc : check (s.take h op) = some r)
    (hn : ¬(0x0200 ≤ op ∧ op ≤ 0x0206 ∧ 0x0901 ≤ r.status ∧ r.status ≤ 0x090E)) :
    ∃ t, s.done (s.serve h op check eff) = .next t ∧ Replied s t h op r.status [r.detail] ∧ Frame s t [] [] ∧
      t.host.async = s.host.async := by
  have e := State.taken_of_unsigned s h op hr hu
  have key : s.serve h op check eff = (s.take h op).rejectWith h op r := by
    rw [State.serve_rejected s h op check eff r hr (by rw [e]; exact hc), State.noteRej_other _ _ _ hn, e]
  refine ⟨s.seal ((s.take h op).rejectWith h op r), by rw [key]; rfl, ?_, ?_, ?_⟩
  · obtain ⟨x, hx⟩ := State.reply_replied (s.take h op) h op r.status [r.detail]
    have : Replied s ((s.take h op).rejectWith h op r) h op r.status [r.detail] := ⟨x, by rw [← State.take_outbox s h op]; exact hx.1, hx.2⟩
    exact this.seal
  · exact (((State.frame_take s h op).trans (State.frame_reply _ _ _ _ _ _ _)).trans (State.frame_seal s _)).mono (by simp) (by simp)
  · simp [State.rejectWith]

end Sys2Proof.Machine
end

