-- ==== Sys2Proof/Tests/Slice0.lean ====
section
/-! SUPPORT. For each statement with hypotheses, theorems that show a concrete state and operands that meet the hypotheses of each of its
clauses; an ill-formed command for each check of WellFormed; and examples the spec works out. -/

namespace Sys2Proof.Tests

set_option Elab.async false
set_option maxRecDepth 20000
open Sys2Proof.Machine

theorem some_getD {α : Type} {o : Option α} {d : α} (h : o.isSome = true) : o = some (o.getD d) := by
  cases o with
  | none => cases h
  | some a => rfl

theorem lanes_eta {l : Lanes} {p : Nat} (h : l.mask = p) : l = ⟨l.st, l.vals, p, l.at'⟩ := by
  cases l; cases h; rfl

theorem got_eta (g : Got) : g = ⟨g.st, g.bytes, g.marks, g.at'⟩ := rfl

theorem triple_eta {α β γ : Type} {e : α × β × γ} {p : γ} (h : e.2.2 = p) : e = (e.1, e.2.1, p) := by
  cases h; rfl

theorem some_pair {α β : Type} {o : Option (α × β)} {a : α} {d : α × β} (h : o.map (·.1) = some a) : o = some (a, (o.getD d).2) := by
  cases o with
  | none => cases h
  | some e => cases h; rfl

def isNext : Host.Outcome State Fault Refusal → Bool
  | .next _ => true
  | _ => false

def nextOr (d : State) : Host.Outcome State Fault Refusal → State
  | .next t => t
  | _ => d

theorem next_of {o : Host.Outcome State Fault Refusal} {d : State} (h : isNext o = true) : o = .next (nextOr d o) := by
  cases o <;> first | rfl | cases h

def noneBefore (s : State) (u cyc : Nat) : Bool :=
  s.acq.units.all (fun e => !decide (e.1 / 256 = u / 256 ∨ s.rdF (Reg.chg e.1) 27 4 = s.rdF (Reg.chg u) 27 4) ||
    (match e.2.due with
    | [] => true
    | y :: _ => decide (cyc < y.cyc ∨ (cyc = y.cyc ∧ u ≤ e.1))))

theorem first_due {s : State} {u cyc : Nat} (h : noneBefore s u cyc = true) :
    ∀ e ∈ s.acq.units, e.1 / 256 = u / 256 ∨ s.rdF (Reg.chg e.1) 27 4 = s.rdF (Reg.chg u) 27 4 → ∀ y ys, e.2.due = y :: ys →
      cyc < y.cyc ∨ (cyc = y.cyc ∧ u ≤ e.1) := by
  intro e he hu y ys hd
  have h1 := List.all_eq_true.mp h e he
  rw [hd, decide_eq_true hu] at h1
  simpa using h1

def okOf {ε α : Type} : Except ε α → Option α
  | .ok a => some a
  | .error _ => none

def errorOf {ε α : Type} : Except ε α → Option ε
  | .ok _ => none
  | .error e => some e

theorem ok_of {ε α : Type} {e : Except ε α} {a : α} (h : okOf e = some a) : e = .ok a := by
  cases e with
  | ok b => cases h; rfl
  | error b => cases h

theorem error_of {ε α : Type} {e : Except ε α} {b : ε} (h : errorOf e = some b) : e = .error b := by
  cases e with
  | ok a => cases h
  | error c => cases h; rfl

def w0 : State := State.reset
def hS : Hdr := ⟨.spi, 1, false, none⟩
def hP : Hdr := ⟨.pcie, 1, false, none⟩
def hG : Hdr := ⟨.spi, 1, false, some ⟨0, 1, 5, 0, true⟩⟩
def ownKey : BitVec 768 := BitVec.ofNat 768 (0x5cf98ac494c05f65b8825505853fe35bf9c4c031cd5e33ae8ab3bdf2aa463cae931219ea91ba00fe956057898dfc6151 * 2 ^ 384 + 0xbfe2900a474593e75a033b08faa4380b023c9c81db1ab5a04368fbb315cf90cb14ee170ad27bb94565463fd50f9f89c2)
def wOwn : State := { w0 with owners := [⟨some ownKey, 0⟩, ⟨some 9, 0⟩, ⟨none, 0⟩, ⟨none, 0⟩] }
def wBoot (step : Nat) : State := { w0 with dev.state := .boot, warden.bootStep := step }
def wOff : State := { w0 with dev.state := .off, pwr.pgood := false, warden.bootStep := 9 }
def wSafe : State := { w0 with dev.state := .safe, pwr.pgood := false, tick.running := false }
def wMem : State := (w0.wrB 0x100000010 5).wrB 0x100000013 7
def asy (op mask : Nat) (k : W32) : Async := ⟨.spi, 9, op, mask, k⟩
def wAsy (l : List Async) : State := { w0 with host.async := l }
def okReply (tag : Nat) : Reply := ⟨.pcie, tag, 0, false, false, 2, 0, [], 0⟩
def pktNop : List W32 := let p : List W32 := [0x00010000, 0, 0, 0]; p.set 3 (packetCrc p 3)
def fwUp : FwUpdate := { kind := 2, copy := 1, len := 448, got := [(0, 448)], bytes := ((bytesLE 4 0x57464744 ++ bytesLE 4 0x20002 ++ bytesLE 4 0xF048 ++ bytesLE 4 0 ++ bytesLE 4 256) ++ List.replicate 428 0).mapIdx (fun i b => (i, b)) }
def wC (k st : Nat) : State := (w0.setCtxState k st).derive
def wT (k st : Nat) : State := (w0.wr (Reg.ctxrState k) (BitVec.ofNat 32 (st * 2 ^ 29 + 2 ^ 28))).derive
def wTickIn : State := w0.wr Reg.tickCfg 0x800001F4
def wMon : State := (({ w0 with ctx := [{ CtxRun.none' with entered := [5] }, CtxRun.none', CtxRun.none', CtxRun.none'] }).wr Reg.tickId 5).wr (Reg.scCtrl 3 2) 0x80000000
def wDl : State := (wMon.wr (Reg.scDeadline 3 2) 100).wr Reg.tickCfg 500
def wAvs : State := (w0.wr (Reg.avsCfg 3) 0x40000000).wr Reg.tickCfg 500
def dOut : OutDecl := { ctx := 1, out := 3, width := 8, latT := 1, latC := 0, deps := [(0, 0)], fbKind := 0, fixed := 0, escN := 0, escLog2 := 0, decision := none, src := none }
def wOut (late : Bool) (gap : Bool) : State :=
  ({ w0 with clk.outs := [dOut], clk.vals := [⟨1, 3, 4, 0x7F, false, []⟩], clk.judges := [⟨0, 0, 4, true, late, false⟩],
             ctx := [CtxRun.none', { CtxRun.none' with entered := [4], gaps := if gap then [4] else [] }, CtxRun.none', CtxRun.none'] }).wr Reg.tickId 5
def patEnt : List W8 := bytesLE 4 0x100 ++ bytesLE 4 0x00700009 ++ bytesLE 16 0 ++ bytesLE 8 100
def sectB (ty off len crc : Nat) : List W8 := bytesLE 4 (ty * 65536) ++ bytesLE 4 off ++ bytesLE 4 len ++ bytesLE 4 crc
def imgB : List W8 :=
  bytesLE 4 0x314B5055 ++ bytesLE 4 0x10000 ++ bytesLE 4 480 ++ bytesLE 4 0x80 ++ bytesLE 4 7 ++ bytesLE 4 0xF048 ++ bytesLE 4 0x100A1 ++
  bytesLE 4 0 ++ bytesLE 4 (2 * 2 ^ 28) ++ bytesLE 4 0 ++ bytesLE 8 0x1122334455667788 ++ List.replicate 80 0 ++
  sectB 1 0x160 0 0 ++ sectB 2 0x100 32 420107693 ++ sectB 3 0x160 0 0 ++ sectB 5 0x120 32 3586102005 ++ sectB 6 0x160 0 0 ++ sectB 8 0x140 32 2919991842 ++ sectB 0xB 0x160 0 0 ++
  List.replicate 48 0 ++ bytesLE 4 1 ++ bytesLE 4 0x1400000 ++ bytesLE 4 0xFFFFFFFF ++ List.replicate 20 0 ++ patEnt ++
  bytesLE 4 0 ++ bytesLE 4 1 ++ (bytesLE 48 0x480fbbc7c2b3fa7e64e639a2e072d44f324f793b6ca1df92f50903ca5d50d6b662cf45a2170f2e809645045bae50fb2b).reverse ++ (bytesLE 48 0x8f64f406bb5fe92be3edc8f31f418e6f3cfe9bd6ede828222ff892bdb60b8b82d460093b166b1fd223635f2c2f4e6a74).reverse ++ List.replicate 24 0
def imgC : Contents := { Contents.empty with ctxs := [⟨1, 0, 0, 2, 0, false, 0, 0, false, []⟩], segOff := 0x120, segCount := 1, passes := 2, passEvents := 2 }
def stg (c : Bool) : Staged := { handle := 5, base := 0, len := 480, got := [(0, 480)], img := imgC, bases := [], parts := [], patches := [], committing := c, validAt := none }
def wStg (c : Bool) : State := { wOwn with mem := (imgB.mapIdx (fun i b => (0x14600000000 + i, b))).filter (fun e => e.2 != 0), loader.staged := some (stg c) }
def wEmptyStg : State := { w0 with loader.staged := some { stg false with got := [] } }
def aCom : Async := ⟨.spi, 9, Op.commit, 2, 0⟩
def imgI : Image := { handle := 5, base := 0, len := 480, mask := 2, img := imgC, bases := [], parts := [], patches := [] }
def wImg (st : Nat) : State := ({ wStg false with loader.staged := none, loader.images := [imgI] }.setCtxState 1 st).derive
def wLn (n : Nat) (mode grp rx tx lock step att inG : Nat) (l : LaneSt) : State :=
  ({ w0 with link.lanes := [(n, l)] }.wr (Reg.laneCfg n) (BitVec.ofNat 32 (mode * 2 ^ 26 + grp * 2 ^ 9))).wr (Reg.laneState n)
    (BitVec.ofNat 32 (rx * 2 ^ 29 + tx * 2 ^ 27 + lock * 2 ^ 24 + step * 2 ^ 20 + att * 2 ^ 16 + inG * 2 ^ 7))
def li : LaneSt := LaneSt.init
def wGrp (s : State) (g stat : Nat) : State :=
  (((s.wr (Reg.grpCfg g) (BitVec.ofNat 32 (2 ^ 31 + 8 * 2 ^ 18))).wr (Reg.grpLanesLo g) 0x20).wr (Reg.grpStat g) (BitVec.ofNat 32 (stat * 2 ^ 30))).wr
    (Reg.laneCfg 5) (s.rd (Reg.laneCfg 5) ||| BitVec.ofNat 32 (2 ^ 15 + g * 2 ^ 9))
def ctl (ix : Nat) (w : W64) : Blk := ⟨ix, true, false, w, 0⟩
def frBlks (hdr : W64) (rows : List W64) (bad : Bool) : List Blk :=
  ctl 1 hdr :: (rows.mapIdx (fun i w => ⟨2 + i, false, false, w, 0⟩)) ++
    [ctl (2 + rows.length) (BitVec.ofNat 64 ((laneCrc (hdr :: rows)).toNat * 2 ^ 32 + 0xE3 + (if bad then 2 ^ 40 else 0)))]
def wBl (l : List Blk) : State := wGrp (wLn 5 1 0 3 2 2 0 0 1 { LaneSt.init with rx := l, sinceMarker := 100 }) 4 1
def wFr (hdr : Nat) (rows : List W64) : State := wBl (frBlks (BitVec.ofNat 64 hdr) rows false)
def kindH (kind rows : Nat) : Nat := 3 * 2 ^ 52 + kind * 2 ^ 48 + 15 * 2 ^ 44 + (rows - 1) * 2 ^ 32 + 0xE4
def memH (op fl : Nat) : Nat := 3 * 2 ^ 52 + op * 2 ^ 48 + 15 * 2 ^ 44 + (fl - 1) * 2 ^ 38 + 7 * 2 ^ 30 + 0xE6
def evH (st tick : Nat) : W64 := BitVec.ofNat 64 (tick * 2 ^ 32 + st * 2 ^ 24 + 0xE2)
def w64s (l : List W32) : List W64 := (List.range (l.length / 2)).map (fun i => BitVec.ofNat 64 ((l.getD (2 * i) 0).toNat + (l.getD (2 * i + 1) 0).toNat * 2 ^ 32))
def frame0 (n : W32) : RxFrame := ⟨4, 9, n, 1, false, false, false, 1, false, [], [], false, false⟩
def rem (w ct : Bool) (ans : Bool) : Remote := ⟨4, 3, 7, w, 32, ct, 1000, .core 2 5 1 3 9, ans, 0, [5], 0, none, [], [], true⟩
def keep (q rs : Nat) : Kept := ⟨q, ⟨4, 0xE6, [1]⟩, rs, 0⟩
def wKept (l : List Kept) (b : List Blk) : State :=
  let s := wBl b
  { s with link.groups := [(4, { GroupSt.init with kept := l })], tod.fab := 4096 }
def fastB (kind q : Nat) : Blk := ctl 1 (BitVec.ofNat 64 (kind * 2 ^ 28 + q * 2 ^ 8 + 0xE8))
def fieldW : List (Nat × W32) := [(Reg.fieldEnt 1023, BitVec.ofNat 32 (2 ^ 31 + 4 * 2 ^ 23 + 9 * 2 ^ 15)), (Reg.fieldEnt 1023 + 4, BitVec.ofNat 32 (7 * 2 ^ 27 + 8 * 2 ^ 20 + 5 * 2 ^ 11)), (Reg.fieldEnt 1023 + 8, 20), (Reg.fieldEnt 1023 + 0xC, 0x01020304), (Reg.tickCfg, 500)]
def wTick (s : State) : State := { s.wr Reg.tickCfg 500 with tick.nextAt := 500 }
def wSmp : State :=
  let s := wTick (wFr (evH 9 0).toNat [0x0102030405060708])
  { s with link.frames := [frame0 0] }.wr (Reg.sch 5) (BitVec.ofNat 32 (2 ^ 31 + 4 * 2 ^ 21 + 9 * 2 ^ 13))
def wPrim (level : W32) (armed : Bool) : State :=
  ((wSmp.wr (Reg.prim 511) (BitVec.ofNat 32 (2 ^ 31 + 5 * 2 ^ 16 + 7 * 2 ^ 8))).wr (Reg.prim 511 + 4) (level ||| 0x000A0000)).wr (Reg.prim 511 + 0x1C) (if armed then 0x80000000 else 0)
def wClk (cfg : W32) : State := (wTick w0).wr (Reg.click 63) cfg
def pu (i : Nat) : Pulse := ⟨i, 0, ⟨0, 0, 0⟩, false, false, false, true⟩
def wCond (cfg : W32) (mem : W32) : State :=
  (({ wTick w0 with fe.pulses := [(100, pu 3)] }).wr (Reg.cond 63) cfg).wr (Reg.condMem 63 0) mem
def afterP (s : State) : State := { s with fe.pulses := [], fe.last := SMap.set LastPulse.none' s.fe.last 3 ⟨101, false, false⟩ }
def tr0 : TrigRec := ⟨100, none, 0, 1, ⟨0, 0, 0⟩, 0, 3, 0, false, false, false⟩
def cfgA : AcqCfg := ⟨true, 63, 2, 2, 1, 5, 10, 16, 16, 0, 1, 0, 4096⟩
def wCh : State := (wTick w0).wr (Reg.sch 5) 0x80000000
def wAq (st : Nat) (f : AcqGrp → AcqGrp) : State :=
  let s := wCh.acqConfigure cfgA
  (s.setAcq 63 (f (s.acqGrp 63))).setAcqState 63 st
def sg0 : Segment := ⟨63, 0, 100, 0, 100, 10, false, false, tr0⟩
def sm (v : W16) (f : Bool) : Sample := ⟨0, 3, v, f, 3⟩
def wCu (c : ChgSt) (its : List Item) : State :=
  { wCh with acq.units := [(5, c)], acq.streams := [(2, ⟨its, none⟩)] }.wrs [(Reg.chg 5, 0x90000005), (Reg.chg 5 + 4, 3)]
def wStr (dest rd : Nat) : State :=
  let s := { wTick w0 with acq.streams := [(15, ⟨[.flit 3 0 0xABCDEF], some 0⟩)] }
  s.wrs [(Reg.str 15, BitVec.ofNat 32 (2 ^ 31 + dest * 2 ^ 29)), (Reg.str 15 + 4, 0), (Reg.str 15 + 8, 0x100), (Reg.str 15 + 0xC, 1), (Reg.str 15 + 0x18, 0xFE0), (Reg.str 15 + 0x1C, BitVec.ofNat 32 rd)]
def slot0 : BusSlot := ⟨0x8001, 0xC5A3, 0, 100, 500⟩
def wBus (cfg : W32) (st : Nat) (b : BusSt) : State := ({ wTick w0 with bus := b }.wr Reg.busCfg cfg).setBusState st
def bus0 : BusSt := BusSt.init
def lines0 : List Nat := (List.range 8).map (lineBits (slotBits slot0))
def loopW : List (Nat × W32) := (List.range 8).map (fun k => (Reg.busLoop k, 160))
def ptpF : List W8 := List.replicate 12 0 ++ [0x88, 0xF7] ++ List.replicate 48 0
def wPort (one : Bool) : State := { wTick (wLn 143 3 0 2 2 0 0 0 0 li) with tod.ptp := [(143, one)] }
def wArb (a : ArbSt) (regs : List (Nat × W32)) : State := { w0 with banks.arbs := [{ a with ix := 0x23F }] }.wrs regs
def ab (wait : List ArbReq) (holder : Option ArbReq) : ArbSt := { ix := 0, waiting := wait, holder := holder, guarded := false, lastAt := [], losses := [], earliest := 0, lastCyc := 9 }
def srcC : Src := ⟨15, 511, 3, 15, 0⟩
def flC (len : Nat) : Flit := { data := 0x77, tag := 9, ctx := 3, dq := 7, off := 0, len := len, last := true, poison := false, src := some srcC }
def mi (d : Dest) : MeshItem := { flit := flC 0, dest := d, result := false }
def wQ (held wr : Nat) : State :=
  (w0.setCtxState 3 3).wrs [(Reg.ctxCfg 15 542 3, 0x80000000), (Reg.qalloc 15 542 3 7, BitVec.ofNat 32 (2 ^ 31 + 64)), (Reg.qstat 15 542 3 7, BitVec.ofNat 32 (held * 2 ^ 24 + wr * 2 ^ 8))]
def slotR : SlotRes := ⟨0x1F1, 5, 63⟩
def wSlot (l : List SlotReq) : State := { w0 with ant.slots := [(1, slotR)], ant.requests := l }
def fi (pc : Nat) : Firing := { tile := 15, core := 542, ctx := 3, pc := pc, tag := 9, poisoned := false, loops := [], start := 0, next := 5, clk := 0, due := 0, serial := 4 }
def iw (cls op fa fb mode cnt dst a b step aux : Nat) : Nat :=
  cls * 2 ^ 125 + op * 2 ^ 120 + fa * 2 ^ 116 + fb * 2 ^ 112 + mode * 2 ^ 108 + (cnt - 1) * 2 ^ 96 + dst * 2 ^ 72 + a * 2 ^ 48 + b * 2 ^ 24 + step * 2 ^ 12 + aux
def sto (a : Nat) : Nat := 2 ^ 21 + a
def vrg (r : Nat) : Nat := 2 * 2 ^ 21 + r
def acd (set first : Nat) : Nat := 3 * 2 ^ 21 + first * 4 + set
def qud (q : Nat) : Nat := 4 * 2 ^ 21 + q
def imd (v : Nat) : Nat := 5 * 2 ^ 21 + v
def wI (s : State) (w : Nat) : State :=
  (({ s with ant.firings := [fi 511] }.wrs [(Reg.ctxBoundHi 15 542 3, 0x30000), (Reg.ctxMaxFire 15 542 3, 2)]).wrLE (iramAddr 15 542 3 511) 16 w)
def wQf (w : Nat) : State :=
  let s := (w0.setCtxState 3 3).wrs [(Reg.ctxCfg 15 542 3, 0x80000000), (Reg.qalloc 15 542 3 7, BitVec.ofNat 32 (2 ^ 31 + 64)), (Reg.qstat 15 542 3 7, BitVec.ofNat 32 (63 * 2 ^ 24 + 63 * 2 ^ 16 + 62 * 2 ^ 8)),
    (Reg.route 15 542 3 15, BitVec.ofNat 32 (2 ^ 31 + 7 * 2 ^ 25 + 31 * 2 ^ 20 + 15 * 2 ^ 16)), (Reg.credit 15 542 3 15, 5)]
  let a := s.slotAddr 15 542 3 7 63
  wI ((s.wrLE a 32 0x1122).setSide a ⟨9, true, false, some ⟨15, 511, 3, 15, 0⟩, []⟩) w
def wFs (need : W32) (side : Side) : State :=
  ({ wQf 0 with ant.firings := [] }.wrs [(Reg.ctxNeed 15 542 3 7, need), (Reg.qalloc 15 542 3 6, BitVec.ofNat 32 (2 ^ 31 + 64 + 64 * 2 ^ 16)), (Reg.qstat 15 542 3 6, BitVec.ofNat 32 (2 ^ 24))]).setSide ((wQf 0).slotAddr 15 542 3 6 0) side
def wV (w : Nat) (pm : Nat) : State :=
  wI { w0 with ant.vr := [(kc 15 542 * 32 + 30, ofLanes (List.replicate 16 0x40400000))], ant.vrPoison := SMap.set 0 [] (kc 15 542 * 32 + 30) pm } w
def accs (n : Nat) (a : Acc) : SMap Acc := (List.range n).map (fun i => (accKey 15 542 3 0 + i, a))
def acc2 : Acc := { Acc.zero with mode := 2, terms := 9, inBlk := 4031, exact := 3 }
def wA (n : Nat) (a : Acc) (w : Nat) : State :=
  wI (({ w0 with ant.acc := accs n a }.wrLE (Reg.coreBase 15 542 + 0x2FFC0) 32 (2 ^ 264 / 255)).wrLE (Reg.coreBase 15 542 + 0x100) 64 (2 ^ 512 / 127)) w
def call (fn : Nat) (d : BitVec 256) : SfuCall := { tile := 15, unit := 3, ctx := 3, lcore := 511, fn := fn, pset := 63, dq := 7, tag := 9, flits := [d], poison := false, complete := true, readyAt := 0 }
def wCall (fn pf : Nat) (d : BitVec 256) : State :=
  { w0 with ant.calls := [call fn d] }.wr (Reg.sfuPset 15 3 3 63 + 28) (BitVec.ofNat 32 (pf * 2 ^ 26 + 1023 * 2 ^ 16))
def sOut : SfuOut := { tile := 15, unit := 3, ctx := 3, lcore := 511, dq := 7, tag := 9, at' := 100, flits := [0x11, 0x22], poison := false }
def kvM : MeshItem := { flit := { flC 0 with data := 0x1FF, src := none }, dest := .sfu 15 3 5 63 511, result := false }
def kvB (r : Nat) : KvBank := { tile := 15, unit := 3, ctx := 3, bank := 1, tag := 7, n := 4, bytes := [], poison := false, readUntil := r, loading := false }
def nd : Nat := nodeOf 15 542 3
def wRing (full timed : Bool) : State :=
  let s := if full then wQf 0 else w0
  let s := { s with ant.firings := [], scarab.blocked := [(nd, 1)], ant.edges := if full then [] else [(0, ⟨15, 511, 3, 7, 15, 511, 3⟩)] }
  (s.wrs ([(Reg.ctxCfg 15 542 3, 0x80000000), (Reg.scarab 15, 3), (Reg.scarab 15 + 8, 64)] ++
    (if full then [(Reg.route 15 542 3 15, BitVec.ofNat 32 (2 ^ 31 + 7 * 2 ^ 25 + 31 * 2 ^ 20 + 15 * 2 ^ 16 + 6 * 2 ^ 7)), (Reg.ctxNeed 15 542 3 7, 0)] else [(Reg.ctxNeed 15 542 3 7, 0x01000000)]))).wr (Reg.ctxrState 3) (BitVec.ofNat 32 (3 * 2 ^ 29 + (if timed then 2 ^ 28 else 0)))
def sx (pos cur phase : Nat) (ret : Bool) : SubstRow := ⟨15, 31, pos, cur, phase, 5, 3, ret, ret⟩
def wSx (x : SubstRow) (regs : List (Nat × W32)) : State := { w0 with subst.rows := [x] }.wrs ((Reg.rowMap 15 31, w0.rd (Reg.rowMap 15 31) ||| 0x80000000) :: regs)
def retd (pos : Nat) : Nat × W32 := (Reg.rowMap 15 31, BitVec.ofNat 32 (pos * 2 ^ 16 + pos))
def aRow : Async := ⟨.spi, 9, Op.coreReturn, rowKey 15 31, 0⟩
def wPt (mode flags lb : Nat) : State :=
  { w0 with dev.state := .loaded }.wrs [(Reg.pt 63, BitVec.ofNat 32 (2 ^ 31 + mode * 2 ^ 29 + flags * 2 ^ 26)), (Reg.pt 63 + 4, BitVec.ofNat 32 (62 * 2 ^ 26 + 100 * 2 ^ 9 + lb * 2 ^ 4)),
    (Reg.pt 63 + 8, BitVec.ofNat 32 (63 * 2 ^ 26 + 100 * 2 ^ 9 + lb * 2 ^ 4)), (Reg.pt 63 + 0xC, 16), (Reg.pt 63 + 0x18, 8)]
def putK (s : State) (gen : Nat) (l : List Nat) : State := (s.placeAll 63 gen (l.map (fun k => (BitVec.ofNat 96 k, 7)))).getD s
def rq (fs : List (BitVec 256)) : PatReq := ⟨15, 511, 3, 15, 7, 9, fs, false, []⟩
def wLk (s : State) (fs : List (BitVec 256)) (keys : Nat) (banks : List Nat) : State :=
  { s with banks.patReqs := [rq fs], banks.patRoutes := [(5, 15, 511, 3, 15, 255)], banks.patSlots := banks.map (fun b => (5, { route := 255, cycle := 254, bank := b, frame := 0 })) }.wr
    (Reg.pr 255) (BitVec.ofNat 32 (2 ^ 31 + 63 * 2 ^ 25 + (keys - 1) * 2 ^ 19 + 255 * 2 ^ 7))
def kf (k : Nat) : BitVec 256 := BitVec.ofNat 256 (2 ^ 192 + k)
def pRes (n : Nat) : PatRes := ⟨15, 511, 3, 7, 9, (List.range n).map (fun i => (BitVec.ofNat 256 (i + 3), false)), 4096⟩
def wPr (n held : Nat) : State :=
  { wQf 0 with banks.patRes := [pRes n] }.wrs [(Reg.qstat 15 542 3 7, BitVec.ofNat 32 (held * 2 ^ 24 + 63 * 2 ^ 8))]
def wTw (cfg : Nat) (st flags : Nat) : State :=
  { w0 with link.lanes := [(136, li)] }.wrs [(Reg.twinCfg, BitVec.ofNat 32 (cfg * 2 ^ 28)), (Reg.twinStat, BitVec.ofNat 32 (st * 2 ^ 29 + flags * 2 ^ 25)), (Reg.tickCfg, 500), (Reg.tickId, 9)]
def grpUp (s : State) : State := s.wr (Reg.grpStat 63) 0x40000000
def ex (s : State) : State := { s with twin.exchange := true }
def att (v : Bool) (fp : BitVec 384) : AttAnswer := ⟨v, fp, 3, 4, true⟩
def hT : Hdr := ⟨.spi, 1, false, some ⟨0, 1, 5, 0, true⟩⟩
def own1 (s : State) : State := { s with owners := wOwn.owners }
def aHo (k : W32) : Async := ⟨.spi, 9, Op.twinHandover, 0, k⟩
def wBlG (l : List Blk) : State := wGrp (wLn 5 1 0 3 2 2 0 0 1 { LaneSt.init with rx := l, sinceMarker := 100 }) 63 1
def wDig (k ct : Nat) : State :=
  (wBlG (frBlks (evH 255 k) [0x1122334455667788, BitVec.ofNat 64 (3 + ct * 2 ^ 16 + 4 * 2 ^ 32 + 3 * 2 ^ 40), 0, 0, 0, 0, 0] false)).wrs
    [(Reg.twinCfg, 0x80000000), (Reg.twinStat, 0x80000000), (Reg.tickCfg, 500), (Reg.tickId, 9)]
def oD (d : W64) (e : W16) : OwnDigest := ⟨5, d, e, true⟩
def dF (d : W64) (e : W16) : DigestFrame := { tick := 5, digest := d, evidence := e, cTick := 500, tstate := 4, active := false, faulted := false }
def wCmp (flags miss : Nat) (o : OwnDigest) (d : List DigestFrame) : State :=
  let s := wTw 8 4 flags
  { s with twin.own := [o], twin.rcvd := d, twin.missing := miss }
def wPw (stat : Nat) (f : PwrSt → PwrSt) : State := { w0 with pwr := f w0.pwr }.wr Reg.pwrStat (w0.rd Reg.pwrStat ||| BitVec.ofNat 32 stat)
def wShed (cur volt : Nat) : State := wPw (cur * 2 ^ 24) (fun p => { p with lowRun := [(volt, 51)] })
def entry (e : Nat × Nat) : List Host.Cell := [(e.1, BitVec.ofNat 8 e.2), (e.1 + 12, 7), (e.1 + 22, 7)]
def wFilled (flags gen : Nat) : State :=
  let s := wPt 0 flags 0
  { s with mem := (((List.range 2).flatMap (fun j => (List.range 4).map (s.wayAddr 63 gen j 0))).mapIdx (fun i a => (a, i + 1))).flatMap entry }
def iAt (s : State) : AntIns := antIns (s.rdLE (iramAddr 15 542 3 511) 16)
def gAt (s : State) : Firing := (s.atIssue (fi 511) (iAt s) {}).1
def uAt (s : State) : State := (s.atIssue (fi 511) (iAt s) {}).2
def dAt (s : State) : BitVec 256 × Bool × State := (uAt s).pushData (gAt s) (iAt s) 0 []
def la (s : State) : Lanes := (uAt s).srcLanes (gAt s) (iAt s).srcA
def lb (s : State) : Lanes := (la s).st.srcLanes (gAt s) (iAt s).srcB
def lc (s : State) : Lanes := (lb s).st.srcLanes (gAt s) (iAt s).dst
def lp (s : State) : Lanes := ((la s).st.consume (gAt s) (la s).at').srcLanes (gAt s) (iAt s).srcB
def mAt (s : State) : State × Nat × Bool := (uAt s).macDesc (gAt s) (iAt s)
def aAt (s : State) (n : Nat) : Got := (mAt s).1.srcBytes (gAt s) (iAt s).srcA (iAt s).step 0 (elemBytes (iAt s).fmtA n)
def bAt (s : State) (n m : Nat) : Got := (aAt s n).st.srcBytes (gAt s) (iAt s).srcB (iAt s).step 0 (elemBytes (iAt s).fmtB m)
def xAt (s : State) : Got := (uAt s).srcBytes (gAt s) (iAt s).srcA (iAt s).step 0 32
def wCr (st : Nat) (f : CtxRun → CtxRun) : State :=
  ((wQ 1 1).setCtxState 3 st).derive.mapCx [3] (fun c => f { c with cores := [(15, 511)] })

/-! A table whose every way holds an entry takes no further key: the placement procedure ends without a place (08 R229). -/

def fullWays : List Nat := (List.range 2).flatMap (fun j => (List.range 4).map ((wPt 0 4 0).wayAddr 63 1 j 0))

def Full (s : State) : Prop := (∀ a ∈ fullWays, s.entValid a = true) ∧ ∀ a, s.rd a = (wPt 0 4 0).rd a

theorem full_way {s : State} (h : Full s) (j key w : Nat) :
    s.wayAddr 63 1 j (s.bucket 63 j key) w = (wPt 0 4 0).wayAddr 63 1 j ((wPt 0 4 0).bucket 63 j key) w := by
  simp only [State.wayAddr, State.bucket, State.patBank, State.genRows, State.rdF, h.2]

theorem bucket_zero (j key : Nat) (hj : j < 2) : (wPt 0 4 0).bucket 63 j key = 0 := by
  have e : (wPt 0 4 0).rdF (Reg.pt 63 + 4 + 4 * j) 4 5 = 0 := by revert j; decide +kernel
  unfold State.bucket
  rw [e]
  exact Nat.mod_one _

theorem full_mem {s : State} (h : Full s) (j key w : Nat) (hj : j < 2) (hw : w < 4) :
    s.wayAddr 63 1 j (s.bucket 63 j key) w ∈ fullWays := by
  have d : ∀ i, i < 2 → ∀ x, x < 4 → (wPt 0 4 0).wayAddr 63 1 i 0 x ∈ fullWays := by decide +kernel
  rw [full_way h, bucket_zero j key hj]
  exact d j hj w hw

theorem entValid_patPut (s : State) (a key v : Nat) : (s.patPut a key v true).entValid a = true := by
  have e : (s.patPut a key v true).rdLE a 32 = (key % 2 ^ 96 + (v % 2 ^ 64) * 2 ^ 96 + 7 * 2 ^ 176) % 256 ^ 32 := by
    unfold State.patPut
    rw [State.rdLE_setPoison, State.rdLE_wrLE_same]
    rfl
  have k : key % 2 ^ 96 < 2 ^ 96 := Nat.mod_lt _ (by decide)
  have m : v % 2 ^ 64 < 2 ^ 64 := Nat.mod_lt _ (by decide)
  have b : bits ((s.patPut a key v true).rdLE a 32) 176 3 = 7 := by
    rw [e]
    unfold bits
    generalize key % 2 ^ 96 = x at *
    generalize v % 2 ^ 64 = y at *
    omega
  unfold State.entValid
  rw [b]
  decide

theorem entValid_patPut_other (s : State) (a x key v : Nat) (h : x + 32 ≤ a ∨ a + 32 ≤ x) (hx : s.entValid x = true) :
    (s.patPut a key v true).entValid x = true := by
  have e : (s.patPut a key v true).rdLE x 32 = s.rdLE x 32 := by
    unfold State.patPut
    rw [State.rdLE_setPoison, State.rdLE_wrLE_other s a 32 _ x 32 h]
  unfold State.entValid at *
  rw [e]
  exact hx

theorem full_put {s : State} (h : Full s) (a key v : Nat) (ha : a ∈ fullWays) : Full (s.patPut a key v true) := by
  refine ⟨fun x hx => ?_, fun x => ?_⟩
  · have d : ∀ a ∈ fullWays, ∀ x ∈ fullWays, x = a ∨ x + 32 ≤ a ∨ a + 32 ≤ x := by decide +kernel
    rcases d a ha x hx with e | e
    · rw [e]; exact entValid_patPut s a key v
    · exact entValid_patPut_other s a x key v e (h.1 x hx)
  · unfold State.patPut
    rw [State.rd_setPoison, State.rd_wrLE]
    exact h.2 x

theorem full_free {s : State} (h : Full s) (j key : Nat) (hj : j < 2) : s.freeWay 63 1 j key = none := by
  unfold State.freeWay
  rw [List.find?_eq_none]
  intro a ha
  obtain ⟨w, hw, rfl⟩ := List.mem_map.mp ha
  rw [h.1 _ (full_mem h j key w hj (List.mem_range.mp hw))]
  decide

def Holds (c : Kick) : Prop := Full c.st ∧ c.j < 2 ∧ c.placed = false

theorem full_kick (c : Kick) (i : Nat) (h : Holds c) : Holds (c.next 63 1 i) := by
  obtain ⟨h1, hj, hp⟩ := h
  have h2 := full_put h1 _ c.key c.value.toNat (full_mem h1 c.j c.key (i % 4) hj (Nat.mod_lt _ (by decide)))
  have hf := full_free h2 (1 - c.j) (c.st.entKey (c.st.wayAddr 63 1 c.j (c.st.bucket 63 c.j c.key) (i % 4))) (by omega)
  unfold Kick.next
  simp only [hp, hf]
  exact ⟨h2, by show 1 - c.j < 2; omega, rfl⟩

theorem full_kicks (l : List Nat) : ∀ c : Kick, Holds c → Holds (l.foldl (Kick.next 63 1) c) := by
  induction l with
  | nil => exact fun _ h => h
  | cons i r ih => exact fun c h => ih (c.next 63 1 i) (full_kick c i h)

theorem full_place {s : State} (h : Full s) (key : Nat) (v : W64) (hn : s.findKey 63 1 key = none) : s.place 63 1 key v = none := by
  have a := full_free h 0 key (by decide)
  have b := full_free h 1 key (by decide)
  have c := (full_kicks (List.range 256) ⟨s, 0, key, v, false⟩ ⟨h, (by decide : 0 < 2), rfl⟩).2.2
  unfold State.place
  rw [hn, a, b]
  show (if _ then some _ else none) = none
  rw [c]
  rfl

theorem filled_full : Full (wFilled 4 1) := ⟨by decide +kernel, fun _ => rfl⟩

theorem placeAll_one {s : State} {g : Nat} {k : BitVec 96} {v : W64} (h : s.place 63 g k.toNat v = none) : s.placeAll 63 g [(k, v)] = none := by
  simp only [State.placeAll, h]

theorem filled_place (k : BitVec 96) (v : W64) (hn : (wFilled 4 1).findKey 63 1 k.toNat = none) : (wFilled 4 1).placeAll 63 1 [(k, v)] = none :=
  placeAll_one (full_place filled_full k.toNat v hn)

theorem filled_writable : (wFilled 4 1).ptWritable 63 = 1 := by decide +kernel

theorem filled_none : (wFilled 4 1).placeAll 63 ((wFilled 4 1).ptWritable 63) [(77, 9)] = none :=
  filled_writable ▸ filled_place 77 9 (by decide +kernel)

/-! A change unit whose registers are not listed is off. -/

theorem get_absent {V : Type} (d : V) (k : Nat) : ∀ l : SMap V, (∀ e ∈ l, e.1 ≠ k) → SMap.get d l k = d
  | [], _ => rfl
  | (j, v) :: r, h => by
    unfold SMap.get
    rw [if_neg (fun e => h (j, v) (List.Mem.head _) e.symm)]
    exact get_absent d k r (fun e he => h e (List.Mem.tail _ he))

theorem chg_reset : ∀ u, u < 1024 → bit (regReset (Reg.chg u)) 31 = false := by decide +kernel

theorem chg_range (u : Nat) (h : u < 1024) : Reg.chg 0 ≤ Reg.chg u ∧ Reg.chg u < Reg.chg 1024 := by
  unfold Reg.chg
  generalize Reg.csr = c
  omega

theorem chg_off {s : State} (ch : Nat) (h : s.regs.all (fun e => decide (e.1 < Reg.chg 0 ∨ Reg.chg 1024 ≤ e.1)) = true) :
    ∀ u, u < 1024 → s.chgEn u = true → s.rdF (Reg.chg u) 0 10 ≠ ch := by
  intro u hu hc
  have r := chg_range u hu
  have e : s.rd (Reg.chg u) = regReset (Reg.chg u) := by
    refine get_absent _ _ _ (fun e he hk => ?_)
    have q := of_decide_eq_true (List.all_eq_true.mp h e he)
    rw [hk] at q
    omega
  have f : bit (s.rd (Reg.chg u)) 31 = true := hc
  rw [e, chg_reset u hu] at f
  cases f


/-! Ill-formed commands: one for each check of WellFormed. -/

theorem test_wf_accepts : ((Instr.sysNop hS).wf && (Instr.reservedSlot 0x1F1 5 []).wf && (Instr.kvLoad 15 3).wf && (Instr.shedEnter 6).wf) = true := by
  decide +kernel
theorem test_wf_tag : (Instr.sysNop ⟨.spi, 0xFFFF, false, none⟩).wf = false := by decide +kernel
theorem test_wf_transport_group : (Instr.sysNop ⟨.inband 64 0, 1, false, none⟩).wf = false := by decide +kernel
theorem test_wf_transport_part : (Instr.sysNop ⟨.inband 0 64, 1, false, none⟩).wf = false := by decide +kernel
theorem test_wf_key_slot : (Instr.sysNop ⟨.spi, 1, false, some ⟨2 ^ 32, 1, 5, 0, true⟩⟩).wf = false := by decide +kernel
theorem test_wf_counter : (Instr.sysNop ⟨.spi, 1, false, some ⟨0, 1, 2 ^ 64, 0, true⟩⟩).wf = false := by decide +kernel
theorem test_wf_field_width : (Instr.regRead hS 0 (2 ^ 32)).wf = false := by decide +kernel
theorem test_wf_tile : (Instr.kvLoad 16 0).wf = false := by decide +kernel
theorem test_wf_unit : (Instr.sfuResult 0 4).wf = false := by decide +kernel
theorem test_wf_core : (Instr.nop 0 544 {}).wf = false := by decide +kernel
theorem test_wf_row : (Instr.substCopy 0 32).wf = false := by decide +kernel
theorem test_wf_lane : (Instr.autoRetry 144).wf = false := by decide +kernel
theorem test_wf_group : (Instr.txIdle 64).wf = false := by decide +kernel
theorem test_wf_slot : (Instr.passSwitch 4).wf = false := by decide +kernel
theorem test_wf_output : (Instr.fbClr 0 64).wf = false := by decide +kernel
theorem test_wf_stage : (Instr.shedEnter 7).wf = false := by decide +kernel
theorem test_wf_eighths : (Instr.droopStretch 0 0 9).wf = false := by decide +kernel
theorem test_wf_codeword : (Instr.fecCodeword 0 (List.replicate 650 3) (List.replicate 49 3)).wf = false := by decide +kernel
theorem test_wf_level : (Instr.fecCodeword 0 (4 :: List.replicate 649 3) (List.replicate 50 3)).wf = false := by decide +kernel
theorem test_wf_bus_lines : (Instr.busSlotReceive (65536 :: List.replicate 7 0) 0).wf = false := by decide +kernel
theorem test_wf_arbiter : (Instr.arbGrant 0x140 0).wf = false := by decide +kernel
theorem test_wf_port : (Instr.reservedSlot 0x140 0 []).wf = false := by decide +kernel
theorem test_wf_requester : (Instr.reqPrio 0x180 0).wf = false := by decide +kernel
theorem test_wf_length : (Instr.windowBRead 0 0 []).wf = false := by decide +kernel
theorem test_wf_payload : (Instr.pktWrite (List.replicate 16369 0)).wf = false := by decide +kernel

/-! No word of the table spells a command. -/

theorem test_decode_none : decodeTableWord 32 0x00010000 = none := rfl
theorem test_fetch_keeps (s : State) (nbits w : Nat) : s.withFetchWord nbits w = s := rfl

/-! The narrowing examples of 04 §5. -/

theorem test_e4m3_half_down : narrow Fmt.e4m3 false false (.fin false 17 (-4)) = ⟨0x38, 0, 0, false⟩ := by decide +kernel
theorem test_e4m3_half_up : narrow Fmt.e4m3 false false (.fin false 19 (-4)) = ⟨0x3A, 0, 0, false⟩ := by decide +kernel
theorem test_e4m3_saturates : narrow Fmt.e4m3 false false (.fin false 449 0) = ⟨0x7E, 1, 0, false⟩ := by decide +kernel
theorem test_e5m2_saturates : narrow Fmt.e5m2 false false (.fin false 60000 0) = ⟨0x7B, 1, 0, false⟩ := by decide +kernel
theorem test_e5m2_ieee_below : narrow Fmt.e5m2 true false (.fin false 60000 0) = ⟨0x7B, 1, 0, false⟩ := by decide +kernel
theorem test_e5m2_ieee_half : (narrow Fmt.e5m2 true false (.fin false 61440 0)).code = 0x7C := by decide +kernel

/-! The VRSC example of 04 §6. -/

theorem test_vrsc_down : vrsc (-100) 0x60000000 32 3 false (-127) 127 = (-34, 0) := by decide +kernel
theorem test_vrsc_even : (vrsc (-100) 0x60000000 32 3 true (-127) 127).1 = -35 := by decide +kernel
theorem test_vrsc_saturates : vrsc 340 0x60000000 32 3 false (-127) 127 = (127, 1) := by decide +kernel

/-! The order of additions of partials, 04 §4. -/

def xslot (neg : Bool) (e : Nat) : Slot := ⟨3, false, 1, 0, rne48 (.fin neg 1 e)⟩
theorem test_xadd_left : (addSlots false (addSlots false (xslot false 60) (xslot true 60)) (xslot false 0)).xf = rne48 (.fin false 1 0) := by decide +kernel
theorem test_xadd_right : (addSlots false (xslot false 60) (addSlots false (xslot true 60) (xslot false 0))).xf = XF.zero := by decide +kernel

/-! SHA-384 of "abc" (FIPS 180-4), and an ECDSA signature that fails on another digest. -/

theorem test_sha384_abc : sha384 [0x61, 0x62, 0x63] =
    0xcb00753f45a35e8bb5a03d699ac65007272c32ab0eded1631a8b605a43ff5bed8086072ba1e7cc2358baeca134c825a7 := by decide +kernel
theorem test_ecdsa_other_digest : ecdsaOk ownKey 1 5 7 = false := by decide +kernel

/-! One step with its effect, at the edges of fields. -/

theorem test_tick_id_wraps : (nextOr w0 (step { (wTick w0).wr Reg.tickId 0xFFFFFFFF with pending := [.tickStrobe] })).tickId = 0 := by decide +kernel
theorem test_step_pops : (nextOr w0 (step { w0 with pending := [.resetNHigh, .statRead] })).pending = [.statRead] := by decide +kernel
def isIllFormed : Host.Outcome State Fault Refusal → Bool
  | .fault .illFormed => true
  | _ => false

theorem test_unit_absent : isIllFormed (step { w0 with pending := [.autoRetry 144] }) = true := by decide +kernel

theorem meets_StepRunsTheFrontCommand :
    ∃ (s : State), s.pending = [] :=
  ⟨w0, by decide +kernel⟩

theorem meets_ExecLeavesTheQueue :
    (∃ (i : Instr) (s : State) (t : _), exec i s = .next t) ∧
    (∃ (i : Instr), i.packet ≠ none) :=
  ⟨⟨.sysNop hS, w0, nextOr w0 (exec (.sysNop hS) w0), next_of (by decide +kernel)⟩,
   ⟨.sysNop hS, by decide +kernel⟩⟩

def st1 : State := { w0 with pending := [.tickIdSet hS 7] }
theorem meets_StepKeepsCanonicalForm :
    ∃ (s : State) (t : State), s.inv = true ∧ step s = .next t :=
  ⟨st1, nextOr st1 (step st1), by decide +kernel, next_of (by decide +kernel)⟩

theorem meets_ResetIsCanonicalAndIdle :
    ∃ (k : _), k < 4 :=
  ⟨3, by decide +kernel⟩

def st2 : State := { w0 with dev.state := .loaded }
theorem meets_IllegalStateCommandHasNoEffect :
    ∃ (i : Instr) (h : Hdr) (op : Nat) (s : State), i.packet = some (h, op) ∧ op ≠ Op.admitPartner ∧ op ≠ Op.coreRetire ∧ s.served
      h.transport = true ∧ s.transportOk h.transport op = true ∧ (h.sig = none ∨ opSigned op = true) ∧ opLegal op s.dev.state = false :=
  ⟨.twinConfig hS false false false, hS, Op.twinConfig, st2, by decide +kernel, by decide +kernel, by decide +kernel,
    by decide +kernel, by decide +kernel, by decide +kernel, by decide +kernel⟩

def st3 : State := wAsy [⟨.spi, 1, Op.attest, 0, 0⟩]
def st4 : State := wAsy (List.replicate 64 (asy Op.attest 0 0))
theorem meets_PacketRejectionOrder :
    (∃ (i : Instr) (h : Hdr) (op : Nat) (s : State), i.packet = some (h, op) ∧ op ≠ Op.admitPartner ∧ op ≠ Op.coreRetire ∧ s.served
      h.transport = true ∧ opSigned op = false ∧ h.sig ≠ none) ∧
    (∃ (i : Instr) (h : Hdr) (op : Nat) (s : State), i.packet = some (h, op) ∧ op ≠ Op.admitPartner ∧ op ≠ Op.coreRetire ∧ s.served
      h.transport = true ∧ (h.sig = none ∨ opSigned op = true) ∧ s.transportOk h.transport op = false) ∧
    (∃ (i : Instr) (h : Hdr) (op : Nat) (s : State), i.packet = some (h, op) ∧ op ≠ Op.admitPartner ∧ op ≠ Op.coreRetire ∧ s.served
      h.transport = true ∧ h.sig = none ∧ s.transportOk h.transport op = true ∧ opLegal op s.dev.state = true ∧ opSigned op = true) ∧
    (∃ (i : Instr) (h : Hdr) (op : Nat) (s : State), i.packet = some (h, op) ∧ op ≠ Op.admitPartner ∧ op ≠ Op.coreRetire ∧ s.served
      h.transport = true ∧ h.sig = none ∧ s.transportOk h.transport op = true ∧ opLegal op s.dev.state = true ∧ opSigned op = false ∧
      (∃ a ∈ s.host.async, a.transport = h.transport ∧ a.tag = h.tag)) ∧
    (∃ (i : Instr) (h : Hdr) (op : Nat) (s : State), i.packet = some (h, op) ∧ op ≠ Op.admitPartner ∧ op ≠ Op.coreRetire ∧ s.served
      h.transport = true ∧ h.sig = none ∧ s.transportOk h.transport op = true ∧ opLegal op s.dev.state = true ∧ opSigned op = false ∧
      (¬ ∃ a ∈ s.host.async, a.transport = h.transport ∧ a.tag = h.tag) ∧ opAsync op = true ∧ 64 ≤ s.host.async.length) :=
  ⟨⟨.sysNop hG, hG, Op.sysNop, w0, by decide +kernel, by decide +kernel, by decide +kernel, by decide +kernel, by decide +kernel,
     by decide +kernel⟩,
   ⟨.sysNop ⟨.inband 5 3, 1, false, none⟩, ⟨.inband 5 3, 1, false, none⟩, Op.sysNop, w0, by decide +kernel, by decide +kernel,
     by decide +kernel, by decide +kernel, by decide +kernel, by decide +kernel⟩,
   ⟨.commit hS 1, hS, Op.commit, w0, by decide +kernel, by decide +kernel, by decide +kernel, by decide +kernel, by decide +kernel,
     by decide +kernel, by decide +kernel, by decide +kernel⟩,
   ⟨.sysNop hS, hS, Op.sysNop, st3, by decide +kernel, by decide +kernel, by decide +kernel, by decide +kernel, by decide +kernel,
     by decide +kernel, by decide +kernel, by decide +kernel, by decide +kernel⟩,
   ⟨.attest hS false 0, hS, Op.attest, st4, by decide +kernel, by decide +kernel, by decide +kernel, by decide +kernel,
     by decide +kernel, by decide +kernel, by decide +kernel, by decide +kernel, by decide +kernel, by decide +kernel,
     by decide +kernel⟩⟩

theorem meets_SystemCommandsReply :
    (∃ (s : State) (h : Hdr), s.ready h Op.sysNop = true) ∧
    (∃ (s : State) (h : Hdr), s.ready h Op.sysState = true) ∧
    (∃ (s : State) (h : Hdr), s.ready h Op.sigTable = true) ∧
    (∃ (s : State) (h : Hdr), s.ready h Op.sysInfo = true) :=
  ⟨⟨w0, hS, by decide +kernel⟩,
   ⟨w0, hS, by decide +kernel⟩,
   ⟨w0, hS, by decide +kernel⟩,
   ⟨w0, hS, by decide +kernel⟩⟩

theorem meets_RegisterReadsAndWrites :
    (∃ (s : State) (h : Hdr) (addr : Nat) (n : Nat), s.ready h Op.regRead = true ∧ 1 ≤ n ∧ n ≤ 1024 ∧ csrRange addr n = true ∧
      Reg.todLatch ∉ wordAddrs addr n) ∧
    (∃ (a : Nat) (m : W32) (s : State) (h : Hdr), ((a = Reg.numCfg ∧ m = 0x8000001F) ∨ (a = Reg.csr + 0x100 ∧ m = 0xFFFFFFFF) ∨ (a =
      Reg.csr + 0x104 ∧ m = 0xFFFFFFFF) ∨ (∃ k, k < 4 ∧ a = Reg.ctxrDrainTo k ∧ m = 0x1F)) ∧ s.ready h Op.regWrite = true) ∧
    (∃ (a : Nat) (m : W32) (s : State), ((a = Reg.numCfg ∧ m = 0x8000001F) ∨ (a = Reg.csr + 0x100 ∧ m = 0xFFFFFFFF) ∨ (a = Reg.csr +
      0x104 ∧ m = 0xFFFFFFFF) ∨ (∃ k, k < 4 ∧ a = Reg.ctxrDrainTo k ∧ m = 0x1F)) ∧ s.hubOn = true) :=
  ⟨⟨w0, hS, Reg.tickCfg, 2, by decide +kernel, by decide +kernel, by decide +kernel, by decide +kernel, by decide +kernel⟩,
   ⟨Reg.numCfg, 0x8000001F, w0, hS, Or.inl ⟨rfl, rfl⟩, by decide +kernel⟩,
   ⟨Reg.ctxrDrainTo 3, 0x1F, w0, Or.inr (Or.inr (Or.inr ⟨3, by decide, rfl, rfl⟩)), by decide +kernel⟩⟩

theorem meets_HostAndDebugMemoryAccess :
    (∃ (s : State) (a : Nat) (n : Nat), s.hubOn = true ∧ 1 ≤ n ∧ 0x100000000 ≤ a ∧ a + n ≤ 0x140000000 ∧ s.inWindowB a n = true) ∧
    (∃ (s : State) (a : Nat) (bs : List W8), s.hubOn = true ∧ 1 ≤ bs.length ∧ 0x100000000 ≤ a ∧ a + bs.length ≤ 0x140000000 ∧
      s.inWindowB a bs.length = true) ∧
    (∃ (s : State) (h : Hdr) (a : Nat), s.ready h Op.debugRead = true ∧ bit (s.rd Reg.secStat) 31 = false ∧ a % 4 = 0 ∧ 0x100000000 ≤
      a ∧ a + 4 ≤ 0x140000000) ∧
    (∃ (s : State) (h : Hdr) (a : Nat), s.ready h Op.debugWrite = true ∧ bit (s.rd Reg.secStat) 31 = false ∧ a % 4 = 0 ∧ 0x100000000
      ≤ a ∧ a + 4 ≤ 0x140000000) ∧
    (∃ (s : State) (h : Hdr), bit (s.rd Reg.secStat) 31 = true ∧ s.ready h Op.debugRead = true) ∧
    (∃ (s : State) (h : Hdr), bit (s.rd Reg.secStat) 31 = true ∧ s.ready h Op.debugWrite = true) :=
  ⟨⟨wMem, 0x100000010, 8, by decide +kernel, by decide +kernel, by decide +kernel, by decide +kernel, by decide +kernel⟩,
   ⟨wMem, 0x100000010, [1, 2, 0, 4, 5], by decide +kernel, by decide +kernel, by decide +kernel, by decide +kernel,
     by decide +kernel⟩,
   ⟨wMem, hS, 0x100000010, by decide +kernel, by decide +kernel, by decide +kernel, by decide +kernel, by decide +kernel⟩,
   ⟨wMem, hS, 0x100000010, by decide +kernel, by decide +kernel, by decide +kernel, by decide +kernel, by decide +kernel⟩,
   ⟨wMem.wr Reg.secStat 0x80000000, hS, by decide +kernel, by decide +kernel⟩,
   ⟨wMem.wr Reg.secStat 0x80000000, hS, by decide +kernel, by decide +kernel⟩⟩

def st5 : State := { (((w0.wr Reg.rplCfg 0x8000000F).wr Reg.rplHead 0).wr Reg.rplTail 0) with host.held := [okReply 3] }
theorem meets_HostRingsAndInterrupts :
    (∃ (s : State), s.hubOn = true ∧ bit (s.rd Reg.cmdCfg) 31 = false) ∧
    (∃ (s : State), s.hubOn = true ∧ bit (s.rd Reg.rplCfg) 31 = false ∧ s.host.held = []) ∧
    (∃ (s : State), s.hubOn = true ∧ bit (s.rd Reg.fltCfg) 31 = false) ∧
    (∃ (s : State), s.hubOn = true ∧ s.host.held = []) ∧
    (∃ (s : State) (v : _) (r : _), s.hubOn = true ∧ s.host.held = [r] ∧ bit (s.rd Reg.rplCfg) 31 = true ∧ (ringPlace (2 ^ s.rdF
      Reg.rplCfg 0 5 / 16) (v % 2 ^ 20) (s.rdF Reg.rplTail 4 20) (ceilDiv r.bytes 16)).isSome = true) ∧
    (∃ (s : State), s.hubOn = true) ∧
    (∃ (s : State), s.hubOn = true) :=
  ⟨⟨w0.wr Reg.irqStatus 0xF, by decide +kernel, by decide +kernel⟩,
   ⟨w0.wr Reg.irqStatus 0xF, by decide +kernel, by decide +kernel, by decide +kernel⟩,
   ⟨w0.wr Reg.irqStatus 0xF, by decide +kernel, by decide +kernel⟩,
   ⟨w0.wr Reg.irqStatus 0xF, by decide +kernel, by decide +kernel⟩,
   ⟨st5, 5, okReply 3, by decide +kernel, by decide +kernel, by decide +kernel, by decide +kernel⟩,
   ⟨w0.wr Reg.irqStatus 0xF, by decide +kernel⟩,
   ⟨w0.wr Reg.irqStatus 0xF, by decide +kernel⟩⟩

def st6 : State := { w0 with host.spiFull := true }
def st7 : State := { w0 with host.spiReplies := [okReply 2, okReply 3] }
def st8 : State := { w0 with host.spiFull := true, host.overrun := true }
theorem meets_PacketsArrive :
    (∃ (s : State) (tail : Nat) (p : List W32), s.hubOn = true ∧ bit (s.rd Reg.cmdCfg) 31 = true ∧ s.host.held = [] ∧ s.rdF
      Reg.cmdHead 4 20 ≠ tail % 2 ^ 20 ∧ s.packetRej .pcie p = none ∧ fld (p.getD 1 0) 16 16 = 0) ∧
    (∃ (s : State) (p : List W32), s.dev.state ≠ .off ∧ s.host.spiFull = false ∧ s.packetRej .spi p = none ∧ fld (p.getD 1 0) 16 16 =
      0) ∧
    (∃ (s : State), s.dev.state ≠ .off ∧ s.host.spiFull = true) ∧
    (∃ (s : State) (r : Reply) (rest : List Reply), s.dev.state ≠ .off ∧ s.host.spiReplies = r :: rest) ∧
    (∃ (s : State), s.dev.state ≠ .off) :=
  ⟨⟨(w0.wr Reg.cmdCfg 0x8000000F), 1, pktNop, by decide +kernel, by decide +kernel, by decide +kernel, by decide +kernel,
     by decide +kernel, by decide +kernel⟩,
   ⟨w0, pktNop, by decide +kernel, by decide +kernel, by decide +kernel, by decide +kernel⟩,
   ⟨st6, by decide +kernel, by decide +kernel⟩,
   ⟨st7, okReply 2, [okReply 3], by decide +kernel, by decide +kernel⟩,
   ⟨st8, by decide +kernel⟩⟩

def st9 : State := { wMem with host.async := [asy Op.attest 0 0] }
theorem meets_ResetsClearTheDevice :
    (∃ (s : State) (h : Hdr), s.ready h Op.sysReset = true) ∧
    (∃ (s : State) (h : Hdr), s.ready h Op.sysReset = true ∧ s.dev.state ≠ .safe) ∧
    (∃ (s : State) (h : Hdr), s.ready h Op.sysReset = true ∧ s.dev.state ≠ .safe) ∧
    (∃ (s : State) (h : Hdr) (kind : _), s.ready h Op.sysReset = true ∧ s.dev.state = .safe ∧ (kind = 1 ∨ kind = 2)) ∧
    (∃ (s : State) (h : Hdr) (kind : _), s.ready h Op.sysReset = true ∧ 2 < kind) :=
  ⟨⟨st9, hS, by decide +kernel⟩,
   ⟨st9, hS, by decide +kernel, by decide +kernel⟩,
   ⟨st9, hS, by decide +kernel, by decide +kernel⟩,
   ⟨wSafe, hS, 2, by decide +kernel, by decide +kernel, by decide +kernel⟩,
   ⟨st9, hS, 3, by decide +kernel, by decide +kernel⟩⟩

theorem meets_ResetsClearTheDevice_2 :
    (∃ (s : State), s.powered = true) ∧
    (∃ (s : State), s.powered = true) ∧
    (∃ (s : State), s.powered = true) ∧
    (∃ (s : State), s.hubOn = true) ∧
    (∃ (s : State) (a : Nat) (b : Nat), s.dev.state = .off ∧ ((42000 ≤ a ∧ a ≤ 63000) ∨ (42000 ≤ b ∧ b ≤ 63000))) :=
  ⟨⟨st9, by decide +kernel⟩,
   ⟨st9, by decide +kernel⟩,
   ⟨st9, by decide +kernel⟩,
   ⟨st9, by decide +kernel⟩,
   ⟨wOff, 42000, 41999, by decide +kernel, by decide +kernel⟩⟩

def st10 : State := { wBoot 4 with warden.firstFailed := true }
def st11 : State := { w0 with warden.refGood := 0 }
theorem meets_BringUpStepsInOrder :
    (∃ (s : State) (c : Nat) (ok : _), c < 2 ∧ s.dev.state = .boot ∧ s.warden.resetLow = false ∧ s.pwr.pgood = true ∧
      s.warden.bootStep = 3 ∧ c = (if s.warden.firstFailed then 1 - s.copyFirst 0 else s.copyFirst 0) ∧ s.copyGood 0 c ok = true) ∧
    (∃ (s : State) (c : Nat) (ok : _), c < 2 ∧ s.dev.state = .boot ∧ s.warden.resetLow = false ∧ s.pwr.pgood = true ∧
      s.warden.bootStep = 3 ∧ c = (if s.warden.firstFailed then 1 - s.copyFirst 0 else s.copyFirst 0) ∧ s.copyGood 0 c ok = false) ∧
    (∃ (s : State) (c : Nat) (ok : _), c < 2 ∧ s.dev.state = .boot ∧ s.warden.resetLow = false ∧ s.pwr.pgood = true ∧
      s.warden.bootStep = 4 ∧ c = (if s.warden.firstFailed then 1 - s.copyFirst 1 else s.copyFirst 1) ∧ s.copyGood 1 c ok = true) ∧
    (∃ (s : State) (c : Nat) (ok : _), c < 2 ∧ s.dev.state = .boot ∧ s.warden.resetLow = false ∧ s.pwr.pgood = true ∧
      s.warden.bootStep = 4 ∧ c = (if s.warden.firstFailed then 1 - s.copyFirst 1 else s.copyFirst 1) ∧ s.copyGood 1 c ok = false) ∧
    (∃ (s : State) (khz : Nat), s.powered = true ∧ 150000 ≤ khz ∧ khz ≤ 162500) ∧
    (∃ (s : State) (khz : Nat), s.powered = true ∧ (khz < 150000 ∨ 162500 < khz)) ∧
    (∃ (s : State), s.dev.state = .boot ∧ s.pwr.pgood = true ∧ s.warden.resetLow = false ∧ s.warden.bootStep = 6) ∧
    (∃ (s : State) (cals : List CalResult), s.dev.state = .boot ∧ s.pwr.pgood = true ∧ s.warden.resetLow = false ∧ s.warden.bootStep
      = 7 ∧ cals.map (·.unit) = List.range 64) :=
  ⟨⟨wBoot 3, 0, true, by decide +kernel, by decide +kernel, by decide +kernel, by decide +kernel, by decide +kernel,
     by decide +kernel, by decide +kernel⟩,
   ⟨wBoot 3, 0, false, by decide +kernel, by decide +kernel, by decide +kernel, by decide +kernel, by decide +kernel,
     by decide +kernel, by decide +kernel⟩,
   ⟨wBoot 4, 0, true, by decide +kernel, by decide +kernel, by decide +kernel, by decide +kernel, by decide +kernel,
     by decide +kernel, by decide +kernel⟩,
   ⟨st10, 1, false, by decide +kernel, by decide +kernel, by decide +kernel, by decide +kernel, by decide +kernel, by decide +kernel,
     by decide +kernel⟩,
   ⟨st11, 150000, by decide +kernel, by decide +kernel, by decide +kernel⟩,
   ⟨w0, 162501, by decide +kernel, by decide +kernel⟩,
   ⟨wBoot 6, by decide +kernel, by decide +kernel, by decide +kernel, by decide +kernel⟩,
   ⟨wBoot 7, (List.range 64).map (fun i => ⟨i, 100, false⟩), by decide +kernel, by decide +kernel, by decide +kernel,
     by decide +kernel, by decide +kernel⟩⟩

def st12 : State := { w0 with owners := [⟨some 7, 5⟩, ⟨none, 0⟩, ⟨none, 0⟩, ⟨none, 0⟩] }
theorem meets_SignedCommandsStoreTheirCounter :
    (∃ (s : State) (h : Hdr) (b : SigBlock) (i : Instr), ((∃ slot key, i = .ownerKey h slot true key) ∨ (∃ f, i = .fuseBlow h f) ∨ (∃
      k n, i = .fwUpdateBegin h k n) ∨ (∃ k r, i = .fwUpdateCommit h k r)) ∧ h.sig = some b ∧ s.dev.state = .idle ∧ s.served
      h.transport = true ∧ (∀ op, i.packet = some (h, op) → s.transportOk h.transport op = true)) ∧
    (∃ (s : State) (h : Hdr) (b : SigBlock) (i : Instr), ((∃ slot key, i = .ownerKey h slot true key) ∨ (∃ f, i = .fuseBlow h f) ∨ (∃
      k n, i = .fwUpdateBegin h k n) ∨ (∃ k r, i = .fwUpdateCommit h k r)) ∧ h.sig = some b ∧ s.dev.state = .idle ∧ s.served
      h.transport = true ∧ (∀ op, i.packet = some (h, op) → s.transportOk h.transport op = true)) ∧
    (∃ (s : State) (h : Hdr) (b : SigBlock) (i : Instr), ((∃ slot key, i = .ownerKey h slot true key) ∨ (∃ f, i = .fuseBlow h f) ∨ (∃
      k n, i = .fwUpdateBegin h k n) ∨ (∃ k r, i = .fwUpdateCommit h k r)) ∧ h.sig = some b ∧ s.dev.state = .idle ∧ s.served
      h.transport = true ∧ (∀ op, i.packet = some (h, op) → s.transportOk h.transport op = true)) ∧
    (∃ (s : State) (h : Hdr) (b : SigBlock) (i : Instr), ((∃ slot key, i = .ownerKey h slot true key) ∨ (∃ f, i = .fuseBlow h f) ∨ (∃
      k n, i = .fwUpdateBegin h k n) ∨ (∃ k r, i = .fwUpdateCommit h k r)) ∧ h.sig = some b ∧ s.dev.state = .idle ∧ s.served
      h.transport = true ∧ (∀ op, i.packet = some (h, op) → s.transportOk h.transport op = true)) ∧
    (∃ (s : State) (h : Hdr) (b : SigBlock) (i : Instr), ((∃ slot key, i = .ownerKey h slot true key) ∨ (∃ f, i = .fuseBlow h f) ∨ (∃
      k n, i = .fwUpdateBegin h k n) ∨ (∃ k r, i = .fwUpdateCommit h k r)) ∧ h.sig = some b ∧ s.dev.state = .idle ∧ s.served
      h.transport = true ∧ (∀ op, i.packet = some (h, op) → s.transportOk h.transport op = true)) :=
  ⟨⟨wOwn, hG, ⟨0, 1, 5, 0, true⟩, .ownerKey hG 1 true 0, Or.inl ⟨_, _, rfl⟩, by decide +kernel, by decide +kernel, by decide +kernel,
     fun _ _ => rfl⟩,
   ⟨wOwn, { hG with sig := some (⟨4, 1, 5, 0, true⟩) }, ⟨4, 1, 5, 0, true⟩, .fuseBlow ({ hG with sig := some (⟨4, 1, 5, 0, true⟩) })
     0, Or.inr (Or.inl ⟨_, rfl⟩), by decide +kernel, by decide +kernel, by decide +kernel, fun _ _ => rfl⟩,
   ⟨wOwn, { hG with sig := some (⟨0, 1, 5, 1, true⟩) }, ⟨0, 1, 5, 1, true⟩, .fwUpdateBegin
     ({ hG with sig := some (⟨0, 1, 5, 1, true⟩) }) 0 0, Or.inr (Or.inr (Or.inl ⟨_, _, rfl⟩)), by decide +kernel, by decide +kernel,
     by decide +kernel, fun _ _ => rfl⟩,
   ⟨wOwn, { hG with sig := some (⟨0, 1, 5, 0, false⟩) }, ⟨0, 1, 5, 0, false⟩, .fwUpdateCommit
     ({ hG with sig := some (⟨0, 1, 5, 0, false⟩) }) 0 true, Or.inr (Or.inr (Or.inr ⟨_, _, rfl⟩)), by decide +kernel,
     by decide +kernel, by decide +kernel, fun _ _ => rfl⟩,
   ⟨st12, hG, ⟨0, 1, 5, 0, true⟩, .ownerKey hG 1 true 0, Or.inl ⟨_, _, rfl⟩, by decide +kernel, by decide +kernel, by decide +kernel,
     fun _ _ => rfl⟩⟩

theorem meets_OwnerKeysDebugLockAndJtag :
    (∃ (s : State) (h : Hdr) (slot : Nat), slot < 4 ∧ slot < s.owners.length ∧ s.ready h Op.ownerKey = true ∧ s.owners.any (fun o =>
      o.key.isSome) = true ∧ (s.owners.getD slot ⟨none, 0⟩).key = none) ∧
    (∃ (s : State) (h : Hdr) (slot : Nat), slot < 4 ∧ slot < s.owners.length ∧ s.ready h Op.ownerKey = true ∧ s.owners.any (fun o =>
      o.key.isSome) = true ∧ (s.owners.getD slot ⟨none, 0⟩).key ≠ none ∧ s.ownerMask ≠ 2 ^ slot) ∧
    (∃ (s : State) (h : Hdr) (slot : Nat) (b : SigBlock), slot < 4 ∧ slot < s.owners.length ∧ (∀ o ∈ s.owners, o.key = none) ∧ h.sig
      = some b ∧ b.keySlot = slot ∧ b.alg = 1 ∧ b.bind = 0 ∧ b.verifies = true ∧ (s.owners.getD slot ⟨none, 0⟩).counter < b.counter ∧
      s.dev.state = .idle ∧ s.served h.transport = true ∧ s.transportOk h.transport Op.ownerKey = true ∧ (∀ a ∈ s.host.async,
      ¬(a.transport = h.transport ∧ a.tag = h.tag)) ∧ s.warden.romOnly = false) ∧
    (∃ (s : State) (h : Hdr), s.ready h Op.fuseBlow = true) ∧
    (∃ (s : State) (a : Async), s.openOf Op.fuseBlow = [a] ∧ bit (s.rd Reg.secStat) 31 = false) ∧
    (∃ (s : State), s.powered = true) :=
  ⟨⟨wOwn, hG, 3, by decide +kernel, by decide +kernel, by decide +kernel, by decide +kernel, by decide +kernel⟩,
   ⟨wOwn, hG, 1, by decide +kernel, by decide +kernel, by decide +kernel, by decide +kernel, by decide +kernel, by decide +kernel⟩,
   ⟨w0, hG, 0, ⟨0, 1, 5, 0, true⟩, by decide +kernel, by decide +kernel, by decide +kernel, by decide +kernel, by decide +kernel,
     by decide +kernel, by decide +kernel, by decide +kernel, by decide +kernel, by decide +kernel, by decide +kernel,
     by decide +kernel, by decide +kernel, by decide +kernel⟩,
   ⟨wOwn, hG, by decide +kernel⟩,
   ⟨wAsy [asy Op.fuseBlow 1 0], asy Op.fuseBlow 1 0, by decide +kernel, by decide +kernel⟩,
   ⟨w0.wr Reg.secStat 0x80000000, by decide +kernel⟩⟩

def st13 : State := { wOwn with warden.update := some { kind := 2, copy := 1, len := 448, got := [(0, 32)], bytes := [] } }
def st14 : State := { wOwn with warden.update := some fwUp }
def st15 : State := { wAsy [asy Op.fwUpdateCommit 5 0] with warden.update := some fwUp }
theorem meets_FirmwareUpdateCycle :
    (∃ (s : State) (h : Hdr) (kind : Nat) (len : Nat), s.ready h Op.fwUpdateBegin = true ∧ (kind = 1 ∨ kind = 2) ∧ 448 ≤ len ∧ len ≤
      0x010000C0 ∧ len % 32 = 0 ∧ s.openOf Op.fwUpdateCommit = []) ∧
    (∃ (s : State) (h : Hdr) (u : FwUpdate) (off : Nat) (bs : List W8), s.ready h Op.fwUpdateChunk = true ∧ s.warden.update = some u
      ∧ s.openOf Op.fwUpdateCommit = [] ∧ off % 32 = 0 ∧ 32 ≤ bs.length ∧ bs.length ≤ 16352 ∧ off + bs.length ≤ u.len ∧ (∀ e ∈ u.got,
      off + bs.length ≤ e.1 ∨ e.2 ≤ off)) ∧
    (∃ (s : State) (h : Hdr), s.ready h Op.fwUpdateCommit = true ∧ s.warden.update.isSome = true ∧ s.openOf Op.fwUpdateCommit = []) ∧
    (∃ (s : State) (a : Async) (u : FwUpdate) (ok : Bool), s.openOf Op.fwUpdateCommit = [a] ∧ s.warden.update = some u ∧ s.fwPasses u
      (a.mask / 2) ok = true ∧ 1 ≤ a.mask / 2 ∧ 2 * (a.mask / 2 - 1) + u.copy < s.warden.copies.length) ∧
    (∃ (s : State) (a : Async) (u : FwUpdate) (ok : Bool), s.openOf Op.fwUpdateCommit = [a] ∧ s.warden.update = some u ∧ s.fwPasses u
      (a.mask / 2) ok = false) :=
  ⟨⟨wOwn, hG, 2, 448, by decide +kernel, by decide +kernel, by decide +kernel, by decide +kernel, by decide +kernel,
     by decide +kernel⟩,
   ⟨st13, hS, { kind := 2, copy := 1, len := 448, got := [(0, 32)], bytes := [] }, 32, List.replicate 416 1, by decide +kernel,
     by decide +kernel, by decide +kernel, by decide +kernel, by decide +kernel, by decide +kernel, by decide +kernel,
     by decide +kernel⟩,
   ⟨st14, hG, by decide +kernel, by decide +kernel, by decide +kernel⟩,
   ⟨st15, asy Op.fwUpdateCommit 5 0, fwUp, true, by decide +kernel, by decide +kernel, by decide +kernel, by decide +kernel,
     by decide +kernel⟩,
   ⟨st15, asy Op.fwUpdateCommit 5 0, fwUp, false, by decide +kernel, by decide +kernel, by decide +kernel⟩⟩

def st16 : State := { wAsy [asy Op.attest 3 0] with warden.romOnly := true }
theorem meets_AttestationLogAndSensors :
    (∃ (s : State) (h : Hdr), s.ready h Op.attest = true) ∧
    (∃ (s : State) (a : Async), s.host.async = [a] ∧ a.opcode = Op.attest ∧ s.warden.romOnly = false) ∧
    (∃ (s : State) (a : Async), s.host.async = [a] ∧ a.opcode = Op.attest ∧ s.warden.romOnly = true) ∧
    (∃ (s : State) (h : Hdr) (count : Nat), s.ready h Op.eventLogRead = true ∧ 1 ≤ count ∧ count ≤ 64) ∧
    (∃ (s : State) (h : Hdr) (count : Nat), s.ready h Op.eventLogRead = true ∧ (count = 0 ∨ 64 < count)) ∧
    (∃ (s : State) (h : Hdr) (code : Nat) (a : Nat) (b : Nat) (bs : _), s.ready h Op.sensorRead = true ∧ s.sensorBlock code a b =
      some bs) ∧
    (∃ (s : State) (h : Hdr) (code : Nat), s.ready h Op.sensorRead = true ∧ (code = 0 ∨ 0x60 ≤ code)) ∧
    (∃ (s : State) (code : Nat) (a : Nat) (b : Nat) (bs : List W8), s.powered = true ∧ s.sensorBlock code a b = some bs) :=
  ⟨⟨w0, hS, by decide +kernel⟩,
   ⟨wAsy [asy Op.attest 3 0], asy Op.attest 3 0, by decide +kernel, by decide +kernel, by decide +kernel⟩,
   ⟨st16, asy Op.attest 3 0, by decide +kernel, by decide +kernel, by decide +kernel⟩,
   ⟨w0, hS, 64, by decide +kernel, by decide +kernel, by decide +kernel⟩,
   ⟨w0, hS, 65, by decide +kernel, by decide +kernel⟩,
   ⟨w0, hS, 0x5F, 3, 4, [3, 0, 4, 0], by decide +kernel, by decide +kernel⟩,
   ⟨w0, hS, 0x60, by decide +kernel, by decide +kernel⟩,
   ⟨w0, 2, 0, 0, List.replicate 12 0, by decide +kernel, by decide +kernel⟩⟩

def st17 : State := { wTick w0 with tick.outPulses := [(10, 20)] }
theorem meets_TickGeneratorAndStrobe :
    (∃ (s : State) (h : Hdr) (source : Nat) (c : Nat), s.ready h Op.tickConfig = true ∧ source < 2 ∧ 8 ≤ c ∧ c ≤ 65534 ∧ c % 2 = 0 ∧
      (bit (s.rd Reg.twinCfg) 31 = true → 40 ≤ c)) ∧
    (∃ (s : State) (h : Hdr) (c : Nat), s.ready h Op.tickConfig = true ∧ c % 2 = 1) ∧
    (∃ (s : State) (h : Hdr), s.ready h Op.tickIdSet = true) ∧
    (∃ (s : State), s.hubOn = true ∧ s.tick.running = true ∧ s.fe.pulses = [] ∧ s.fe.forming = [] ∧ s.clk.outs = [] ∧
      (∀ g : Nat, g < 64 → bit (s.rd (Reg.fastCtl g)) 31 = false) ∧ s.bus.masterWaits = false ∧ (∀ k : Nat, k < 4 → s.ctxState k =
      Ctx.running → bit (s.rd (Reg.ctxrGapCfg k)) 31 = false ∧ (s.cx k).holds = [] ∧ (∀ i, s.imageOf k = some i → i.img.passes = 0))) ∧
    (∃ (s : State) (e : Nat × Nat) (r : List (Nat × Nat)), s.hubOn = true ∧ s.tick.outPulses = e :: r ∧ s.reach e.2 = true) :=
  ⟨⟨w0, hS, 1, 65534, by decide +kernel, by decide +kernel, by decide +kernel, by decide +kernel, by decide +kernel,
     by decide +kernel⟩,
   ⟨w0, hS, 9, by decide +kernel, by decide +kernel⟩,
   ⟨w0, hS, by decide +kernel⟩,
   ⟨w0, by decide +kernel, by decide +kernel, by decide +kernel, by decide +kernel, by decide +kernel, by decide +kernel,
     by decide +kernel, by decide +kernel⟩,
   ⟨st17, (10, 20), [], by decide +kernel, by decide +kernel, by decide +kernel⟩⟩

def st18 : State := { wTickIn with tick.expect := some 10, tick.good := 3 }
def st19 : State := { wTickIn with tick.expect := some 10, tick.everLocked := true }
def st20 : State := { wTickIn with tick.expect := some 10, tick.everLocked := true, tick.seen := [10] }
def st21 : State := { wTickIn with tick.good := 16 }
def st22 : State := { wTickIn.wr Reg.tickStatus 0x80000000 with tick.slipRun := 4 }
def st23 : State := { wTickIn.wr Reg.tickStatus 0x60000000 with tick.expect := some 10, tick.otherOff := 7 }
theorem meets_TickInKeepsLock :
    (∃ (s : State), s.hubOn = true ∧ bit (s.rd Reg.tickCfg) 31 = true ∧ s.tick.expect = none) ∧
    (∃ (s : State) (cyc : _) (e : _), s.hubOn = true ∧ bit (s.rd Reg.tickCfg) 31 = true ∧ s.tick.expect = some e ∧ s.tick.everLocked
      = false ∧ s.tod.tickFab / 2 + cyc = e) ∧
    (∃ (s : State) (cyc : _) (e : _), s.hubOn = true ∧ bit (s.rd Reg.tickCfg) 31 = true ∧ s.tick.expect = some e ∧ s.tick.everLocked
      = true ∧ s.tod.tickFab / 2 + cyc < e + s.half) ∧
    (∃ (s : State) (e : _), s.hubOn = true ∧ bit (s.rd Reg.tickCfg) 31 = true ∧ s.tick.expect = some e ∧ s.tick.everLocked = true ∧
      s.tick.seen = [e]) ∧
    (∃ (s : State) (e : _), s.hubOn = true ∧ bit (s.rd Reg.tickCfg) 31 = true ∧ s.tick.expect = some e ∧ s.tick.everLocked = true ∧
      s.tick.seen = []) ∧
    (∃ (s : State), s.hubOn = true ∧ bit (s.rd Reg.tickCfg) 31 = true ∧ bit (s.rd Reg.tickStatus) 31 = false ∧ 16 ≤ s.tick.good) ∧
    (∃ (s : State), s.hubOn = true ∧ bit (s.rd Reg.tickCfg) 31 = true ∧ bit (s.rd Reg.tickStatus) 31 = true ∧ 4 ≤ s.tick.slipRun) ∧
    (∃ (s : State), s.hubOn = true ∧ bit (s.rd Reg.tickCfg) 31 = true ∧ bit (s.rd Reg.tickStatus) 29 = true ∧ s.timedActive = false) :=
  ⟨⟨wTickIn, by decide +kernel, by decide +kernel, by decide +kernel⟩,
   ⟨st18, 10, 10, by decide +kernel, by decide +kernel, by decide +kernel, by decide +kernel, by decide +kernel⟩,
   ⟨st19, 10, 10, by decide +kernel, by decide +kernel, by decide +kernel, by decide +kernel, by decide +kernel⟩,
   ⟨st20, 10, by decide +kernel, by decide +kernel, by decide +kernel, by decide +kernel, by decide +kernel⟩,
   ⟨st19, 10, by decide +kernel, by decide +kernel, by decide +kernel, by decide +kernel, by decide +kernel⟩,
   ⟨st21, by decide +kernel, by decide +kernel, by decide +kernel, by decide +kernel⟩,
   ⟨st22, by decide +kernel, by decide +kernel, by decide +kernel, by decide +kernel⟩,
   ⟨st23, by decide +kernel, by decide +kernel, by decide +kernel, by decide +kernel⟩⟩

def st24 : State := { wDl.wr Reg.tickId 6 with clk.outs := [{ dOut with ctx := 0, latT := 3, deps := [(3, 2)] }] }
def st25 : State := { wAvs with clk.lag := [(3, 8)], clk.stretches := [(3, 99, 8)] }
def st26 : State := { wAvs with clk.lag := [(3, 9)], clk.stretches := [(3, 99, 9)] }
theorem meets_MonitorsJudgeCompletions :
    (∃ (s : State) (tile : Nat) (m : Nat) (n : W32) (c : Nat) (e : Nat), s.hubOn = true ∧ tile < 16 ∧ m < 64 ∧ c < s.cTick ∧ bit
      (s.rd (Reg.scCtrl tile m)) 31 = true ∧ s.inJudgement m n = true ∧ (s.judged tile m n).completed = false ∧ 0 ≤ s.sinceEvent n c
      ∧ e = 8 * (s.sinceEvent n c).toNat + s.lagAt tile c ∧ (s.judged tile m n).late = false ∧ e ≤ 8 * s.deadline tile m ∧ s.capped
      tile c = false) ∧
    (∃ (s : State) (tile : Nat) (m : Nat) (n : W32) (c : Nat) (e : Nat), s.hubOn = true ∧ tile < 16 ∧ m < 64 ∧ c < s.cTick ∧ bit
      (s.rd (Reg.scCtrl tile m)) 31 = true ∧ s.inJudgement m n = true ∧ (s.judged tile m n).completed = false ∧ 0 ≤ s.sinceEvent n c
      ∧ e = 8 * (s.sinceEvent n c).toNat + s.lagAt tile c ∧ 8 * s.deadline tile m < e ∧ (s.judged tile m n).faulted = false) ∧
    (∃ (s : State) (tile : Nat) (m : Nat) (n : W32), s.hubOn = true ∧ tile < 16 ∧ m < 64 ∧ bit (s.rd (Reg.scCtrl tile m)) 31 = true ∧
      s.inJudgement m n = true ∧ (s.judged tile m n).completed = false ∧ (s.deadline tile m : Int) + 1 - tickDiff s.tickId n *
      (s.cTick : Int) ≤ s.cTick ∧ s.deadline tile m < s.lastNeed (m / 16) tile m) ∧
    (∃ (s : State) (tile : Nat) (m : Nat) (n : W32), s.hubOn = true ∧ tile < 16 ∧ m < 64 ∧ bit (s.rd (Reg.scCtrl tile m)) 31 = true ∧
      s.inJudgement m n = true ∧ (s.judged tile m n).completed = false ∧ (s.deadline tile m : Int) + 1 - tickDiff s.tickId n *
      (s.cTick : Int) ≤ s.cTick ∧ s.lastNeed (m / 16) tile m ≤ s.deadline tile m ∧ (s.judged tile m n).faulted = false) ∧
    (∃ (s : State) (tile : Nat) (m : Nat), s.hubOn = true ∧ tile < 16 ∧ m < 64) ∧
    (∃ (s : State) (tile : Nat) (c : Nat) (e : Nat) (lag : Nat), s.hubOn = true ∧ tile < 16 ∧ c < s.cTick ∧ 1 ≤ e ∧ e ≤ 8 ∧ bit (s.rd
      (Reg.avsCfg tile)) 30 = true ∧ SMap.get 0 s.clk.capAt tile = 0 ∧ (∀ x ∈ s.clk.stretches, x.1 = tile → x.2.1 < c) ∧ lag =
      SMap.get 0 s.clk.lag tile ∧ lag + e ≤ 16) ∧
    (∃ (s : State) (tile : Nat) (c : Nat) (e : Nat) (lag : Nat), s.hubOn = true ∧ tile < 16 ∧ c < s.cTick ∧ 1 ≤ e ∧ e ≤ 8 ∧ bit (s.rd
      (Reg.avsCfg tile)) 30 = true ∧ SMap.get 0 s.clk.capAt tile = 0 ∧ (∀ x ∈ s.clk.stretches, x.1 = tile → x.2.1 < c) ∧ lag =
      SMap.get 0 s.clk.lag tile ∧ 16 < lag + e) :=
  ⟨⟨wDl, 3, 2, 5, 100, 800, by decide +kernel, by decide +kernel, by decide +kernel, by decide +kernel, by decide +kernel,
     by decide +kernel, by decide +kernel, by decide +kernel, by decide +kernel, by decide +kernel, by decide +kernel,
     by decide +kernel⟩,
   ⟨wDl, 3, 2, 5, 101, 808, by decide +kernel, by decide +kernel, by decide +kernel, by decide +kernel, by decide +kernel,
     by decide +kernel, by decide +kernel, by decide +kernel, by decide +kernel, by decide +kernel, by decide +kernel⟩,
   ⟨st24, 3, 2, 5, by decide +kernel, by decide +kernel, by decide +kernel, by decide +kernel, by decide +kernel, by decide +kernel,
     by decide +kernel, by decide +kernel⟩,
   ⟨wDl.wr Reg.tickId 6, 3, 2, 5, by decide +kernel, by decide +kernel, by decide +kernel, by decide +kernel, by decide +kernel,
     by decide +kernel, by decide +kernel, by decide +kernel, by decide +kernel⟩,
   ⟨wDl, 3, 2, by decide +kernel, by decide +kernel, by decide +kernel⟩,
   ⟨st25, 3, 100, 8, 8, by decide +kernel, by decide +kernel, by decide +kernel, by decide +kernel, by decide +kernel,
     by decide +kernel, by decide +kernel, by decide +kernel, by decide +kernel, by decide +kernel⟩,
   ⟨st26, 3, 100, 8, 9, by decide +kernel, by decide +kernel, by decide +kernel, by decide +kernel, by decide +kernel,
     by decide +kernel, by decide +kernel, by decide +kernel, by decide +kernel, by decide +kernel⟩⟩

def st27 : State := (wOut true false).setCtxState 1 Ctx.faulted
theorem meets_OutputsEmitOnTime :
    (∃ (s : State) (k : Nat) (o : Nat) (n : W32) (d : OutDecl) (x : OutVal), s.hubOn = true ∧ k < 4 ∧ o < 64 ∧ s.outDecl k o = some d
      ∧ d.ctx = k ∧ d.out = o ∧ s.tickId = n + BitVec.ofNat 32 (s.dueT d) ∧ (∀ e ∈ s.clk.emitted, ¬(e.k = k ∧ e.o = o ∧ e.event = n))
      ∧ s.lineDue d n = false ∧ (∀ g ∈ s.clk.groups, g.2 / 16 ≠ k) ∧ s.clk.vals.find? (fun v => v.k == k && v.o == o && v.event == n)
      = some x ∧ x.poison = false ∧ s.ctxState k ≠ Ctx.faulted ∧ n ∈ (s.cx k).entered ∧ n ∉ (s.cx k).gaps ∧ n ∉ (s.cx k).abandoned ∧
      (∀ g ∈ d.deps, (s.judged g.1 g.2 n).completed = true ∧ (s.judged g.1 g.2 n).late = false ∧ ∀ f ∈ s.clk.failed, ¬(f.1 = g.1 ∧
      f.2.1 = g.2 ∧ f.2.2.1 = n))) ∧
    (∃ (s : State) (k : Nat) (o : Nat) (n : W32) (d : OutDecl), s.hubOn = true ∧ k < 4 ∧ o < 64 ∧ s.outDecl k o = some d ∧ d.ctx = k
      ∧ d.out = o ∧ s.tickId = n + BitVec.ofNat 32 (s.dueT d) ∧ (∀ e ∈ s.clk.emitted, ¬(e.k = k ∧ e.o = o ∧ e.event = n)) ∧ s.lineDue
      d n = false ∧ (∀ g ∈ s.clk.groups, g.2 / 16 ≠ k) ∧ (∃ g ∈ d.deps, (s.judged g.1 g.2 n).late = true) ∧ (∀ v ∈ s.clk.vals,
      v.poison = false) ∧ s.ctxState k ≠ Ctx.faulted ∧ n ∈ (s.cx k).entered ∧ n ∉ (s.cx k).gaps ∧ n ∉ (s.cx k).abandoned) ∧
    (∃ (s : State) (k : Nat) (o : Nat) (n : W32) (d : OutDecl), s.hubOn = true ∧ k < 4 ∧ o < 64 ∧ s.outDecl k o = some d ∧ d.ctx = k
      ∧ d.out = o ∧ s.tickId = n + BitVec.ofNat 32 (s.dueT d) ∧ (∀ e ∈ s.clk.emitted, ¬(e.k = k ∧ e.o = o ∧ e.event = n)) ∧ s.lineDue
      d n = false ∧ (∀ g ∈ s.clk.groups, g.2 / 16 ≠ k) ∧ n ∈ (s.cx k).gaps) ∧
    (∃ (s : State) (k : Nat) (o : Nat) (n : W32) (d : OutDecl), s.hubOn = true ∧ k < 4 ∧ o < 64 ∧ s.outDecl k o = some d ∧ d.ctx = k
      ∧ d.out = o ∧ s.tickId = n + BitVec.ofNat 32 (s.dueT d) ∧ (∀ e ∈ s.clk.emitted, ¬(e.k = k ∧ e.o = o ∧ e.event = n)) ∧ s.lineDue
      d n = false ∧ (∀ g ∈ s.clk.groups, g.2 / 16 ≠ k) ∧ s.ctxState k = Ctx.faulted ∧ n ∉ (s.cx k).gaps ∧ n ∉ (s.cx k).abandoned) ∧
    (∃ (s : State) (k : Nat) (o : Nat), s.hubOn = true ∧ k < 4 ∧ o < 64 ∧ SMap.get 0 s.clk.winAt (64 * k + o) ≠ s.escWin k o + 1) ∧
    (∃ (s : State) (k : Nat) (o : Nat), s.hubOn = true ∧ k < 4 ∧ o < 64) :=
  ⟨⟨wOut false false, 1, 3, 4, dOut, ⟨1, 3, 4, 0x7F, false, []⟩, by decide +kernel, by decide +kernel, by decide +kernel,
     by decide +kernel, by decide +kernel, by decide +kernel, by decide +kernel, by decide +kernel, by decide +kernel,
     by decide +kernel, by decide +kernel, by decide +kernel, by decide +kernel, by decide +kernel, by decide +kernel,
     by decide +kernel, by decide +kernel⟩,
   ⟨wOut true false, 1, 3, 4, dOut, by decide +kernel, by decide +kernel, by decide +kernel, by decide +kernel, by decide +kernel,
     by decide +kernel, by decide +kernel, by decide +kernel, by decide +kernel, by decide +kernel, by decide +kernel,
     by decide +kernel, by decide +kernel, by decide +kernel, by decide +kernel, by decide +kernel⟩,
   ⟨wOut false true, 1, 3, 4, dOut, by decide +kernel, by decide +kernel, by decide +kernel, by decide +kernel, by decide +kernel,
     by decide +kernel, by decide +kernel, by decide +kernel, by decide +kernel, by decide +kernel, by decide +kernel⟩,
   ⟨st27, 1, 3, 4, dOut, by decide +kernel, by decide +kernel, by decide +kernel, by decide +kernel, by decide +kernel,
     by decide +kernel, by decide +kernel, by decide +kernel, by decide +kernel, by decide +kernel, by decide +kernel,
     by decide +kernel, by decide +kernel⟩,
   ⟨wOut false false, 1, 3, by decide +kernel, by decide +kernel, by decide +kernel, by decide +kernel⟩,
   ⟨wOut false false, 1, 3, by decide +kernel, by decide +kernel, by decide +kernel⟩⟩

def st28 : State := { w0 with dev.state := .halted }
theorem meets_RunControlCommandsAreAccepted :
    (∃ (s : State) (h : Hdr) (mask : Nat) (ks : List Nat), ks = s.chainOf (mask % 16) ∧ mask % 16 ≠ 0 ∧ s.tickLocked = true ∧ (∀ e ∈
      s.link.classT, e.1 ∈ ks → s.grpReady e.2 = true) ∧ s.ready h Op.arm = true ∧ (∀ k ∈ ks, s.ctxState k = Ctx.loaded) ∧
      (s.twinState = 4 ∨ ∀ k ∈ ks, (s.cx k).twin = false)) ∧
    (∃ (s : State) (h : Hdr) (mask : Nat) (ks : List Nat) (d : _), ks = s.chainOf (mask % 16) ∧ mask % 16 ≠ 0 ∧ s.tickLocked = true ∧
      (∀ e ∈ s.link.classT, e.1 ∈ ks → s.grpReady e.2 = true) ∧ s.ready h Op.start = true ∧ (∀ k ∈ ks, s.ctxState k = Ctx.armed ∨
      s.ctxState k = Ctx.retired) ∧ s.strobeOk d = true ∧ (∀ k ∈ ks, s.shedBlocked k = false)) ∧
    (∃ (s : State) (h : Hdr) (mask : Nat) (ks : List Nat) (d : _), ks = s.chainOf (mask % 16) ∧ mask % 16 ≠ 0 ∧ s.ready h Op.drain =
      true ∧ (∀ k ∈ ks, s.ctxState k = Ctx.running) ∧ s.strobeOk d = true ∧ (∀ k ∈ ks, (s.cx k).drainAt = none) ∧ s.ctx.length = 4) ∧
    (∃ (s : State) (h : Hdr) (mask : Nat) (ks : List Nat), ks = s.chainOf (mask % 16) ∧ mask % 16 ≠ 0 ∧ s.ready h Op.stop = true ∧ (∀
      k ∈ ks, s.stoppable k = true)) ∧
    (∃ (s : State) (h : Hdr) (mask : Nat) (ks : List Nat) (k : _), ks = s.chainOf (mask % 16) ∧ mask % 16 ≠ 0 ∧ s.ready h Op.arm =
      true ∧ ks.find? (fun j => s.ctxState j != Ctx.loaded) = some k) ∧
    (∃ (s : State) (h : Hdr) (mask : Nat) (ks : List Nat), ks = s.chainOf (mask % 16) ∧ mask % 16 = 0 ∧ s.ready h Op.stop = true) ∧
    (∃ (s : State) (h : Hdr) (mask : Nat) (ks : List Nat) (mode : _), ks = s.chainOf (mask % 16) ∧ s.ready h Op.resume = true ∧ (∀ a
      ∈ s.host.async, a.opcode ≠ Op.resume) ∧ (if mode % 2 = 0 then s.dev.state = .halted else bit (s.rd Reg.pwrStat) 17 = true)) :=
  ⟨⟨wC 1 1, hS, 2, _, rfl, by decide +kernel, by decide +kernel, by decide +kernel, by decide +kernel, by decide +kernel,
     by decide +kernel⟩,
   ⟨wC 1 2, hS, 2, _, 0, rfl, by decide +kernel, by decide +kernel, by decide +kernel, by decide +kernel, by decide +kernel,
     by decide +kernel, by decide +kernel⟩,
   ⟨wC 1 3, hS, 2, _, 0, rfl, by decide +kernel, by decide +kernel, by decide +kernel, by decide +kernel, by decide +kernel,
     by decide +kernel⟩,
   ⟨wC 1 3, hS, 2, _, rfl, by decide +kernel, by decide +kernel, by decide +kernel⟩,
   ⟨wC 1 2, hS, 2, _, 1, rfl, by decide +kernel, by decide +kernel, by decide +kernel⟩,
   ⟨wC 1 3, hS, 16, _, rfl, by decide +kernel, by decide +kernel⟩,
   ⟨st28, hS, 2, _, 0, rfl, by decide +kernel, by decide +kernel, by decide +kernel⟩⟩

def st29 : State := { wC 1 1 with host.async := [⟨.spi, 1, Op.arm, 2, 0⟩] }
def st30 : State :=
  { wC 1 2 with host.async := [⟨.spi, 1, Op.start, 2, 0⟩], ctx := [CtxRun.none', { CtxRun.none' with cores := [(2, 5)] }, CtxRun.none', CtxRun.none'] }
theorem meets_ArmAndStartTakeEffect :
    (∃ (s : State) (a : Async), s.hubOn = true ∧ s.dev.state ≠ .halted ∧ s.calm ∧ s.host.async = [a] ∧ tickReached s.tickId a.tick =
      true ∧ a.opcode = Op.arm ∧ bitsOf a.mask 4 ≠ [] ∧ (∀ k ∈ bitsOf a.mask 4, s.ctxState k = Ctx.loaded)) ∧
    (∃ (s : State) (a : Async) (k : _), s.hubOn = true ∧ s.dev.state ≠ .halted ∧ s.calm ∧ s.host.async = [a] ∧ tickReached s.tickId
      a.tick = true ∧ k < 4 ∧ a.opcode = Op.start ∧ a.mask = 2 ^ k ∧ (s.ctxState k = Ctx.armed ∨ s.ctxState k = Ctx.retired) ∧
      s.shedBlocked k = false ∧ s.ctx.length = 4 ∧ (∀ e ∈ (s.cx k).cores, e.1 < 16 ∧ s.phys e.1 e.2 < 544) ∧ (∀ g ∈ s.clk.groups, g.1
      < 16 ∧ g.2 < 64) ∧ bit (s.rd (Reg.ctxrGapCfg k)) 31 = false ∧ (s.cx k).holds = [] ∧ (∀ i, s.imageOf k = some i → i.img.passes =
      0)) :=
  ⟨⟨st29, ⟨.spi, 1, Op.arm, 2, 0⟩, by decide +kernel, by decide +kernel, ⟨by decide +kernel, by decide +kernel, by decide +kernel⟩,
     by decide +kernel, by decide +kernel, by decide +kernel, by decide +kernel, by decide +kernel⟩,
   ⟨st30, ⟨.spi, 1, Op.start, 2, 0⟩, 1, by decide +kernel, by decide +kernel, ⟨by decide +kernel, by decide +kernel,
     by decide +kernel⟩, by decide +kernel, by decide +kernel, by decide +kernel, by decide +kernel, by decide +kernel,
     by decide +kernel, by decide +kernel, by decide +kernel, by decide +kernel, by decide +kernel, by decide +kernel,
     by decide +kernel, by decide +kernel⟩⟩

def st31 : State := wCr 3 (fun c => { c with faultAt := some 0 })
def st32 : State := (wCr 3 (fun c => { c with drainAt := some 0 })).wr (Reg.ctxrState 3)
  (BitVec.ofNat 32 (3 * 2 ^ 29 + 2 ^ 28 + 5 * 2 ^ 16))
def st33 : State := wCr 5 (fun c => { c with drainAt := some 0 })
def st34 : State := wCr 5 (fun c => { c with retireAt := some 0 })
def st35 : State := { wCr 4 (fun c => { c with retireAt := some 0 }) with host.async := [asy Op.drain 8 0] }
def st36 : State := { wCr 3 (fun c => { c with entered := [9] }) with host.async := [asy Op.stop 8 0] }
def st37 : State := { wCr 2 (fun c => c) with host.async := [asy Op.stop 12 0] }
def st38 : State := { wCr 6 (fun c => c) with host.async := [asy Op.stop 8 0] }
def st39 : State := (wCr 4 (fun c => { c with drainAt := some 0xFFFFFFFF })).wr (Reg.qstat 15 542 3 7) 0
def st40 : State := ((wCr 4 (fun c => { c with drainAt := some 0 })).wr (Reg.ctxrDrainTo 3) 4).wr Reg.tickId 16
theorem meets_DrainStopAndRetire :
    (∃ (s : State), s.ordinary ∧ s.dueAsync Op.stop = []) ∧
    (∃ (s : State), s.ordinary ∧ s.dueAsync Op.stop = []) ∧
    (∃ (s : State), s.ordinary ∧ s.dueAsync Op.stop = []) ∧
    (∃ (s : State), s.ordinary ∧ s.dueAsync Op.stop = [] ∧ s.inPlace ∧ (∀ j : Nat, j < 4 → s.due (s.cx j).unloadAt = false)) ∧
    (∃ (s : State), s.ordinary ∧ s.dueAsync Op.stop = [] ∧ s.inPlace ∧ (∀ j : Nat, j < 4 → s.due (s.cx j).unloadAt = false)) :=
  ⟨⟨st31, (by unfold State.ordinary; decide +kernel), by decide +kernel⟩,
   ⟨st32, (by unfold State.ordinary; decide +kernel), by decide +kernel⟩,
   ⟨st33, (by unfold State.ordinary; decide +kernel), by decide +kernel⟩,
   ⟨st34, (by unfold State.ordinary; decide +kernel), by decide +kernel, (by unfold State.inPlace; decide +kernel),
     by decide +kernel⟩,
   ⟨st35, (by unfold State.ordinary; decide +kernel), by decide +kernel, (by unfold State.inPlace; decide +kernel),
     by decide +kernel⟩⟩

theorem meets_DrainStopAndRetire_2 :
    (∃ (s : State) (a : Async), s.ordinary ∧ s.inPlace ∧ s.dueAsync Op.stop = [a] ∧ (bitsOf a.mask 4).any s.stoppable = true) ∧
    (∃ (s : State) (a : Async), s.ordinary ∧ s.inPlace ∧ s.dueAsync Op.stop = [a] ∧ (bitsOf a.mask 4).any s.stoppable = true) ∧
    (∃ (s : State) (a : Async), s.ordinary ∧ s.inPlace ∧ s.dueAsync Op.stop = [a] ∧ (bitsOf a.mask 4).any s.stoppable = false) ∧
    (∃ (s : State) (k : Nat), s.hubOn = true ∧ s.ctx.length = 4 ∧ k < 4 ∧ s.inPlace ∧ (∀ j ∈ s.chainOf (2 ^ k), s.ctxState j =
      Ctx.draining ∧ s.ctxTimed j = false ∧ s.surveyIdle j = true ∧ (s.cx j).drainAt.any (fun d => decide (1 ≤ tickDiff s.tickId d))
      = true)) ∧
    (∃ (s : State) (k : Nat) (d : _), s.hubOn = true ∧ s.ctx.length = 4 ∧ k < 4 ∧ s.ctxTimed k = false ∧ s.ctxState k = Ctx.draining
      ∧ (s.cx k).drainAt = some d ∧ s.tickId + 1 ≠ d ∧ (s.cx k).timedOut = false ∧ 2 ^ s.rdF (Reg.ctxrDrainTo k) 0 5 ≤ (s.tickId -
      d).toNat) :=
  ⟨⟨st36, asy Op.stop 8 0, (by unfold State.ordinary; decide +kernel), (by unfold State.inPlace; decide +kernel), by decide +kernel,
     by decide +kernel⟩,
   ⟨st37, asy Op.stop 12 0, (by unfold State.ordinary; decide +kernel), (by unfold State.inPlace; decide +kernel), by decide +kernel,
     by decide +kernel⟩,
   ⟨st38, asy Op.stop 8 0, (by unfold State.ordinary; decide +kernel), (by unfold State.inPlace; decide +kernel), by decide +kernel,
     by decide +kernel⟩,
   ⟨st39, 3, by decide +kernel, by decide +kernel, by decide +kernel, (by unfold State.inPlace; decide +kernel), by decide +kernel⟩,
   ⟨st40, 3, 0, by decide +kernel, by decide +kernel, by decide +kernel, by decide +kernel, by decide +kernel, by decide +kernel,
     by decide +kernel, by decide +kernel, by decide +kernel⟩⟩

def st41 : State :=
  { (wCr 3 (fun c => c)).wr (Reg.ctxrState 3) (BitVec.ofNat 32 (3 * 2 ^ 29 + 2 ^ 28)) with clk.escalateAt := some 0 }
def st42 : State := { (wT 1 3).wr Reg.pwrStat 0x04000000 with pwr.strongAt := some 0 }
def st43 : State :=
  { w0.mapCx [2] (fun c => { c with heldOut := 1 }) with dev.state := .halted, host.async := [⟨.spi, 1, Op.resume, 0, 0⟩], clk.outs := [dOut] }
theorem meets_HaltedSheddingAndResume :
    (∃ (s : State), s.hubOn = true ∧ s.openOf Op.drain = [] ∧ s.ctx.length = 4 ∧ s.inPlace ∧ s.dev.state ≠ .halted ∧ s.pwr.strongAt =
      none ∧ s.due s.clk.escalateAt = true) ∧
    (∃ (s : State), s.hubOn = true ∧ s.openOf Op.drain = [] ∧ s.ctx.length = 4 ∧ s.inPlace ∧ s.shedStage = 4 ∧ s.due s.pwr.strongAt =
      true) ∧
    (∃ (s : State) (a : Async), s.dev.state = .halted ∧ s.calm ∧ s.host.async = [a] ∧ a.opcode = Op.resume ∧ a.mask = 0 ∧ tickReached
      s.tickId a.tick = true ∧ s.ctx.length = 4 ∧ (∀ d ∈ s.clk.outs, d.ctx < 4 ∧ d.out < 64)) :=
  ⟨⟨st41, by decide +kernel, by decide +kernel, by decide +kernel, (by unfold State.inPlace; decide +kernel), by decide +kernel,
     by decide +kernel, by decide +kernel⟩,
   ⟨st42, by decide +kernel, by decide +kernel, by decide +kernel, (by unfold State.inPlace; decide +kernel), by decide +kernel,
     by decide +kernel⟩,
   ⟨st43, ⟨.spi, 1, Op.resume, 0, 0⟩, by decide +kernel, ⟨by decide +kernel, by decide +kernel, by decide +kernel⟩,
     by decide +kernel, by decide +kernel, by decide +kernel, by decide +kernel, by decide +kernel, by decide +kernel⟩⟩

theorem meets_LoadingStagesAnImage :
    (∃ (s : State) (h : Hdr) (len : _) (base : _), s.committing = false ∧ s.ready h Op.loadBegin = true ∧ fitAt s.heldImages len =
      some base) ∧
    (∃ (s : State) (h : Hdr) (g : Staged) (off : _) (bs : List W8), s.committing = false ∧ s.loader.staged = some g ∧ s.ready h
      Op.loadChunk = true ∧ off % 32 = 0 ∧ 32 ≤ bs.length ∧ bs.length ≤ 16352 ∧ off + bs.length ≤ g.len ∧ g.got.any (fun e =>
      rangesMeet (e.1, e.2 - e.1) (off, bs.length)) = false) ∧
    (∃ (s : State) (h : Hdr) (g : Staged) (ents : List RelocEnt) (x : _), s.committing = false ∧ s.loader.staged = some g ∧ s.ready h
      Op.relocate = true ∧ 1 ≤ ents.length ∧ ents.length ≤ 1024 ∧ s.relocAll g ents = some x) :=
  ⟨⟨wOwn, hG, 480, 0, by decide +kernel, by decide +kernel, by decide +kernel⟩,
   ⟨wEmptyStg, hS, { stg false with got := [] }, 448, List.replicate 32 0xA5, by decide +kernel, by decide +kernel,
     by decide +kernel, by decide +kernel, by decide +kernel, by decide +kernel, by decide +kernel, by decide +kernel⟩,
   ⟨wStg false, hS, stg false, [⟨false, 0, 0x10000000100⟩], { stg false with bases := [(0, 0x10000000100)] }, by decide +kernel,
     by decide +kernel, by decide +kernel, by decide +kernel, by decide +kernel, by decide +kernel⟩⟩

theorem meets_LoadingStagesAnImage_2 :
    (∃ (s : State) (h : Hdr) (g : Staged) (ents : List RelocEnt), s.committing = false ∧ s.loader.staged = some g ∧ s.ready h
      Op.relocate = true ∧ 1 ≤ ents.length ∧ ents.length ≤ 1024 ∧ s.relocAll g ents = none) ∧
    (∃ (s : State) (h : Hdr) (g : Staged) (pid : Nat) (v : W64), s.committing = false ∧ s.loader.staged = some g ∧ s.ready h Op.patch
      = true ∧ s.patchRej g.base g.img g.bases pid v.toNat = none) ∧
    (∃ (s : State) (h : Hdr) (k : _) (i : _), s.committing = false ∧ s.ready h Op.patch = true ∧ s.imageOf k = some i ∧ s.atRest
      i.mask = false) :=
  ⟨⟨wStg false, hS, stg false, [⟨false, 1, 0⟩], by decide +kernel, by decide +kernel, by decide +kernel, by decide +kernel,
     by decide +kernel, by decide +kernel⟩,
   ⟨wStg false, hS, stg false, 9, 100, by decide +kernel, by decide +kernel, by decide +kernel, by decide +kernel⟩,
   ⟨wImg 3, hS, 1, imgI, by decide +kernel, by decide +kernel, by decide +kernel, by decide +kernel⟩⟩

def st44 : State := (wImg 1).mapCx [1] (fun c => { c with heldOut := 1 })
def st45 : State := { w0 with loader.staged := some (stg true), host.async := [aCom] }
def st46 : State := { wStg true with host.async := [aCom] }
def st47 : State := { wStg true with host.async := [aCom], loader.staged := some { stg true with validAt := some 0 } }
def st48 : State := (wImg 3).mapCx [1] (fun c => { c with passEvents := 1 })
def st49 : State := (wImg Ctx.retired).mapCx [1] (fun c => { c with passEnd := true, shadow := some 1 })
def st50 : State := (wImg Ctx.retired).mapCx [1] (fun c => { c with passEnd := true })
def st51 : State := (wImg Ctx.loaded).mapCx [1] (fun c => { c with passStart := some (0, 1), cores := [(15, 511)] })
theorem meets_CommitAndUnload :
    (∃ (s : State) (h : Hdr) (g : Staged), s.loader.staged = some g ∧ g.committing = false ∧ s.ready h Op.commit = true) ∧
    (∃ (s : State) (h : Hdr) (g : Staged), s.loader.staged = some g ∧ g.committing = false ∧ s.ready h Op.unload = true) ∧
    (∃ (s : State) (h : Hdr) (m : Nat), s.ready h Op.unload = true ∧ m % 16 ≠ 0 ∧ s.committing = false ∧ s.atRest (m % 16) = true ∧
      s.atRest (maskOf (s.imagesOf (m % 16))) = true ∧ s.ctx.length = 4) :=
  ⟨⟨wStg false, hG, stg false, by decide +kernel, by decide +kernel, by decide +kernel⟩,
   ⟨wStg false, hS, stg false, by decide +kernel, by decide +kernel, by decide +kernel⟩,
   ⟨st44, hS, 2, by decide +kernel, by decide +kernel, by decide +kernel, by decide +kernel, by decide +kernel, by decide +kernel⟩⟩

theorem meets_CommitAndUnload_2 :
    (∃ (s : State) (a : Async) (g : Staged) (r : _), s.hubOn = true ∧ s.loader.staged = some g ∧ g.committing = true ∧ g.validAt =
      none ∧ (∀ k ∈ bitsOf (s.imgMask g.base) 4, (s.cx k).unloadAt = none) ∧ s.pwr.asleep = 0 ∧ s.host.async = [a] ∧ a.opcode =
      Op.commit ∧ s.commitChecks g = some r ∧ 0x0901 ≤ r.status ∧ r.status ≤ 0x090E) ∧
    (∃ (s : State) (a : Async) (g : Staged), s.hubOn = true ∧ s.loader.staged = some g ∧ g.committing = true ∧ g.validAt = none ∧ (∀
      k ∈ bitsOf (s.imgMask g.base) 4, (s.cx k).unloadAt = none) ∧ s.pwr.asleep = 0 ∧ s.host.async = [a] ∧ a.opcode = Op.commit ∧
      s.commitChecks g = none) ∧
    (∃ (s : State) (a : Async) (g : Staged), s.hubOn = true ∧ s.loader.staged = some g ∧ g.validAt.any
      (fun n => decide (n ≤ s.tick.strobes)) = true ∧ s.host.async = [a] ∧ a.opcode = Op.commit ∧ s.ctx.length = 4 ∧
      (∀ c ∈ g.img.ctxs, c.ctx < 4) ∧ (∀ b ∈ g.img.blobs, b.tile < 16 ∧ b.row < 32 ∧ b.col < 16) ∧
      (∀ x ∈ s.clk.groups ++ g.img.groups.map (fun x => (x.tile, 16 * x.ctx + x.group)), x.1 < 16 ∧ x.2 < 64)) :=
  ⟨⟨st45, aCom, stg true, lrej Status.imgFormat 2 0 0, by decide +kernel, by decide +kernel, by decide +kernel, by decide +kernel,
     by decide +kernel, by decide +kernel, by decide +kernel, by decide +kernel, by decide +kernel, by decide +kernel,
     by decide +kernel⟩,
   ⟨st46, aCom, stg true, by decide +kernel, by decide +kernel, by decide +kernel, by decide +kernel, by decide +kernel,
     by decide +kernel, by decide +kernel, by decide +kernel, by decide +kernel⟩,
   ⟨st47, aCom, { stg true with validAt := some 0 }, by decide +kernel, by decide +kernel, by decide +kernel, by decide +kernel,
     by decide +kernel, by decide +kernel, by decide +kernel, by decide +kernel, by decide +kernel⟩⟩

theorem meets_CommitAndUnload_3 :
    (∃ (s : State) (h : Hdr) (k : Nat) (i : Image), s.ready h Op.loadInfo = true ∧ k < 4 ∧ s.imageOf k = some i) ∧
    (∃ (s : State) (k : Nat) (p : Nat) (j : Nat) (i : Image), s.hubOn = true ∧ k < 4 ∧ s.ctx.length = 4 ∧ s.imageOf k = some i ∧
      i.img.passes ≠ 0 ∧ s.ctxTimed k = false ∧ p = (s.passNow i.mask + 1) % i.img.passes ∧ j = passSlot i.img p k ∧ s.ctxState k =
      Ctx.running ∧ j = k ∧ 1 ≤ (s.cx k).passEvents ∧ s.surveyIdle k = true ∧ (s.cx k).drainAt = none) ∧
    (∃ (s : State) (k : Nat) (p : Nat) (j : Nat) (i : Image), s.hubOn = true ∧ k < 4 ∧ s.ctx.length = 4 ∧ s.imageOf k = some i ∧
      i.img.passes ≠ 0 ∧ s.ctxTimed k = false ∧ p = (s.passNow i.mask + 1) % i.img.passes ∧ j = passSlot i.img p k ∧ s.ctxState k =
      Ctx.retired ∧ (s.cx k).passEnd = true ∧ (∀ b ∈ i.img.blobs, b.ctx < 4) ∧ (s.cx j).shadow = some p) :=
  ⟨⟨wImg 1, hS, 1, imgI, by decide +kernel, by decide +kernel, by decide +kernel⟩,
   ⟨st48, 1, 1, 1, imgI, by decide +kernel, by decide +kernel, by decide +kernel, by decide +kernel, by decide +kernel,
     by decide +kernel, by decide +kernel, by decide +kernel, by decide +kernel, by decide +kernel, by decide +kernel,
     by decide +kernel, by decide +kernel⟩,
   ⟨st49, 1, 1, 1, imgI, by decide +kernel, by decide +kernel, by decide +kernel, by decide +kernel, by decide +kernel,
     by decide +kernel, by decide +kernel, by decide +kernel, by decide +kernel, by decide +kernel, by decide +kernel,
     by decide +kernel⟩⟩

theorem meets_CommitAndUnload_4 :
    (∃ (s : State) (k : Nat) (p : Nat) (j : Nat) (i : Image), s.hubOn = true ∧ k < 4 ∧ s.ctx.length = 4 ∧ s.imageOf k = some i ∧
      i.img.passes ≠ 0 ∧ s.ctxTimed k = false ∧ p = (s.passNow i.mask + 1) % i.img.passes ∧ j = passSlot i.img p k ∧ s.ctxState k =
      Ctx.retired ∧ (s.cx k).passEnd = true ∧ (∀ b ∈ i.img.blobs, b.ctx < 4) ∧ (s.cx j).shadow ≠ some p ∧ s.loaderAsleep = false) ∧
    (∃ (s : State) (k : Nat) (p : Nat) (j : Nat) (i : Image) (d : W32) (q : Nat), s.hubOn = true ∧ k < 4 ∧ s.ctx.length = 4 ∧
      s.imageOf k = some i ∧ i.img.passes ≠ 0 ∧ s.ctxTimed k = false ∧ p = (s.passNow i.mask + 1) % i.img.passes ∧ j = passSlot i.img
      p k ∧ s.calm ∧ s.dev.state ≠ .halted ∧ s.inPlace ∧ s.host.async = [] ∧ (s.cx k).passStart = some (d, q) ∧ (∀ x : Nat, x < 4 → x
      ≠ k → (s.cx x).passStart = none) ∧ tickReached s.tickId d = true ∧ (s.ctxState k = Ctx.loaded ∨ s.ctxState k = Ctx.retired)) :=
  ⟨⟨st50, 1, 1, 1, imgI, by decide +kernel, by decide +kernel, by decide +kernel, by decide +kernel, by decide +kernel,
     by decide +kernel, by decide +kernel, by decide +kernel, by decide +kernel, by decide +kernel, by decide +kernel,
     by decide +kernel, by decide +kernel⟩,
   ⟨st51, 1, 1, 1, imgI, 0, 1, by decide +kernel, by decide +kernel, by decide +kernel, by decide +kernel, by decide +kernel,
     by decide +kernel, by decide +kernel, by decide +kernel, ⟨by decide +kernel, by decide +kernel, by decide +kernel⟩,
     by decide +kernel, (by unfold State.inPlace; decide +kernel), by decide +kernel, by decide +kernel, by decide +kernel,
     by decide +kernel, by decide +kernel⟩⟩

def st52 : State := wLn 143 1 0 1 2 0 3 1 0 { li with good := 63 }
def st53 : State := wLn 143 1 0 1 2 2 6 7 0 { li with backoff := true }
def st54 : State := (wLn 143 1 0 5 2 2 6 8 0 li).wr (Reg.laneCfg 143) 0x06000000
def st55 : State := wLn 143 1 0 2 2 0 6 8 0 { li with hunting := true }
theorem meets_LanesTrain :
    (∃ (s : State) (n : Nat), n < 144 ∧ s.calwiza n = true ∧ s.rxState n = Rx.training ∧ (s.lane n).backoff = false ∧ s.trainStep n =
      1) ∧
    (∃ (s : State) (n : Nat), n < 144 ∧ s.calwiza n = true ∧ s.rxState n = Rx.training ∧ (s.lane n).backoff = false ∧ s.trainStep n =
      2) ∧
    (∃ (s : State) (n : Nat) (w : W64), n < 144 ∧ s.calwiza n = true ∧ s.rxState n = Rx.training ∧ (s.lane n).backoff = false ∧
      w.toNat / 2 ^ 12 % 8 = 0 ∧ s.decodes n 2 w = true ∧ (s.fecBlock n).1 = false ∧ (s.lane n).bad < 24 ∧ s.trainStep n = 3 ∧
      s.lockState n = 0 ∧ (s.lane n).good = 63) ∧
    (∃ (s : State) (n : Nat) (w : W64), n < 144 ∧ s.calwiza n = true ∧ s.rxState n = Rx.training ∧ (s.lane n).backoff = false ∧
      w.toNat / 2 ^ 12 % 8 = 0 ∧ s.decodes n 2 w = true ∧ (s.fecBlock n).1 = false ∧ (s.lane n).bad < 24 ∧ s.trainStep n = 4 ∧ bit
      (s.rd (Reg.laneCfg n)) 24 = false) ∧
    (∃ (s : State) (n : Nat) (w : W64) (sat : Bool), n < 144 ∧ s.calwiza n = true ∧ s.rxState n = Rx.training ∧ (s.lane n).backoff =
      false ∧ w.toNat / 2 ^ 12 % 8 = 0 ∧ s.decodes n 2 w = true ∧ (s.fecBlock n).1 = false ∧ (s.lane n).bad < 24 ∧ s.trainStep n = 5
      ∧ sat = true) ∧
    (∃ (s : State) (n : Nat) (w : W64), n < 144 ∧ s.calwiza n = true ∧ s.rxState n = Rx.training ∧ (s.lane n).backoff = false ∧
      w.toNat / 2 ^ 12 % 8 = 0 ∧ s.decodes n 2 w = true ∧ (s.fecBlock n).1 = false ∧ (s.lane n).bad < 24 ∧ s.trainStep n = 6 ∧
      w.toNat / 2 ^ 38 % 2 = 1) ∧
    (∃ (s : State) (n : Nat), n < 144 ∧ s.calwiza n = true ∧ s.rxState n = Rx.training ∧ (s.lane n).backoff = false ∧ s.rdF
      (Reg.laneState n) 16 4 < 8) :=
  ⟨⟨wLn 143 1 0 1 2 0 1 1 0 li, 143, by decide +kernel, by decide +kernel, by decide +kernel, by decide +kernel, by decide +kernel⟩,
   ⟨wLn 143 1 0 1 2 0 2 1 0 li, 143, by decide +kernel, by decide +kernel, by decide +kernel, by decide +kernel, by decide +kernel⟩,
   ⟨st52, 143, 0, by decide +kernel, by decide +kernel, by decide +kernel, by decide +kernel, by decide +kernel, by decide +kernel,
     by decide +kernel, by decide +kernel, by decide +kernel, by decide +kernel, by decide +kernel⟩,
   ⟨wLn 143 1 0 1 2 2 4 1 0 li, 143, 0xC8140000, by decide +kernel, by decide +kernel, by decide +kernel, by decide +kernel,
     by decide +kernel, by decide +kernel, by decide +kernel, by decide +kernel, by decide +kernel, by decide +kernel⟩,
   ⟨wLn 143 1 0 1 2 2 5 1 0 li, 143, 0, true, by decide +kernel, by decide +kernel, by decide +kernel, by decide +kernel,
     by decide +kernel, by decide +kernel, by decide +kernel, by decide +kernel, by decide +kernel, by decide +kernel⟩,
   ⟨wLn 143 1 0 1 2 2 6 1 0 li, 143, 0x4000000000, by decide +kernel, by decide +kernel, by decide +kernel, by decide +kernel,
     by decide +kernel, by decide +kernel, by decide +kernel, by decide +kernel, by decide +kernel, by decide +kernel⟩,
   ⟨wLn 143 1 0 1 2 2 6 7 0 li, 143, by decide +kernel, by decide +kernel, by decide +kernel, by decide +kernel, by decide +kernel⟩⟩

theorem meets_LanesTrain_2 :
    (∃ (s : State) (n : Nat), n < 144 ∧ s.calwiza n = true ∧ s.rxState n = Rx.training ∧ (s.lane n).backoff = false ∧ s.rdF
      (Reg.laneState n) 16 4 = 8 ∧ (s.lane n).downTold = false) ∧
    (∃ (s : State) (n : Nat), n < 144 ∧ s.inGroup n = false ∧ s.rxState n = Rx.training ∧ (s.lane n).backoff = true) ∧
    (∃ (s : State) (n : Nat), n < 144 ∧ s.inGroup n = false ∧ s.rxState n = Rx.down ∧ bit (s.rd (Reg.laneCfg n)) 25 = true) ∧
    (∃ (s : State) (n : Nat), n < 144 ∧ s.inGroup n = false ∧ s.calwiza n = true ∧ (s.lane n).hunting = true) ∧
    (∃ (s : State) (n : Nat) (h : Hdr), n < 144 ∧ s.inGroup n = false ∧ s.ready h Op.laneTrain = true ∧ s.calwiza n = true) ∧
    (∃ (s : State) (n : Nat) (h : Hdr) (q : Nat) (rate : Nat) (modes : List Nat), n < 144 ∧ s.ready h Op.laneConfig = true ∧ q < 36 ∧
      rate ≤ 5 ∧ modes.length = 4 ∧ modes.all (modeOk rate) = true ∧ (∀ i : Nat, i < 4 → s.laneInUse (4 * q + i) = false ∧ s.inGroup
      (4 * q + i) = false)) :=
  ⟨⟨wLn 143 1 0 1 2 2 6 8 0 li, 143, by decide +kernel, by decide +kernel, by decide +kernel, by decide +kernel, by decide +kernel,
     by decide +kernel⟩,
   ⟨st53, 143, by decide +kernel, by decide +kernel, by decide +kernel, by decide +kernel⟩,
   ⟨st54, 143, by decide +kernel, by decide +kernel, by decide +kernel, by decide +kernel⟩,
   ⟨st55, 143, by decide +kernel, by decide +kernel, by decide +kernel, by decide +kernel⟩,
   ⟨wLn 143 1 0 0 0 0 0 0 0 li, 143, hS, by decide +kernel, by decide +kernel, by decide +kernel, by decide +kernel⟩,
   ⟨w0, 143, hS, 35, 5, [0, 1, 1, 4], by decide +kernel, by decide +kernel, by decide +kernel, by decide +kernel, by decide +kernel,
     by decide +kernel, by decide +kernel⟩⟩

def st56 : State := wLn 5 1 0 2 2 2 0 0 0 { li with win := 254 }
def st57 : State := wGrp (wLn 5 1 0 3 2 2 0 0 1 li) 4 1
def st58 : State := wLn 5 1 0 2 2 2 0 0 0 { li with bad := 23 }
def st59 : State := wGrp (wLn 5 1 0 2 2 2 0 0 0 { li with identOk := true }) 4 0
def st60 : State := wGrp (wLn 5 1 0 3 2 2 0 0 1 { li with txSeq := 255, txUp := true, txNext := 7 }) 4 1
def st61 : State := (wLn 143 1 0 2 2 2 0 0 0 { li with fecGood := 2 }).wr (Reg.laneCfg 143) 0x84000000
def st62 : State := (wLn 143 1 0 2 2 2 0 0 0 { li with fecLock := true, fecFails := 6 }).wr (Reg.laneCfg 143) 0x84000000
def st63 : State := (wLn 143 1 0 2 2 2 0 0 0 { li with fecLock := true, fecFails := 7 }).wr (Reg.laneCfg 143) 0x84000000
def st64 : State := w0.wr (Reg.laneState 108) 0x10000000
def st65 : State :=
  { ((w0.wr (Reg.laneState 108) 0x48000000).wr (Reg.laneCfg 108) 0x04000000).wr (Reg.laneState 109) 0x48000000 with link.pll := [true, true, true, false] }
theorem meets_BlocksMarkersAndGroups :
    (∃ (s : State) (n : Nat) (w : W64), n < 144 ∧ s.calwiza n = true ∧ (s.rxState n = Rx.locked ∨ s.rxState n = Rx.aligned) ∧
      s.lockState n = 2 ∧ (s.lane n).holdIn = none ∧ s.decodes n 1 w = true ∧ (s.fecBlock n).1 = false ∧ (s.lane n).win < 255 ∧
      (s.lane n).bad < 24 ∧ s.inGroup n = false) ∧
    (∃ (s : State) (n : Nat) (w : W64) (fill : Int) (g : _), n < 144 ∧ s.calwiza n = true ∧ (s.rxState n = Rx.locked ∨ s.rxState n =
      Rx.aligned) ∧ s.lockState n = 2 ∧ (s.lane n).holdIn = none ∧ s.decodes n 1 w = true ∧ (s.fecBlock n).1 = false ∧ (s.lane n).win
      < 255 ∧ (s.lane n).bad < 24 ∧ s.inGroup n = true ∧ s.laneMode n = 1 ∧ fill.natAbs ≤ 256 ∧ s.laneGrp n = some g ∧ (s.grpSt
      g).drops = [] ∧ (s.lane n).rx.length < 64 ∧ s.relayPrimary = false) ∧
    (∃ (s : State) (n : Nat) (w : W64), n < 144 ∧ s.calwiza n = true ∧ (s.rxState n = Rx.locked ∨ s.rxState n = Rx.aligned) ∧
      s.lockState n = 2 ∧ (s.lane n).holdIn = none ∧ s.decodes n 0 w = true ∧ (s.lane n).bad = 23 ∧ s.inGroup n = false) ∧
    (∃ (s : State) (n : Nat) (w : W64) (late : Nat) (g : Nat), n < 144 ∧ s.calwiza n = true ∧ (s.rxState n = Rx.locked ∨ s.rxState n
      = Rx.aligned) ∧ s.lockState n = 2 ∧ (s.lane n).holdIn = none ∧ s.decodes n 2 w = true ∧ (s.fecBlock n).1 = false ∧ (s.lane
      n).bad < 24 ∧ s.markerError n w = false ∧ (s.lane n).seqSeen = none ∧ s.laneMode n = 1 ∧ s.laneGrp n = some g ∧ g < 64 ∧ n ∈
      s.grpLanes g ∧ s.inGroup n = false ∧ (s.lane n).lost = false ∧ (s.lane n).identOk = true ∧ late ≤ s.skewLimit n g ∧ late < 512) ∧
    (∃ (s : State) (n : Nat) (w : W64), n < 144 ∧ s.calwiza n = true ∧ (s.rxState n = Rx.locked ∨ s.rxState n = Rx.aligned) ∧
      s.lockState n = 2 ∧ (s.lane n).holdIn = none ∧ s.decodes n 2 w = true ∧ (s.fecBlock n).1 = false ∧ (s.lane n).bad < 24 ∧
      s.markerError n w = true ∧ (s.lane n).seqSeen = none ∧ s.inGroup n = false) ∧
    (∃ (s : State) (n : Nat) (g : Nat) (u : State), n < 144 ∧ s.calwiza n = true ∧ s.sends n = true ∧ s.laneGrp n = some g ∧ u =
      s.settleTx g ∧ (∀ m ∈ u.grpLanes g, u.sends m = true → u.markerDue m = true) ∧ ((u.grpSt g).take
      ((u.txPos ((u.grpLanes g).filter u.sends)).getD 0) false).1 = none) ∧
    (∃ (s : State) (n : Nat) (message : List Nat) (check : List Nat) (levels : List Nat) (bl : _), n < 144 ∧ s.calwiza n = true ∧ 4 ≤
      s.laneRate n ∧ message.length = 650 ∧ check.length = 50 ∧ levels = message ++ check ∧ (∀ l ∈ levels, l < 4) ∧ (s.lane
      n).fecLock = false ∧ fecDecode levels = some (bl, 0)) :=
  ⟨⟨st56, 5, 0x0123456789ABCDEF, by decide +kernel, by decide +kernel, by decide +kernel, by decide +kernel, by decide +kernel,
     by decide +kernel, by decide +kernel, by decide +kernel, by decide +kernel, by decide +kernel⟩,
   ⟨st57, 5, 0x0123456789ABCDEF, -200, 4, by decide +kernel, by decide +kernel, by decide +kernel, by decide +kernel,
     by decide +kernel, by decide +kernel, by decide +kernel, by decide +kernel, by decide +kernel, by decide +kernel,
     by decide +kernel, by decide +kernel, by decide +kernel, by decide +kernel, by decide +kernel, by decide +kernel⟩,
   ⟨st58, 5, 0x0123456789ABCDEF, by decide +kernel, by decide +kernel, by decide +kernel, by decide +kernel, by decide +kernel,
     by decide +kernel, by decide +kernel, by decide +kernel⟩,
   ⟨st59, 5, 0xE0, 64, 4, by decide +kernel, by decide +kernel, by decide +kernel, by decide +kernel, by decide +kernel,
     by decide +kernel, by decide +kernel, by decide +kernel, by decide +kernel, by decide +kernel, by decide +kernel,
     by decide +kernel, by decide +kernel, by decide +kernel, by decide +kernel, by decide +kernel, by decide +kernel,
     by decide +kernel, by decide +kernel⟩,
   ⟨wLn 5 1 0 2 2 2 0 0 0 li, 5, 0x1E0, by decide +kernel, by decide +kernel, by decide +kernel, by decide +kernel,
     by decide +kernel, by decide +kernel, by decide +kernel, by decide +kernel, by decide +kernel, by decide +kernel,
     by decide +kernel⟩,
   ⟨st60, 5, 4, _, by decide +kernel, by decide +kernel, by decide +kernel, by decide +kernel, rfl, by decide +kernel,
     by decide +kernel⟩,
   ⟨st61, 143, List.replicate 650 0, List.replicate 50 0, (List.replicate 650 0) ++ (List.replicate 50 0),
     ((fecDecode ((List.replicate 650 0) ++ (List.replicate 50 0))).getD ([], 0)).1, by decide +kernel, by decide +kernel,
     by decide +kernel, by decide +kernel, by decide +kernel, by decide +kernel, by decide +kernel, by decide +kernel,
     by decide +kernel⟩⟩

theorem meets_BlocksMarkersAndGroups_2 :
    (∃ (s : State) (n : Nat) (message : List Nat) (check : List Nat) (levels : List Nat), n < 144 ∧ s.calwiza n = true ∧ 4 ≤
      s.laneRate n ∧ message.length = 650 ∧ check.length = 50 ∧ levels = message ++ check ∧ (∀ l ∈ levels, l < 4) ∧ (s.lane
      n).fecLock = false ∧ fecDecode levels = none) ∧
    (∃ (s : State) (n : Nat) (message : List Nat) (check : List Nat) (levels : List Nat) (bl : _) (c : _), n < 144 ∧ s.calwiza n =
      true ∧ 4 ≤ s.laneRate n ∧ message.length = 650 ∧ check.length = 50 ∧ levels = message ++ check ∧ (∀ l ∈ levels, l < 4) ∧
      (s.lane n).fecLock = true ∧ fecDecode levels = some (bl, c) ∧ 1 ≤ c) ∧
    (∃ (s : State) (n : Nat) (message : List Nat) (check : List Nat) (levels : List Nat), n < 144 ∧ s.calwiza n = true ∧ 4 ≤
      s.laneRate n ∧ message.length = 650 ∧ check.length = 50 ∧ levels = message ++ check ∧ (∀ l ∈ levels, l < 4) ∧ (s.lane
      n).fecLock = true ∧ fecDecode levels = none ∧ (s.lane n).fecFails < 7) ∧
    (∃ (s : State) (n : Nat) (message : List Nat) (check : List Nat) (levels : List Nat), n < 144 ∧ s.calwiza n = true ∧ 4 ≤
      s.laneRate n ∧ message.length = 650 ∧ check.length = 50 ∧ levels = message ++ check ∧ (∀ l ∈ levels, l < 4) ∧ (s.lane
      n).fecLock = true ∧ fecDecode levels = none ∧ (s.lane n).fecFails = 7 ∧ s.lockState n = 2 ∧ s.inGroup n = false) ∧
    (∃ (s : State) (e : Nat), e < 4 ∧ (∀ n ∈ edgeLanes e, s.inGroup n = false) ∧ s.link.pll.getD e false = true) ∧
    (∃ (s : State) (e : Nat), e < 4 ∧ (∀ n ∈ edgeLanes e, s.inGroup n = false) ∧ s.link.pll.getD e true = false) :=
  ⟨⟨st61, 143, (List.range 650).map (· % 4), (List.range 50).map (fun i => (i + 2) % 4), ((List.range 650).map (· % 4)) ++
     ((List.range 50).map (fun i => (i + 2) % 4)), by decide +kernel, by decide +kernel, by decide +kernel, by decide +kernel,
     by decide +kernel, by decide +kernel, by decide +kernel, by decide +kernel, by decide +kernel⟩,
   ⟨st62, 143, 3 :: List.replicate 649 0, List.replicate 50 0, (3 :: List.replicate 649 0) ++ (List.replicate 50 0),
     ((fecDecode ((3 :: List.replicate 649 0) ++ (List.replicate 50 0))).getD ([], 0)).1, 1, by decide +kernel, by decide +kernel,
     by decide +kernel, by decide +kernel, by decide +kernel, by decide +kernel, by decide +kernel, by decide +kernel,
     by decide +kernel, by decide +kernel⟩,
   ⟨st62, 143, (List.range 650).map (· % 4), (List.range 50).map (fun i => (i + 2) % 4), ((List.range 650).map (· % 4)) ++
     ((List.range 50).map (fun i => (i + 2) % 4)), by decide +kernel, by decide +kernel, by decide +kernel, by decide +kernel,
     by decide +kernel, by decide +kernel, by decide +kernel, by decide +kernel, by decide +kernel, by decide +kernel⟩,
   ⟨st63, 143, (List.range 650).map (· % 4), (List.range 50).map (fun i => (i + 2) % 4), ((List.range 650).map (· % 4)) ++
     ((List.range 50).map (fun i => (i + 2) % 4)), by decide +kernel, by decide +kernel, by decide +kernel, by decide +kernel,
     by decide +kernel, by decide +kernel, by decide +kernel, by decide +kernel, by decide +kernel, by decide +kernel,
     by decide +kernel, by decide +kernel⟩,
   ⟨st64, 3, by decide +kernel, by decide +kernel, by decide +kernel⟩,
   ⟨st65, 3, by decide +kernel, by decide +kernel, by decide +kernel⟩⟩

def st66 : State := { (wGrp (wLn 5 1 0 2 2 2 0 0 0 li) 4 1).setCtxState 1 3 with link.classT := [(1, 4)] }
def st67 : State := wLn 5 1 0 2 1 2 0 0 0 { li with txReturn := true }
def st68 : State := wLn 5 1 0 4 2 2 0 0 0 { li with rxReturn := true, heldState := 3 }
def st69 : State := (wLn 5 1 0 2 2 2 0 0 0 li).wr (Reg.injCfg 5) 0x40000000
def st70 : State := ((wLn 143 4 0 2 2 0 0 0 0 { li with chkFill := 31, chkErrs := List.replicate 62 0 }).wr (Reg.prbsCfg 143)
  0x50000000).wrs [(Reg.prbsStat 143, 0x80000000), (Reg.prbsErrs 143, 0xFFFFFFFE)]
def st71 : State := ((wLn 143 4 0 2 2 0 0 0 0 { li with chkFill := 31 }).wr (Reg.prbsCfg 143) 0x50000000).wrs
  [(Reg.prbsStat 143, 0x80000000), (Reg.prbsErrs 143, 0xFFFFFFFF)]
def st72 : State := ((wLn 143 4 0 2 2 0 0 0 0 { li with chkFill := 31, chkErrs := List.replicate 63 0 }).wr (Reg.prbsCfg 143)
  0x50000000).wrs [(Reg.prbsStat 143, 0x80000000)]
def st73 : State := (wLn 143 4 0 2 2 0 0 0 0 { li with chkFill := 31, chkRun := 63 }).wr (Reg.prbsCfg 143) 0x50000000
def st74 : State := { w0 with link.scans := [5], host.async := [asy Op.laneEye 5 0] }
theorem meets_LaneServicesAndGroupSetup :
    (∃ (s : State) (h : Hdr) (n : Nat), n < 144 ∧ s.ready h Op.lanePower = true ∧ s.laneInUse n = false ∧ s.inGroup n = false) ∧
    (∃ (s : State) (h : Hdr) (n : Nat), n < 144 ∧ s.ready h Op.lanePower = true ∧ s.laneInUse n = false ∧ s.inGroup n = false ∧
      s.calwiza n = true ∧ s.txState n = 0 ∧ s.rxState n = Rx.off) ∧
    (∃ (s : State) (h : Hdr) (n : Nat), n < 144 ∧ s.ready h Op.lanePower = true ∧ s.laneInUse n = false ∧ s.inGroup n = false ∧
      s.txState n = 2 ∧ s.rxState n = Rx.locked ∧ s.laneGrp n = none) ∧
    (∃ (s : State) (h : Hdr) (n : Nat), n < 144 ∧ s.ready h Op.lanePower = true ∧ s.laneInUse n = false ∧ s.inGroup n = false ∧
      s.txState n = 2 ∧ s.rxState n = Rx.locked ∧ s.laneGrp n = none) ∧
    (∃ (s : State) (h : Hdr) (n : Nat), n < 144 ∧ s.ready h Op.lanePower = true ∧ s.laneInUse n = true) ∧
    (∃ (s : State) (h : Hdr) (n : Nat) (w : W32), n < 144 ∧ s.ready h Op.lanePrbs = true ∧ s.laneMode n = 4 ∧ fld w 26 3 ≤ 4 ∧
      s.shedStage = 0 ∧ s.laneInUse n = false) :=
  ⟨⟨wLn 5 1 0 2 2 2 0 0 0 li, hS, 5, by decide +kernel, by decide +kernel, by decide +kernel, by decide +kernel⟩,
   ⟨wLn 5 1 0 0 0 0 0 0 0 li, hS, 5, by decide +kernel, by decide +kernel, by decide +kernel, by decide +kernel, by decide +kernel,
     by decide +kernel, by decide +kernel⟩,
   ⟨wLn 5 1 0 2 2 2 0 0 0 li, hS, 5, by decide +kernel, by decide +kernel, by decide +kernel, by decide +kernel, by decide +kernel,
     by decide +kernel, by decide +kernel⟩,
   ⟨wLn 5 1 0 2 2 2 0 0 0 li, hS, 5, by decide +kernel, by decide +kernel, by decide +kernel, by decide +kernel, by decide +kernel,
     by decide +kernel, by decide +kernel⟩,
   ⟨st66, hS, 5, by decide +kernel, by decide +kernel, by decide +kernel⟩,
   ⟨wLn 5 4 0 2 2 0 0 0 0 li, hS, 5, 0x50001234, by decide +kernel, by decide +kernel, by decide +kernel, by decide +kernel,
     by decide +kernel, by decide +kernel⟩⟩

theorem meets_LaneServicesAndGroupSetup_2 :
    (∃ (s : State) (h : Hdr) (n : Nat) (w : W32), n < 144 ∧ s.ready h Op.laneInject = true ∧ 4 ≤ fld w 18 6 ∧ fld w 18 6 ≤ 40 ∧
      s.shedStage = 0 ∧ s.laneInUse n = false ∧ bit w 0 = false) ∧
    (∃ (s : State) (h : Hdr) (n : Nat), n < 144 ∧ s.ready h Op.laneEye = true ∧ s.rxState n ≠ Rx.off ∧ n ∉ s.link.scans ∧ s.shedStage
      = 0) ∧
    (∃ (s : State) (n : Nat), n < 144 ∧ (s.lane n).txReturn = true) ∧
    (∃ (s : State) (n : Nat), n < 144 ∧ (s.lane n).rxReturn = true ∧ s.rxState n = Rx.hold) ∧
    (∃ (s : State) (n : Nat), n < 144 ∧ s.hubOn = true ∧ s.laneInUse n = false ∧ s.shedStage = 0 ∧ s.laneMode n ≠ 0 ∧ s.laneMode n ≠
      3 ∧ s.rdF (Reg.injCfg n) 30 2 = 1) ∧
    (∃ (s : State) (n : Nat) (b : Bool) (err : Bool) (k : Nat) (l : LaneSt), n < 144 ∧ s.laneMode n = 4 ∧ s.rxState n ≠ Rx.off ∧ bit
      (s.rd (Reg.prbsCfg n)) 30 = true ∧ k = s.rdF (Reg.prbsCfg n) 26 3 ∧ l = s.lane n ∧ (prbsPoly k).1 ≤ l.chkFill ∧ err = (prbsNext
      k l.chkReg != (b != bit (s.rd (Reg.prbsCfg n)) 29)) ∧ bit (s.rd (Reg.prbsStat n)) 31 = true ∧ l.chkErrs.length < 63) :=
  ⟨⟨wLn 5 1 0 2 2 2 0 0 0 li, hS, 5, 0x40A00000, by decide +kernel, by decide +kernel, by decide +kernel, by decide +kernel,
     by decide +kernel, by decide +kernel, by decide +kernel⟩,
   ⟨wLn 5 1 0 5 2 2 0 0 0 li, hS, 5, by decide +kernel, by decide +kernel, by decide +kernel, by decide +kernel, by decide +kernel⟩,
   ⟨st67, 5, by decide +kernel, by decide +kernel⟩,
   ⟨st68, 5, by decide +kernel, by decide +kernel, by decide +kernel⟩,
   ⟨st69, 5, by decide +kernel, by decide +kernel, by decide +kernel, by decide +kernel, by decide +kernel, by decide +kernel,
     by decide +kernel⟩,
   ⟨st70, 143, true, true, _, _, by decide +kernel, by decide +kernel, by decide +kernel, by decide +kernel, rfl, rfl,
     by decide +kernel, by decide +kernel, by decide +kernel, by decide +kernel⟩⟩

theorem meets_LaneServicesAndGroupSetup_3 :
    (∃ (s : State) (n : Nat) (b : Bool) (err : Bool) (k : Nat) (l : LaneSt), n < 144 ∧ s.laneMode n = 4 ∧ s.rxState n ≠ Rx.off ∧ bit
      (s.rd (Reg.prbsCfg n)) 30 = true ∧ k = s.rdF (Reg.prbsCfg n) 26 3 ∧ l = s.lane n ∧ (prbsPoly k).1 ≤ l.chkFill ∧ err = (prbsNext
      k l.chkReg != (b != bit (s.rd (Reg.prbsCfg n)) 29)) ∧ bit (s.rd (Reg.prbsStat n)) 31 = true ∧ l.chkErrs.length < 63) ∧
    (∃ (s : State) (n : Nat) (b : Bool) (err : Bool) (k : Nat) (l : LaneSt), n < 144 ∧ s.laneMode n = 4 ∧ s.rxState n ≠ Rx.off ∧ bit
      (s.rd (Reg.prbsCfg n)) 30 = true ∧ k = s.rdF (Reg.prbsCfg n) 26 3 ∧ l = s.lane n ∧ (prbsPoly k).1 ≤ l.chkFill ∧ err = (prbsNext
      k l.chkReg != (b != bit (s.rd (Reg.prbsCfg n)) 29)) ∧ bit (s.rd (Reg.prbsStat n)) 31 = true ∧ err = true ∧
      (l.chkErrs.filter (fun x => decide (l.chkBits + 1 < x + 1024))).length = 63) ∧
    (∃ (s : State) (n : Nat) (b : Bool) (err : Bool) (k : Nat) (l : LaneSt), n < 144 ∧ s.laneMode n = 4 ∧ s.rxState n ≠ Rx.off ∧ bit
      (s.rd (Reg.prbsCfg n)) 30 = true ∧ k = s.rdF (Reg.prbsCfg n) 26 3 ∧ l = s.lane n ∧ (prbsPoly k).1 ≤ l.chkFill ∧ err = (prbsNext
      k l.chkReg != (b != bit (s.rd (Reg.prbsCfg n)) 29)) ∧ bit (s.rd (Reg.prbsStat n)) 31 = false ∧ err = false ∧ l.chkRun = 63) ∧
    (∃ (s : State) (n : Nat) (a : Async) (y : Nat) (x : Nat), n < 144 ∧ n ∈ s.link.scans ∧ s.host.async = [a] ∧ a.opcode = Op.laneEye
      ∧ a.mask = n ∧ y < 65536 ∧ x < 65536) ∧
    (∃ (s : State) (h : Hdr) (g : Nat) (c : GroupCfg), s.ready h Op.laneGroup = true ∧ g < 64 ∧ c.en = true ∧ s.groupLanesOk g c =
      true ∧ c.fcEn = false ∧ c.acceptEn = false ∧ (s.dev.concentrator = false ∨ s.inboundGrp g = false ∨ s.inboundLanes g +
      c.lanes.length ≤ 128) ∧ (∀ n ∈ c.lanes, s.laneInUse n = false) ∧ bit (s.rd (Reg.grpCfg g)) 31 = false) :=
  ⟨⟨st71, 143, false, false, _, _, by decide +kernel, by decide +kernel, by decide +kernel, by decide +kernel, rfl, rfl,
     by decide +kernel, by decide +kernel, by decide +kernel, by decide +kernel⟩,
   ⟨st72, 143, true, true, _, _, by decide +kernel, by decide +kernel, by decide +kernel, by decide +kernel, rfl, rfl,
     by decide +kernel, by decide +kernel, by decide +kernel, by decide +kernel, by decide +kernel⟩,
   ⟨st73, 143, false, false, _, _, by decide +kernel, by decide +kernel, by decide +kernel, by decide +kernel, rfl, rfl,
     by decide +kernel, by decide +kernel, by decide +kernel, by decide +kernel, by decide +kernel⟩,
   ⟨st74, 5, asy Op.laneEye 5 0, 65535, 0, by decide +kernel, by decide +kernel, by decide +kernel, by decide +kernel,
     by decide +kernel, by decide +kernel, by decide +kernel⟩,
   ⟨wLn 5 1 0 2 2 2 0 0 0 li, hS, 63, ⟨true, true, [5, 3], 32, false, false, 0⟩, by decide +kernel, by decide +kernel,
     by decide +kernel, by decide +kernel, by decide +kernel, by decide +kernel, by decide +kernel, by decide +kernel,
     by decide +kernel⟩⟩

def st75 : State := (wBl [ctl 1 (evH 9 0x89ABCDEF)]).wrs fieldW
def st76 : State := let s := wFr (evH 9 5).toNat [0x0102030405060708]; { s with link.frames := [frame0 5] }
def st77 : State := let s := wBl (frBlks (evH 9 5) [0x0102030405060708] true); { s with link.frames := [frame0 5] }
def st78 : State := (let s := wFr (evH 9 0).toNat [0x0102030405060708]; { s with link.frames := [frame0 0] }).wrs fieldW
def st79 : State := (wBl []).wr64 (Reg.outStream 63) (BitVec.ofNat 64 (2 ^ 63 + 4 * 2 ^ 57))
theorem meets_EventFramesAndFields :
    (∃ (s : State) (g : Nat) (cyc : Nat) (w : Nat) (st : Nat) (n : W32) (b : Blk), g < 64 ∧ s.frontCtl g isHeader = some b ∧ w =
      b.w.toNat ∧ w % 256 = 0xE2 ∧ st = wbits w 24 8 ∧ n = BitVec.ofNat 32 (wbits w 32 32) ∧ ¬(g = 63 ∧ st = 255 ∧ bit (s.rd
      Reg.twinCfg) 31 = true) ∧ s.headerFits g st n cyc = true ∧ s.findFrame g st n = none) ∧
    (∃ (s : State) (g : Nat) (cyc : Nat) (w : Nat) (st : Nat) (n : W32) (b : Blk), g < 64 ∧ s.frontCtl g isHeader = some b ∧ w =
      b.w.toNat ∧ w % 256 = 0xE2 ∧ st = wbits w 24 8 ∧ n = BitVec.ofNat 32 (wbits w 32 32) ∧ ¬(g = 63 ∧ st = 255 ∧ bit (s.rd
      Reg.twinCfg) 31 = true) ∧ s.headerFits g st n cyc = false) ∧
    (∃ (s : State) (g : Nat) (st : Nat) (f : RxFrame) (a : Assembled), g < 64 ∧ st < 256 ∧ s.link.frames.find? (fun x => x.group == g
      && x.stream == st && !x.closed) = some f ∧ s.arrived g (f.ix + 1 + f.rows) = true ∧ a = s.assemble g f.ix ((List.range
      f.rows).map (fun r => f.ix + 1 + r)) (f.ix + 1 + f.rows) ∧ a.erased = false ∧ a.crcFail = false) ∧
    (∃ (s : State) (g : Nat) (st : Nat) (f : RxFrame) (a : Assembled), g < 64 ∧ st < 256 ∧ s.link.frames.find? (fun x => x.group == g
      && x.stream == st && !x.closed) = some f ∧ s.arrived g (f.ix + 1 + f.rows) = true ∧ a = s.assemble g f.ix ((List.range
      f.rows).map (fun r => f.ix + 1 + r)) (f.ix + 1 + f.rows) ∧ a.erased = true ∧ a.crcFail = true) ∧
    (∃ (s : State) (g : Nat) (f : Nat) (st : Nat) (n : W32) (bs : _), g < 64 ∧ f < 1024 ∧ bit (s.rd (Reg.fieldEnt f)) 31 = true ∧ bit
      (s.rd (Reg.fieldEnt f)) 29 = false ∧ s.rdF (Reg.fieldEnt f) 23 6 = g ∧ s.rdF (Reg.fieldEnt f) 15 8 = st ∧ n = s.tickId -
      BitVec.ofNat 32 (s.rdF (Reg.fieldEnt f + 8) 24 8) ∧ s.payloadBytes g st n (s.rdF (Reg.fieldEnt f) 0 15) (s.rdF (Reg.fieldEnt f
      + 4) 27 5 + 1) = .ok bs) ∧
    (∃ (s : State) (g : Nat) (f : Nat) (st : Nat) (n : W32), g < 64 ∧ f < 1024 ∧ bit (s.rd (Reg.fieldEnt f)) 31 = true ∧ bit (s.rd
      (Reg.fieldEnt f)) 29 = false ∧ s.rdF (Reg.fieldEnt f) 23 6 = g ∧ s.rdF (Reg.fieldEnt f) 15 8 = st ∧ n = s.tickId - BitVec.ofNat
      32 (s.rdF (Reg.fieldEnt f + 8) 24 8) ∧ s.payloadBytes g st n (s.rdF (Reg.fieldEnt f) 0 15) (s.rdF (Reg.fieldEnt f + 4) 27 5 +
      1) = .error false) ∧
    (∃ (s : State) (g : Nat) (st : Nat) (e : Int) (n : W32), g < 64 ∧ st < 256 ∧ s.expected g st = some e ∧ n = s.tickId -
      BitVec.ofInt 32 (e / (max 1 s.cTick : Nat)) ∧ s.findFrame g st n = none ∧ (s.streamEv g st n).absent = false ∧ s.grpState g ≠
      0) ∧
    (∃ (s : State) (g : Nat) (st : _), g < 64 ∧ st < 64 ∧ nbit (s.outEntry st) 63 = true ∧ s.shedStage < 3) :=
  ⟨⟨wBl [ctl 1 (evH 9 0x89ABCDEF)], 4, 3, (evH 9 0x89ABCDEF).toNat, 9, 0x89ABCDEF, ctl 1 (evH 9 0x89ABCDEF), by decide +kernel,
     by decide +kernel, by decide +kernel, by decide +kernel, by decide +kernel, by decide +kernel, by decide +kernel,
     by decide +kernel, by decide +kernel⟩,
   ⟨st75, 4, 3, (evH 9 0x89ABCDEF).toNat, 9, 0x89ABCDEF, ctl 1 (evH 9 0x89ABCDEF), by decide +kernel, by decide +kernel,
     by decide +kernel, by decide +kernel, by decide +kernel, by decide +kernel, by decide +kernel, by decide +kernel⟩,
   ⟨st76, 4, 9, frame0 5, _, by decide +kernel, by decide +kernel, by decide +kernel, by decide +kernel, rfl, by decide +kernel,
     by decide +kernel⟩,
   ⟨st77, 4, 9, frame0 5, _, by decide +kernel, by decide +kernel, by decide +kernel, by decide +kernel, rfl, by decide +kernel,
     by decide +kernel⟩,
   ⟨st78, 4, 1023, 9, 0, [8, 7, 6, 5, 4, 3, 2, 1], by decide +kernel, by decide +kernel, by decide +kernel, by decide +kernel,
     by decide +kernel, by decide +kernel, by decide +kernel, ok_of (by decide +kernel)⟩,
   ⟨(wBl []).wrs fieldW, 4, 1023, 9, 0, by decide +kernel, by decide +kernel, by decide +kernel, by decide +kernel,
     by decide +kernel, by decide +kernel, by decide +kernel, error_of (by decide +kernel)⟩,
   ⟨(wBl []).wrs fieldW, 4, 9, 3, 0, by decide +kernel, by decide +kernel, by decide +kernel, by decide +kernel, by decide +kernel,
     by decide +kernel, by decide +kernel⟩,
   ⟨st79, 4, 63, by decide +kernel, by decide +kernel, by decide +kernel, by decide +kernel⟩⟩

def st80 : State := (wFr (kindH 0 2) (w64s pktNop)).wr (Reg.inbandMask 4) 0x10
def st81 : State := { wFr (kindH 1 2) (w64s [0x80070000, 2, 0, 0]) with host.forwarded := [⟨3, 0x8007, .spi⟩] }
def st82 : State := { wFr (kindH 4 1) [100] with tod.tickFab := 1000, tod.fab := 1000 }
def st83 : State := wBl (frBlks (BitVec.ofNat 64 (kindH 3 1)) [5] true)
def st84 : State := wKept [keep 255 0, keep 0 1, keep 1 0] [fastB 3 0]
def st85 : State := (fun (z : State) => z.setGrp 4 { z.grpSt 4 with waits := [⟨4, 0xE6, [2]⟩] }) (wKept
  ((List.range 64).map (fun i => keep (200 + i) 0)) [fastB 3 200])
def st86 : State := wKept [keep 255 0, keep 0 7, keep 1 0] [fastB 4 0]
def st87 : State := wKept [keep 255 0, keep 0 7] []
def st88 : State := wKept [keep 255 8, keep 0 7] []
def st89 : State := (wBl [fastB 0 0]).wr Reg.tickCfg 500
theorem meets_ControlTimeAndFastBlocks :
    (∃ (s : State) (g : Nat) (p : Popped) (ws : _), g < 64 ∧ s.popFrame g 0xE4 = some p ∧ p.ok = true ∧ wbits p.hdr 58 6 =
      s.dev.partId ∧ s.hubOn = true ∧ wbits p.hdr 48 4 = 0 ∧ ws = (wordsOf p.bytes).take (4 + fld ((wordsOf p.bytes).getD 1 0) 0 16)
      ∧ s.packetRej (.inband g (wbits p.hdr 52 6)) ws = none ∧ s.transportOk (.inband g (wbits p.hdr 52 6)) (fld (ws.getD 0 0) 0 16)
      = true ∧ fld (ws.getD 1 0) 16 16 = 0) ∧
    (∃ (s : State) (g : Nat) (p : Popped) (f : Forwarded), g < 64 ∧ s.popFrame g 0xE4 = some p ∧ p.ok = true ∧ wbits p.hdr 58 6 =
      s.dev.partId ∧ s.hubOn = true ∧ wbits p.hdr 48 4 = 1 ∧ s.host.forwarded.find?
      (fun x => x.part == wbits p.hdr 52 6 && x.tag == fld ((wordsOf p.bytes).getD 0 0) 16 16) = some f) ∧
    (∃ (s : State) (g : Nat) (p : Popped), g < 64 ∧ s.popFrame g 0xE4 = some p ∧ p.ok = true ∧ wbits p.hdr 58 6 = s.dev.partId ∧
      wbits p.hdr 48 4 = 2) ∧
    (∃ (s : State) (g : Nat) (p : Popped), g < 64 ∧ s.popFrame g 0xE4 = some p ∧ p.ok = true ∧ wbits p.hdr 58 6 = s.dev.partId ∧
      wbits p.hdr 48 4 = 3 ∧ s.txOpen g) ∧
    (∃ (s : State) (g : Nat) (p : Popped), g < 64 ∧ s.popFrame g 0xE4 = some p ∧ p.ok = true ∧ wbits p.hdr 58 6 = s.dev.partId ∧
      wbits p.hdr 48 4 = 4 ∧ (s.grpSt g).declRt = none) ∧
    (∃ (s : State) (g : Nat) (p : Popped), g < 64 ∧ s.popFrame g 0xE4 = some p ∧ p.ok = false) ∧
    (∃ (s : State) (g : Nat) (p : Popped), g < 64 ∧ s.popFrame g 0xE5 = some p ∧ p.ok = true) :=
  ⟨⟨st80, 4, (st80.popFrame 4 0xE4).getD ⟨0, [], false, 0, 0, st80⟩, pktNop, by decide +kernel, some_getD (by decide +kernel),
     by decide +kernel, by decide +kernel, by decide +kernel, by decide +kernel, by decide +kernel, by decide +kernel,
     by decide +kernel, by decide +kernel⟩,
   ⟨st81, 4, (st81.popFrame 4 0xE4).getD ⟨0, [], false, 0, 0, st81⟩, ⟨3, 0x8007, .spi⟩, by decide +kernel, some_getD
     (by decide +kernel), by decide +kernel, by decide +kernel, by decide +kernel, by decide +kernel, by decide +kernel⟩,
   ⟨wFr (kindH 2 1) [5], 4, ((wFr (kindH 2 1) [5]).popFrame 4 0xE4).getD ⟨0, [], false, 0, 0, (wFr (kindH 2 1) [5])⟩,
     by decide +kernel, some_getD (by decide +kernel), by decide +kernel, by decide +kernel, by decide +kernel⟩,
   ⟨wFr (kindH 3 1) [0x123456789], 4, ((wFr (kindH 3 1) [0x123456789]).popFrame 4 0xE4).getD ⟨0, [], false, 0, 0,
     (wFr (kindH 3 1) [0x123456789])⟩, by decide +kernel, some_getD (by decide +kernel), by decide +kernel, by decide +kernel,
     by decide +kernel, (by unfold State.txOpen State.txClear; decide +kernel)⟩,
   ⟨st82, 4, (st82.popFrame 4 0xE4).getD ⟨0, [], false, 0, 0, st82⟩, by decide +kernel, some_getD (by decide +kernel),
     by decide +kernel, by decide +kernel, by decide +kernel, by decide +kernel⟩,
   ⟨st83, 4, (st83.popFrame 4 0xE4).getD ⟨0, [], false, 0, 0, st83⟩, by decide +kernel, some_getD (by decide +kernel),
     by decide +kernel⟩,
   ⟨wFr 0xE5 [5], 4, ((wFr 0xE5 [5]).popFrame 4 0xE5).getD ⟨0, [], false, 0, 0, (wFr 0xE5 [5])⟩, by decide +kernel, some_getD
     (by decide +kernel), by decide +kernel⟩⟩

theorem meets_ControlTimeAndFastBlocks_2 :
    (∃ (s : State) (g : Nat) (w : _) (u : _), g < 64 ∧ s.takeFast g 3 = some (w, u) ∧ (s.grpSt g).kept.any (fun k => k.seq == wbits w
      8 8) = true ∧ s.txClear g) ∧
    (∃ (s : State) (g : Nat) (w : _) (u : _) (f : TxFrame), g < 64 ∧ s.takeFast g 3 = some (w, u) ∧ (s.grpSt g).kept.any (fun k =>
      k.seq == wbits w 8 8) = true ∧ (s.grpSt g).waits = [f] ∧ f.group = g ∧ (s.grpSt g).kept.length = 64 ∧ (s.grpSt g).down = false
      ∧ s.linkSlots g = [] ∧ (s.host.inbandReplies.filter (fun e => e.1 == g)).length ≤ (s.grpSt g).repSent) ∧
    (∃ (s : State) (g : Nat) (w : _) (u : _) (ks : _), g < 64 ∧ s.takeFast g 4 = some (w, u) ∧ ks = (s.grpSt g).kept.dropWhile (fun k
      => k.seq != wbits w 8 8) ∧ (∀ k ∈ ks, k.resends < 8 ∧ k.frame.group = g) ∧ s.txClear g) ∧
    (∃ (s : State) (g : Nat) (k : _) (rest : _), g < 64 ∧ (s.grpSt g).kept = k :: rest ∧ k.sentAt + 4096 ≤ s.tod.fab ∧ (∀ x ∈ k ::
      rest, x.resends < 8 ∧ x.frame.group = g) ∧ s.txClear g) ∧
    (∃ (s : State) (g : Nat) (k : _) (rest : _), g < 64 ∧ (s.grpSt g).kept = k :: rest ∧ k.sentAt + 4096 ≤ s.tod.fab ∧ 8 ≤ k.resends
      ∧ s.link.remotes = [] ∧ (s.grpSt g).waits = [] ∧ (∀ x ∈ k :: rest, wbits x.frame.hdr.toNat 52 6 = s.dev.partId)) ∧
    (∃ (s : State) (g : Nat) (age : _) (w : _) (u : _), g < 64 ∧ s.hubOn = true ∧ age ≤ 2 * s.cTick ∧ s.takeFast g 0 = some (w, u) ∧
      s.relayStandby = false) :=
  ⟨⟨st84, 4, 0x300000E8, ((st84.takeFast 4 3).getD (0, st84)).2, by decide +kernel, some_pair (by decide +kernel), by decide +kernel,
     (by unfold State.txClear; decide +kernel)⟩,
   ⟨st85, 4, 0x3000C8E8, ((st85.takeFast 4 3).getD (0, st85)).2, ⟨4, 0xE6, [2]⟩, by decide +kernel, some_pair (by decide +kernel),
     by decide +kernel, by decide +kernel, by decide +kernel, by decide +kernel, by decide +kernel, by decide +kernel,
     by decide +kernel⟩,
   ⟨st86, 4, 0x400000E8, ((st86.takeFast 4 4).getD (0, st86)).2, [keep 0 7, keep 1 0], by decide +kernel, some_pair
     (by decide +kernel), by decide +kernel, by decide +kernel, (by unfold State.txClear; decide +kernel)⟩,
   ⟨st87, 4, keep 255 0, [keep 0 7], by decide +kernel, by decide +kernel, by decide +kernel, by decide +kernel,
     (by unfold State.txClear; decide +kernel)⟩,
   ⟨st88, 4, keep 255 8, [keep 0 7], by decide +kernel, by decide +kernel, by decide +kernel, by decide +kernel, by decide +kernel,
     by decide +kernel, by decide +kernel⟩,
   ⟨st89, 4, 1000, 0xE8, ((st89.takeFast 4 0).getD (0, st89)).2, by decide +kernel, by decide +kernel, by decide +kernel, some_pair
     (by decide +kernel), by decide +kernel⟩⟩

def st90 : State := (wFr (memH 0 1) [0x13FFFFFE0]).wrB 0x13FFFFFFF 0x77
def st91 : State := wFr (memH 2 1) [0x13FFFFFE0, 0, 1, 2, 3, 4]
def st92 : State :=
  { wFr (memH 1 1) [0, 0, 1, 2, 3, 4] with link.remotes := [{ rem false false false with who := .window, len := 2048, next := some 9 }, { rem false false false with who := .window, tag := 9 }] }
def st93 : State := { wFr (memH 1 1) [0, 0, 1, 2, 3, 4] with link.remotes := [{ rem false false false with who := .window }] }
def st94 : State := { wFr (memH 1 1) [0, 0, 1, 2, 3, 4] with link.remotes := [rem false false false] }
def st95 : State :=
  { wFr (memH 1 1) [0, 0, 1, 2, 3, 4] with link.remotes := [{ rem false false false with who := .command .spi 8 Op.debugRead }] }
def st96 : State := { wFr (memH 3 1) [0, 0] with link.remotes := [rem true false false] }
def st97 : State := { wFr (memH 4 1) [0x13FFFFFE0] with ant.slots := [(1, ⟨0x180 + linkStop 0x13FFFFFE0, 5, linkOwner 3⟩)] }
def st98 : State := (wFr (memH 4 1) [0x13FFFFFE0]).wrB 0x13FFFFFFF 0x77
def st99 : State := { wFr (memH 5 1) [0, 0, 1, 2, 3, 4] with link.remotes := [rem false true false] }
def st100 : State := { wBl [] with link.remotes := [rem false true true] }
def st101 : State := { wBl [] with link.remotes := [rem false true false] }
def st102 : State :=
  ({ wBl [] with link.remotes := [rem false true true], link.groups := [(4, { GroupSt.init with declRt := some 100 })] }).wr
  (Reg.rtMeas 4) 101
theorem meets_RemoteMemory :
    (∃ (s : State) (g : Nat) (p : Popped) (fl : Nat) (addr : Nat) (rb : Nat), g < 64 ∧ s.popFrame g 0xE6 = some p ∧ p.ok = true ∧
      s.dev.concentrator = false ∧ fl = wbits p.hdr 38 6 + 1 ∧ addr = bytesAt p.bytes 0 8 % 2 ^ 41 ∧ rb = s.rowBytes g ∧ wbits p.hdr
      22 8 = (s.grpSt g).rxSeq ∧ wbits p.hdr 58 6 = s.dev.partId ∧ s.txOpen g ∧ wbits p.hdr 48 4 = 0 ∧ 0x100000000 ≤ addr ∧ addr + 32
      * fl ≤ 0x140000000) ∧
    (∃ (s : State) (g : Nat) (p : Popped) (fl : Nat) (addr : Nat) (rb : Nat), g < 64 ∧ s.popFrame g 0xE6 = some p ∧ p.ok = true ∧
      s.dev.concentrator = false ∧ fl = wbits p.hdr 38 6 + 1 ∧ addr = bytesAt p.bytes 0 8 % 2 ^ 41 ∧ rb = s.rowBytes g ∧ wbits p.hdr
      22 8 = (s.grpSt g).rxSeq ∧ wbits p.hdr 58 6 = s.dev.partId ∧ s.txOpen g ∧ wbits p.hdr 48 4 = 2 ∧ 0x100000000 ≤ addr ∧ addr + 32
      * fl ≤ 0x140000000) ∧
    (∃ (s : State) (g : Nat) (p : Popped) (fl : Nat) (addr : Nat) (rb : Nat) (r : Remote) (good : Bool) (n : Nat) (tg : _), g < 64 ∧
      s.popFrame g 0xE6 = some p ∧ p.ok = true ∧ s.dev.concentrator = false ∧ fl = wbits p.hdr 38 6 + 1 ∧ addr = bytesAt p.bytes 0 8
      % 2 ^ 41 ∧ rb = s.rowBytes g ∧ wbits p.hdr 22 8 = (s.grpSt g).rxSeq ∧ wbits p.hdr 58 6 = s.dev.partId ∧ s.txOpen g ∧ wbits
      p.hdr 48 4 = 1 ∧ good = (bytesAt p.bytes 0 8 % 4 == 0) ∧ n = max 1 (ceilDiv r.len 32) ∧ s.link.remotes.find? (fun x => x.part
      == wbits p.hdr 52 6 && x.tag == wbits p.hdr 30 8 && !x.write && !x.classT) = some r ∧ r.next = some tg) ∧
    (∃ (s : State) (g : Nat) (p : Popped) (fl : Nat) (addr : Nat) (rb : Nat) (r : Remote) (good : Bool) (n : Nat), g < 64 ∧
      s.popFrame g 0xE6 = some p ∧ p.ok = true ∧ s.dev.concentrator = false ∧ fl = wbits p.hdr 38 6 + 1 ∧ addr = bytesAt p.bytes 0 8
      % 2 ^ 41 ∧ rb = s.rowBytes g ∧ wbits p.hdr 22 8 = (s.grpSt g).rxSeq ∧ wbits p.hdr 58 6 = s.dev.partId ∧ s.txOpen g ∧ wbits
      p.hdr 48 4 = 1 ∧ good = (bytesAt p.bytes 0 8 % 4 == 0) ∧ n = max 1 (ceilDiv r.len 32) ∧ s.link.remotes.find? (fun x => x.part
      == wbits p.hdr 52 6 && x.tag == wbits p.hdr 30 8 && !x.write && !x.classT) = some r ∧ r.next = none ∧ r.pre = [] ∧ r.preBad =
      [] ∧ r.preOk = true ∧ r.who = .window) ∧
    (∃ (s : State) (g : Nat) (p : Popped) (fl : Nat) (addr : Nat) (rb : Nat) (r : Remote) (good : Bool) (n : Nat) (tile : _) (lc : _)
      (k : _) (dq : _) (ev : _), g < 64 ∧ s.popFrame g 0xE6 = some p ∧ p.ok = true ∧ s.dev.concentrator = false ∧ fl = wbits p.hdr 38
      6 + 1 ∧ addr = bytesAt p.bytes 0 8 % 2 ^ 41 ∧ rb = s.rowBytes g ∧ wbits p.hdr 22 8 = (s.grpSt g).rxSeq ∧ wbits p.hdr 58 6 =
      s.dev.partId ∧ s.txOpen g ∧ wbits p.hdr 48 4 = 1 ∧ good = (bytesAt p.bytes 0 8 % 4 == 0) ∧ n = max 1 (ceilDiv r.len 32) ∧
      s.link.remotes.find? (fun x => x.part == wbits p.hdr 52 6 && x.tag == wbits p.hdr 30 8 && !x.write && !x.classT) = some r ∧
      r.next = none ∧ r.pre = [] ∧ r.preBad = [] ∧ r.preOk = true ∧ r.who = .core tile lc k dq ev) ∧
    (∃ (s : State) (g : Nat) (p : Popped) (fl : Nat) (addr : Nat) (rb : Nat) (r : Remote) (good : Bool) (n : Nat) (tr : _) (tag : _)
      (op : _), g < 64 ∧ s.popFrame g 0xE6 = some p ∧ p.ok = true ∧ s.dev.concentrator = false ∧ fl = wbits p.hdr 38 6 + 1 ∧ addr =
      bytesAt p.bytes 0 8 % 2 ^ 41 ∧ rb = s.rowBytes g ∧ wbits p.hdr 22 8 = (s.grpSt g).rxSeq ∧ wbits p.hdr 58 6 = s.dev.partId ∧
      s.txOpen g ∧ wbits p.hdr 48 4 = 1 ∧ good = (bytesAt p.bytes 0 8 % 4 == 0) ∧ n = max 1 (ceilDiv r.len 32) ∧ s.link.remotes.find?
      (fun x => x.part == wbits p.hdr 52 6 && x.tag == wbits p.hdr 30 8 && !x.write && !x.classT) = some r ∧ r.next = none ∧ r.pre =
      [] ∧ r.preBad = [] ∧ r.preOk = true ∧ r.who = .command tr tag op) ∧
    (∃ (s : State) (g : Nat) (p : Popped) (fl : Nat) (addr : Nat) (rb : Nat) (r : Remote), g < 64 ∧ s.popFrame g 0xE6 = some p ∧ p.ok
      = true ∧ s.dev.concentrator = false ∧ fl = wbits p.hdr 38 6 + 1 ∧ addr = bytesAt p.bytes 0 8 % 2 ^ 41 ∧ rb = s.rowBytes g ∧
      wbits p.hdr 22 8 = (s.grpSt g).rxSeq ∧ wbits p.hdr 58 6 = s.dev.partId ∧ s.txOpen g ∧ wbits p.hdr 48 4 = 3 ∧
      s.link.remotes.find? (fun x => x.part == wbits p.hdr 52 6 && x.tag == wbits p.hdr 30 8 && x.write) = some r ∧ r.next = none) :=
  ⟨⟨st90, 4, (st90.popFrame 4 0xE6).getD ⟨0, [], false, 0, 0, st90⟩, 1, 0x13FFFFFE0, 8, by decide +kernel, some_getD
     (by decide +kernel), by decide +kernel, by decide +kernel, by decide +kernel, by decide +kernel, by decide +kernel,
     by decide +kernel, by decide +kernel, (by unfold State.txOpen State.txClear; decide +kernel), by decide +kernel,
     by decide +kernel, by decide +kernel⟩,
   ⟨st91, 4, (st91.popFrame 4 0xE6).getD ⟨0, [], false, 0, 0, st91⟩, 1, 0x13FFFFFE0, 8, by decide +kernel, some_getD
     (by decide +kernel), by decide +kernel, by decide +kernel, by decide +kernel, by decide +kernel, by decide +kernel,
     by decide +kernel, by decide +kernel, (by unfold State.txOpen State.txClear; decide +kernel), by decide +kernel,
     by decide +kernel, by decide +kernel⟩,
   ⟨st92, 4, (st92.popFrame 4 0xE6).getD ⟨0, [], false, 0, 0, st92⟩, 1, 0, 8,
     { rem false false false with who := .window, len := 2048, next := some 9 }, true, 64, 9, by decide +kernel, some_getD
     (by decide +kernel), by decide +kernel, by decide +kernel, by decide +kernel, by decide +kernel, by decide +kernel,
     by decide +kernel, by decide +kernel, (by unfold State.txOpen State.txClear; decide +kernel), by decide +kernel,
     by decide +kernel, by decide +kernel, by decide +kernel, by decide +kernel⟩,
   ⟨st93, 4, (st93.popFrame 4 0xE6).getD ⟨0, [], false, 0, 0, st93⟩, 1, 0, 8, { rem false false false with who := .window }, true, 1,
     by decide +kernel, some_getD (by decide +kernel), by decide +kernel, by decide +kernel, by decide +kernel, by decide +kernel,
     by decide +kernel, by decide +kernel, by decide +kernel, (by unfold State.txOpen State.txClear; decide +kernel),
     by decide +kernel, by decide +kernel, by decide +kernel, by decide +kernel, by decide +kernel, by decide +kernel,
     by decide +kernel, by decide +kernel, by decide +kernel⟩,
   ⟨st94, 4, (st94.popFrame 4 0xE6).getD ⟨0, [], false, 0, 0, st94⟩, 1, 0, 8, rem false false false, true, 1, 2, 5, 1, 3, 9,
     by decide +kernel, some_getD (by decide +kernel), by decide +kernel, by decide +kernel, by decide +kernel, by decide +kernel,
     by decide +kernel, by decide +kernel, by decide +kernel, (by unfold State.txOpen State.txClear; decide +kernel),
     by decide +kernel, by decide +kernel, by decide +kernel, by decide +kernel, by decide +kernel, by decide +kernel,
     by decide +kernel, by decide +kernel, by decide +kernel⟩,
   ⟨st95, 4, (st95.popFrame 4 0xE6).getD ⟨0, [], false, 0, 0, st95⟩, 1, 0, 8,
     { rem false false false with who := .command .spi 8 Op.debugRead }, true, 1, .spi, 8, Op.debugRead, by decide +kernel, some_getD
     (by decide +kernel), by decide +kernel, by decide +kernel, by decide +kernel, by decide +kernel, by decide +kernel,
     by decide +kernel, by decide +kernel, (by unfold State.txOpen State.txClear; decide +kernel), by decide +kernel,
     by decide +kernel, by decide +kernel, by decide +kernel, by decide +kernel, by decide +kernel, by decide +kernel,
     by decide +kernel, by decide +kernel⟩,
   ⟨st96, 4, (st96.popFrame 4 0xE6).getD ⟨0, [], false, 0, 0, st96⟩, 1, 0, 8, rem true false false, by decide +kernel, some_getD
     (by decide +kernel), by decide +kernel, by decide +kernel, by decide +kernel, by decide +kernel, by decide +kernel,
     by decide +kernel, by decide +kernel, (by unfold State.txOpen State.txClear; decide +kernel), by decide +kernel,
     by decide +kernel, by decide +kernel⟩⟩

theorem meets_RemoteMemory_2 :
    (∃ (s : State) (g : Nat) (p : Popped) (fl : Nat) (addr : Nat) (rb : Nat), g < 64 ∧ s.popFrame g 0xE6 = some p ∧ p.ok = true ∧
      s.dev.concentrator = false ∧ fl = wbits p.hdr 38 6 + 1 ∧ addr = bytesAt p.bytes 0 8 % 2 ^ 41 ∧ rb = s.rowBytes g ∧ wbits p.hdr
      48 4 = 4 ∧ wbits p.hdr 58 6 = s.dev.partId ∧ 0x100000000 ≤ addr ∧ addr + 32 * fl ≤ 0x140000000 ∧ (∃ e ∈ s.ant.slots, e.2.port =
      0x180 + linkStop addr ∧ e.2.owner = linkOwner (wbits p.hdr 52 6)) ∧ s.banks.opened = []) ∧
    (∃ (s : State) (g : Nat) (p : Popped) (fl : Nat) (addr : Nat) (rb : Nat), g < 64 ∧ s.popFrame g 0xE6 = some p ∧ p.ok = true ∧
      s.dev.concentrator = false ∧ fl = wbits p.hdr 38 6 + 1 ∧ addr = bytesAt p.bytes 0 8 % 2 ^ 41 ∧ rb = s.rowBytes g ∧ wbits p.hdr
      48 4 = 4 ∧ wbits p.hdr 58 6 = s.dev.partId ∧ 0x100000000 ≤ addr ∧ addr + 32 * fl ≤ 0x140000000 ∧ s.txClear g ∧ (∀ e ∈
      s.ant.slots, e.2.port ≠ 0x180 + linkStop addr ∨ e.2.owner ≠ linkOwner (wbits p.hdr 52 6))) ∧
    (∃ (s : State) (g : Nat) (p : Popped) (fl : Nat) (addr : Nat) (rb : Nat), g < 64 ∧ s.popFrame g 0xE6 = some p ∧ p.ok = true ∧
      s.dev.concentrator = false ∧ fl = wbits p.hdr 38 6 + 1 ∧ addr = bytesAt p.bytes 0 8 % 2 ^ 41 ∧ rb = s.rowBytes g ∧ wbits p.hdr
      48 4 = 5 ∧ wbits p.hdr 58 6 = s.dev.partId) ∧
    (∃ (s : State) (g : Nat) (r : Remote) (tile : Nat) (lc : Nat) (k : Nat) (dq : Nat) (ev : W8) (longer : _), g < 64 ∧
      s.link.remotes.find? (fun x => x.group == g && x.classT) = some r ∧ r.who = .core tile lc k dq ev ∧ longer =
      (s.grpSt g).declRt.any (fun d => decide (d < s.rdF (Reg.rtMeas g) 0 16)) ∧ r.answered = true ∧ r.status = 0 ∧ longer = false) ∧
    (∃ (s : State) (g : Nat) (r : Remote) (tile : Nat) (lc : Nat) (k : Nat) (dq : Nat) (ev : W8) (longer : _), g < 64 ∧
      s.link.remotes.find? (fun x => x.group == g && x.classT) = some r ∧ r.who = .core tile lc k dq ev ∧ longer =
      (s.grpSt g).declRt.any (fun d => decide (d < s.rdF (Reg.rtMeas g) 0 16)) ∧ (r.answered = false ∨ longer = true)) ∧
    (∃ (s : State) (g : Nat) (r : Remote) (tile : Nat) (lc : Nat) (k : Nat) (dq : Nat) (ev : W8) (longer : _), g < 64 ∧
      s.link.remotes.find? (fun x => x.group == g && x.classT) = some r ∧ r.who = .core tile lc k dq ev ∧ longer =
      (s.grpSt g).declRt.any (fun d => decide (d < s.rdF (Reg.rtMeas g) 0 16)) ∧ (r.answered = false ∨ longer = true)) :=
  ⟨⟨st97, 4, (st97.popFrame 4 0xE6).getD ⟨0, [], false, 0, 0, st97⟩, 1, 0x13FFFFFE0, 8, by decide +kernel, some_getD
     (by decide +kernel), by decide +kernel, by decide +kernel, by decide +kernel, by decide +kernel, by decide +kernel,
     by decide +kernel, by decide +kernel, by decide +kernel, by decide +kernel, by decide +kernel, by decide +kernel⟩,
   ⟨st98, 4, (st98.popFrame 4 0xE6).getD ⟨0, [], false, 0, 0, st98⟩, 1, 0x13FFFFFE0, 8, by decide +kernel, some_getD
     (by decide +kernel), by decide +kernel, by decide +kernel, by decide +kernel, by decide +kernel, by decide +kernel,
     by decide +kernel, by decide +kernel, by decide +kernel, by decide +kernel, (by unfold State.txClear; decide +kernel),
     by decide +kernel⟩,
   ⟨st99, 4, (st99.popFrame 4 0xE6).getD ⟨0, [], false, 0, 0, st99⟩, 1, 0, 8, by decide +kernel, some_getD (by decide +kernel),
     by decide +kernel, by decide +kernel, by decide +kernel, by decide +kernel, by decide +kernel, by decide +kernel,
     by decide +kernel⟩,
   ⟨st100, 4, rem false true true, 2, 5, 1, 3, 9, _, by decide +kernel, by decide +kernel, by decide +kernel, rfl, by decide +kernel,
     by decide +kernel, by decide +kernel⟩,
   ⟨st101, 4, rem false true false, 2, 5, 1, 3, 9, _, by decide +kernel, by decide +kernel, by decide +kernel, rfl,
     by decide +kernel⟩,
   ⟨st102, 4, rem false true true, 2, 5, 1, 3, 9, _, by decide +kernel, by decide +kernel, by decide +kernel, rfl, by decide +kernel⟩⟩

def st103 : State := (fun (z : State) => { z with dev.concentrator := true })
  (w0.wr64 (Reg.outStream 63) (BitVec.ofNat 64 (2 ^ 63 + 4 * 2 ^ 57)))
def st104 : State := { w0 with link.groups := [(63, { GroupSt.init with timeCount := 3 })] }
theorem meets_LinkSetupCommands :
    (∃ (s : State) (h : Hdr) (id : _), s.ready h Op.linkPersonality = true ∧ id < 64) ∧
    (∃ (s : State) (h : Hdr) (id : _), s.ready h Op.linkPersonality = true ∧ 64 ≤ id) ∧
    (∃ (s : State) (h : Hdr) (part : _) (v : _) (grp : _), s.ready h Op.meshRoute = true ∧ part < 64 ∧ grp < 64 ∧ ¬(v = true ∧ grp =
      63 ∧ bit (s.rd Reg.twinCfg) 31 = true)) ∧
    (∃ (s : State) (h : Hdr) (part : _) (v : _) (grp : _), s.ready h Op.meshRoute = true ∧ part < 64 ∧ grp < 64 ∧ v = true ∧ grp = 63
      ∧ bit (s.rd Reg.twinCfg) 31 = true) ∧
    (∃ (s : State) (h : Hdr) (f : _) (cfg : _) (dest : _) (ex : _), s.ready h Op.linkField = true ∧ f < 1024 ∧ fieldOk cfg dest ex =
      true ∧ (bit (s.rd (Reg.fieldEnt f)) 31 = false ∨ bit (s.rd (Reg.fieldEnt f)) 30 = false) ∧ fld dest 0 4 = 0 ∧
      (bit cfg 31 = true → s.mayTakeIn (fld cfg 23 6) = true)) :=
  ⟨⟨w0, hS, 63, by decide +kernel, by decide +kernel⟩,
   ⟨w0, hS, 64, by decide +kernel, by decide +kernel⟩,
   ⟨w0, hS, 63, true, 63, by decide +kernel, by decide +kernel, by decide +kernel, by decide +kernel⟩,
   ⟨w0.wr Reg.twinCfg 0x80000000, hS, 63, true, 63, by decide +kernel, by decide +kernel, by decide +kernel, by decide +kernel,
     by decide +kernel, by decide +kernel⟩,
   ⟨w0, hS, 1023, 0xC2008000, 0x38000000, 0x00400000, by decide +kernel, by decide +kernel, by decide +kernel, by decide +kernel,
     by decide +kernel, by decide +kernel⟩⟩

theorem meets_LinkSetupCommands_2 :
    (∃ (s : State) (h : Hdr) (f : _) (cfg : _) (dest : _) (ex : _), s.ready h Op.linkField = true ∧ f < 1024 ∧ fieldOk cfg dest ex =
      true ∧ (bit (s.rd (Reg.fieldEnt f)) 31 = false ∨ bit (s.rd (Reg.fieldEnt f)) 30 = false) ∧ fld dest 0 4 = 0 ∧ bit cfg 31 = true
      ∧ s.mayTakeIn (fld cfg 23 6) = false) ∧
    (∃ (s : State) (h : Hdr) (st : _) (entry : _) (items : _), s.ready h Op.linkAggregate = true ∧ s.aggregateRej st entry items =
      none ∧ st < 64) ∧
    (∃ (s : State) (h : Hdr) (g : _), s.ready h Op.timeFrame = true ∧ g < 64 ∧ bit (s.rd (Reg.grpCfg g)) 31 = true) ∧
    (∃ (s : State) (h : Hdr) (g : _), s.ready h Op.timeFrameRead = true ∧ g < 64) :=
  ⟨⟨st103, hS, 1023, 0xC2008000, 0x38000000, 0x00400000, by decide +kernel, by decide +kernel, by decide +kernel, by decide +kernel,
     by decide +kernel, by decide +kernel, by decide +kernel⟩,
   ⟨w0, hS, 63, 0, [], by decide +kernel, by decide +kernel, by decide +kernel⟩,
   ⟨wBl [], hS, 4, by decide +kernel, by decide +kernel, by decide +kernel⟩,
   ⟨st104, hS, 63, by decide +kernel, by decide +kernel⟩⟩

theorem meets_FrontEndConfiguration :
    (∃ (s : State) (h : Hdr) (ticks : Nat) (cycle : Nat) (chs : List (Nat × W32 × W32)), s.ready h Op.feConfig = true ∧ ticks < 16 ∧
      cycle < s.cTick / 2 ∧ chs.length ≤ 1024 ∧ (∀ e ∈ chs, e.1 < 1024) ∧ (∀ ch : Nat, ch < 1024 → (s.feConfigure ticks cycle
      chs).channelOk ch = true)) ∧
    (∃ (s : State) (h : Hdr) (cycle : Nat), s.ready h Op.feConfig = true ∧ s.cTick / 2 ≤ cycle) ∧
    (∃ (s : State) (h : Hdr) (ents : List (Nat × W32 × W32 × W32)), s.ready h Op.primConfig = true ∧ 1 ≤ ents.length ∧ ents.length ≤
      64 ∧ (∀ e ∈ ents, e.1 < 2048 ∧ 1 ≤ fld e.2.2.1 16 16 ∧ fld e.2.1 16 10 / 256 = e.1 / 512 ∧ bit
      (s.rd (Reg.sch (fld e.2.1 16 10))) 31 = true)) ∧
    (∃ (s : State) (h : Hdr) (ents : List (Nat × W32 × W32 × W32)), s.ready h Op.primConfig = true ∧ (∃ e ∈ ents, fld e.2.2.1 16 16 =
      0)) ∧
    (∃ (s : State) (h : Hdr) (ents : List (Nat × W32 × W32)), s.ready h Op.clickConfig = true ∧ 1 ≤ ents.length ∧ ents.length ≤ 64 ∧
      (∀ e ∈ ents, e.1 < 64 ∧ 2 ≤ fld e.2.2 0 16 ∧ (bit e.2.1 31 = true → fld e.2.1 29 2 ≠ 0))) :=
  ⟨⟨wTick w0, hS, 15, 249, [(1023, 0x00000FFF, 5)], by decide +kernel, by decide +kernel, by decide +kernel, by decide +kernel,
     by decide +kernel, by decide +kernel⟩,
   ⟨wTick w0, hS, 250, by decide +kernel, by decide +kernel⟩,
   ⟨wSmp, hS, [(511, 0x80050000, 0x00010064, 0)], by decide +kernel, by decide +kernel, by decide +kernel, by decide +kernel⟩,
   ⟨wTick w0, hS, [(511, 0x80050000, 100, 0)], by decide +kernel, by decide +kernel⟩,
   ⟨wTick w0, hS, [(63, 0xA0000000, 2)], by decide +kernel, by decide +kernel, by decide +kernel, by decide +kernel⟩⟩

theorem meets_FrontEndConfiguration_2 :
    (∃ (s : State) (h : Hdr) (ents : List (Nat × W32 × W32)), s.ready h Op.clickConfig = true ∧ (∃ e ∈ ents, fld e.2.2 0 16 < 2)) ∧
    (∃ (s : State) (h : Hdr) (pairs : List (Nat × W32)), s.ready h Op.combConfig = true ∧ 1 ≤ pairs.length ∧ pairs.length ≤ 2045 ∧ (∀
      e ∈ pairs, (combMask e.1).isSome = true) ∧ (∀ k : Nat, k < 64 → (s.combConfigure pairs).condOk k = true) ∧ (∀ j : Nat, j < 8 →
      (s.combConfigure pairs).rdF (Reg.dec j) 0 16 ≠ 0)) ∧
    (∃ (s : State) (h : Hdr) (pairs : List (Nat × W32)), s.ready h Op.combConfig = true ∧ (∃ e ∈ pairs, combMask e.1 = none)) ∧
    (∃ (s : State) (h : Hdr) (pairs : List (Nat × W32)), s.ready h Op.combConfig = true ∧ (∃ k, k < 64 ∧ bit ((s.combConfigure
      pairs).rd (Reg.cond k)) 31 = true ∧ (s.combConfigure pairs).counting k = [])) :=
  ⟨⟨wTick w0, hS, [(63, 0xA0000000, 1)], by decide +kernel, by decide +kernel⟩,
   ⟨wTick w0, hS, [(0x1000, 0x80000000), (0x1008, 0x80038003)], by decide +kernel, by decide +kernel, by decide +kernel,
     by decide +kernel, by decide +kernel, by decide +kernel⟩,
   ⟨wTick w0, hS, [(0, 0)], by decide +kernel, by decide +kernel⟩,
   ⟨wTick w0, hS, [(0x1000, 0x80000000)], by decide +kernel, ⟨0, by decide +kernel⟩⟩⟩

def st105 : State := { w0 with fe.primSets := [⟨0, 2047, true, 5, 6⟩] }
def st106 : State := { w0 with fe.primSets := [⟨1, 2047, true, 5, 6⟩] }
def st107 : State := { w0 with fe.condSets := [⟨0, 63, 4095, 15, 65535⟩] }
def st108 : State := { w0 with fe.condSets := [⟨1, 63, 4095, 15, 65535⟩] }
def st109 : State := { w0 with fe.trigSets := [(0, true, some 9)] }
def st110 : State := { w0 with fe.trigSets := [(1, true, some 9)] }
theorem meets_SettingsWaitForTheirStrobe :
    (∃ (s : State) (h : Hdr) (st : W32) (ents : List (Nat × Bool × W32 × W32)), s.ready h Op.primSet = true ∧ s.strobeOk st = true ∧
      1 ≤ ents.length ∧ ents.length ≤ 64 ∧ (∀ e ∈ ents, e.1 < 2048 ∧ 1 ≤ fld e.2.2.1 16 16)) ∧
    (∃ (s : State) (h : Hdr) (st : W32), s.ready h Op.primSet = true ∧ st ≠ 0 ∧ tickDiff st s.tickId < 2) ∧
    (∃ (s : State) (h : Hdr) (st : W32) (ents : List (Nat × Nat × Nat × Nat)), s.ready h Op.condSet = true ∧ s.strobeOk st = true ∧ 1
      ≤ ents.length ∧ ents.length ≤ 64 ∧ (∀ e ∈ ents, e.1 < 64 ∧ e.2.1 < 4096 ∧ e.2.2.1 < 16 ∧ e.2.2.2 < 65536 ∧
      (fld (s.rd (Reg.cond e.1)) 28 3 = 3 → e.2.2.1 + 1 ≤ (s.counting e.1).length))) ∧
    (∃ (s : State) (h : Hdr) (st : W32) (en : Bool) (num : Option W32), s.ready h Op.trigEnable = true ∧ s.strobeOk st = true ∧ num ≠
      some 0 ∧ (s.dev.state = .halted → en = false)) ∧
    (∃ (s : State) (h : Hdr) (en : Bool), s.ready h Op.trigEnable = true ∧ s.dev.state = .halted ∧ en = true) ∧
    (∃ (s : State) (x : PrimSet) (n : W32), s.fe.primSets = [x] ∧ n = s.tickId - BitVec.ofNat 32 (s.rdF Reg.feCfg 24 4 + (if s.rdF
      Reg.feCfg 0 15 = 0 then 0 else 1)) ∧ tickReached n x.strobe = true) :=
  ⟨⟨wTick w0, hS, 2, [(2047, true, 0x00010000, 0xFFFFFFFF)], by decide +kernel, by decide +kernel, by decide +kernel,
     by decide +kernel, by decide +kernel⟩,
   ⟨wTick w0, hS, 1, by decide +kernel, by decide +kernel, by decide +kernel⟩,
   ⟨wTick w0, hS, 2, [(63, 4095, 15, 65535)], by decide +kernel, by decide +kernel, by decide +kernel, by decide +kernel,
     by decide +kernel⟩,
   ⟨wTick w0, hS, 2, true, none, by decide +kernel, by decide +kernel, by decide +kernel, by decide +kernel⟩,
   ⟨st28, hS, true, by decide +kernel, by decide +kernel, by decide +kernel⟩,
   ⟨st105, ⟨0, 2047, true, 5, 6⟩, _, by decide +kernel, rfl, by decide +kernel⟩⟩

theorem meets_SettingsWaitForTheirStrobe_2 :
    (∃ (s : State) (x : PrimSet) (n : W32), s.fe.primSets = [x] ∧ n = s.tickId - BitVec.ofNat 32 (s.rdF Reg.feCfg 24 4 + (if s.rdF
      Reg.feCfg 0 15 = 0 then 0 else 1)) ∧ tickReached n x.strobe = false) ∧
    (∃ (s : State) (x : CondSet), s.fe.condSets = [x] ∧ x.wM1 < 4096 ∧ x.nM1 < 16 ∧ x.holdoff < 65536 ∧ tickReached s.tickId x.strobe
      = true) ∧
    (∃ (s : State) (x : CondSet), s.fe.condSets = [x] ∧ x.wM1 < 4096 ∧ x.nM1 < 16 ∧ x.holdoff < 65536 ∧ tickReached s.tickId x.strobe
      = false) ∧
    (∃ (s : State) (d : W32) (en : Bool) (num : Option W32), s.fe.trigSets = [(d, en, num)] ∧ s.fe.forming = [] ∧ tickReached
      s.tickId d = true) ∧
    (∃ (s : State) (d : W32) (en : Bool) (num : Option W32), s.fe.trigSets = [(d, en, num)] ∧ s.fe.forming = [] ∧ tickReached
      s.tickId d = false) :=
  ⟨⟨st106, ⟨1, 2047, true, 5, 6⟩, _, by decide +kernel, rfl, by decide +kernel⟩,
   ⟨st107, ⟨0, 63, 4095, 15, 65535⟩, by decide +kernel, by decide +kernel, by decide +kernel, by decide +kernel, by decide +kernel⟩,
   ⟨st108, ⟨1, 63, 4095, 15, 65535⟩, by decide +kernel, by decide +kernel, by decide +kernel, by decide +kernel, by decide +kernel⟩,
   ⟨st109, 0, true, some 9, by decide +kernel, by decide +kernel, by decide +kernel⟩,
   ⟨st110, 1, true, some 9, by decide +kernel, by decide +kernel, by decide +kernel⟩⟩

def st111 : State := { (wClk 0xB0000000).wr Reg.tsCfg 0x80000000 with fe.clickLast := [(63, 247)] }
def st112 : State := { (wClk 0xA0000000).wr (Reg.click 63 + 4) 3 with fe.clickLast := [(63, 247)] }
def st113 : State := { w0 with fe.calBusy := 2 ^ 63 }
def st114 : State := { wAsy [asy Op.clickCal (2 ^ 63) 0] with fe.calBusy := 2 ^ 63 }
theorem meets_ClickUnitsCaptureEdges :
    (∃ (s : State) (u : Nat) (rising : Bool) (cyc : Nat) (fine : Nat) (c : Nat) (x : Stamp), s.hubOn = true ∧ u < 64 ∧ cyc < s.cTick
      / 2 ∧ fine < 512 ∧ bit (s.rd (Reg.click u)) 31 = true ∧ nbit s.fe.calBusy u = false ∧ bit (s.rd (Reg.click u))
      (if rising then 29 else 30) = true ∧ s.relayStandby = false ∧ s.relayPrimary = false ∧ s.tod.fab ≤ s.tod.tickFab + 2 * cyc ∧ c
      = (s.tod.tickFab + 2 * cyc) / 2 ∧ x = stampOf ((s.atCycle (2 * cyc)).todIn (5 *
      (if bit (s.rd (Reg.click u + 0x18)) 31 then fine else 0))) ∧
      (SMap.get 0 s.fe.clickLast u = 0 ∨ SMap.get 0 s.fe.clickLast u - 1 + s.rdF (Reg.click u + 4) 0 16 < c) ∧ bit
      (s.rd (Reg.click u)) 28 = false) ∧
    (∃ (s : State) (u : Nat) (rising : Bool) (cyc : Nat) (fine : Nat) (c : Nat) (x : Stamp), s.hubOn = true ∧ u < 64 ∧ cyc < s.cTick
      / 2 ∧ fine < 512 ∧ bit (s.rd (Reg.click u)) 31 = true ∧ nbit s.fe.calBusy u = false ∧ bit (s.rd (Reg.click u))
      (if rising then 29 else 30) = true ∧ s.relayStandby = false ∧ s.relayPrimary = false ∧ s.tod.fab ≤ s.tod.tickFab + 2 * cyc ∧ c
      = (s.tod.tickFab + 2 * cyc) / 2 ∧ x = stampOf ((s.atCycle (2 * cyc)).todIn (5 *
      (if bit (s.rd (Reg.click u + 0x18)) 31 then fine else 0))) ∧
      (SMap.get 0 s.fe.clickLast u = 0 ∨ SMap.get 0 s.fe.clickLast u - 1 + s.rdF (Reg.click u + 4) 0 16 < c) ∧ bit
      (s.rd (Reg.click u)) 28 = true ∧ bit (s.rd Reg.tsCfg) 31 = true ∧ s.stagedOf (68 + u / 16) < 128 ∧
      (s.gapOf (68 + u / 16)).dropped = 0) ∧
    (∃ (s : State) (u : Nat) (rising : Bool) (cyc : Nat) (fine : Nat) (c : Nat) (x : Stamp), s.hubOn = true ∧ u < 64 ∧ cyc < s.cTick
      / 2 ∧ fine < 512 ∧ bit (s.rd (Reg.click u)) 31 = true ∧ nbit s.fe.calBusy u = false ∧ bit (s.rd (Reg.click u))
      (if rising then 29 else 30) = true ∧ s.relayStandby = false ∧ s.relayPrimary = false ∧ s.tod.fab ≤ s.tod.tickFab + 2 * cyc ∧ c
      = (s.tod.tickFab + 2 * cyc) / 2 ∧ x = stampOf ((s.atCycle (2 * cyc)).todIn (5 *
      (if bit (s.rd (Reg.click u + 0x18)) 31 then fine else 0))) ∧ 0 < SMap.get 0 s.fe.clickLast u ∧ c ≤ SMap.get 0 s.fe.clickLast u
      - 1 + s.rdF (Reg.click u + 4) 0 16) ∧
    (∃ (s : State) (h : Hdr) (mask : Nat), s.ready h Op.clickCal = true ∧ mask < 2 ^ 64 ∧ Nat.land mask s.fe.calBusy = 0 ∧
      s.shedStage = 0) ∧
    (∃ (s : State) (h : Hdr) (mask : Nat), s.ready h Op.clickCal = true ∧ mask < 2 ^ 64 ∧ Nat.land mask s.fe.calBusy ≠ 0) ∧
    (∃ (s : State) (res : List CalResult) (a : Async), (∀ r ∈ res, r.unit < 64) ∧ s.openOf Op.clickCal = [a] ∧ a.mask = calMask res ∧
      (∀ r ∈ res, calOk r = true)) ∧
    (∃ (s : State) (res : List CalResult) (a : Async) (r : _), (∀ r ∈ res, r.unit < 64) ∧ s.openOf Op.clickCal = [a] ∧ a.mask =
      calMask res ∧ res = [r] ∧ calOk r = false) :=
  ⟨⟨wClk 0xA0000000, 63, true, 249, 511, _, _, by decide +kernel, by decide +kernel, by decide +kernel, by decide +kernel,
     by decide +kernel, by decide +kernel, by decide +kernel, by decide +kernel, by decide +kernel, by decide +kernel, rfl, rfl,
     by decide +kernel, by decide +kernel⟩,
   ⟨st111, 63, true, 249, 511, _, _, by decide +kernel, by decide +kernel, by decide +kernel, by decide +kernel, by decide +kernel,
     by decide +kernel, by decide +kernel, by decide +kernel, by decide +kernel, by decide +kernel, rfl, rfl, by decide +kernel,
     by decide +kernel, by decide +kernel, by decide +kernel, by decide +kernel⟩,
   ⟨st112, 63, true, 249, 511, _, _, by decide +kernel, by decide +kernel, by decide +kernel, by decide +kernel, by decide +kernel,
     by decide +kernel, by decide +kernel, by decide +kernel, by decide +kernel, by decide +kernel, rfl, rfl, by decide +kernel,
     by decide +kernel⟩,
   ⟨wClk 0xA0000000, hS, 2 ^ 63, by decide +kernel, by decide +kernel, by decide +kernel, by decide +kernel⟩,
   ⟨st113, hS, 2 ^ 63, by decide +kernel, by decide +kernel, by decide +kernel⟩,
   ⟨st114, [⟨63, 600, false⟩], asy Op.clickCal (2 ^ 63) 0, by decide +kernel, by decide +kernel, by decide +kernel,
     by decide +kernel⟩,
   ⟨st114, [⟨63, 601, false⟩], asy Op.clickCal (2 ^ 63) 0, ⟨63, 601, false⟩, by decide +kernel, by decide +kernel, by decide +kernel,
     by decide +kernel, by decide +kernel⟩⟩

def st115 : State := { wPrim 1800 true with link.frames := [] }
theorem meets_PrimitivesFireOnCrossings :
    (∃ (s : State) (ch : Nat) (j : Nat) (w : Nat) (c : Nat) (n : W32) (bs : _), s.hubOn = true ∧ ch < 1024 ∧ j < 32768 ∧ bit (s.rd
      (Reg.sch ch)) 31 = true ∧ j < s.perEvent ch ∧ w = s.rdF Reg.feCfg 0 15 + j * 2 ^ s.decim ch ∧ c = s.tod.tickFab / 2 + w % max 1
      (s.cTick / 2) ∧ n = s.tickId - BitVec.ofNat 32 (s.rdF Reg.feCfg 24 4 + w / max 1 (s.cTick / 2)) ∧ SMap.get 0 s.fe.entered ch ≤
      c ∧ s.reach (2 * c) = true ∧ s.tod.fab ≤ 2 * c ∧ s.fe.primSets = [] ∧ (∀ g : Nat, g < 64 → s.covers g ch = false) ∧ (∀ u : Nat,
      u < 1024 → s.chgEn u = true → s.rdF (Reg.chg u) 0 10 ≠ ch) ∧ s.payloadBytes (s.rdF (Reg.sch ch) 21 6) (s.rdF (Reg.sch ch) 13 8)
      n (s.rdF (Reg.sch ch + 4) 0 15 + 2 * j) 2 = .ok bs ∧ s.primsOf ch = []) ∧
    (∃ (s : State) (ch : Nat) (j : Nat) (w : Nat) (c : Nat) (n : W32) (bs : _) (p : Nat) (x : Int) (y : Int) (l : Int), s.hubOn =
      true ∧ ch < 1024 ∧ j < 32768 ∧ bit (s.rd (Reg.sch ch)) 31 = true ∧ j < s.perEvent ch ∧ w = s.rdF Reg.feCfg 0 15 + j * 2 ^
      s.decim ch ∧ c = s.tod.tickFab / 2 + w % max 1 (s.cTick / 2) ∧ n = s.tickId - BitVec.ofNat 32
      (s.rdF Reg.feCfg 24 4 + w / max 1 (s.cTick / 2)) ∧ SMap.get 0 s.fe.entered ch ≤ c ∧ s.reach (2 * c) = true ∧ s.tod.fab ≤ 2 * c
      ∧ s.fe.primSets = [] ∧ (∀ g : Nat, g < 64 → s.covers g ch = false) ∧
      (∀ u : Nat, u < 1024 → s.chgEn u = true → s.rdF (Reg.chg u) 0 10 ≠ ch) ∧ s.payloadBytes (s.rdF (Reg.sch ch) 21 6)
      (s.rdF (Reg.sch ch) 13 8) n (s.rdF (Reg.sch ch + 4) 0 15 + 2 * j) 2 = .ok bs ∧ s.primsOf ch = [p] ∧ bit (s.rd (Reg.prim p)) 29
      = false ∧ x = s.sampleVal ch (BitVec.ofNat 16 (ofBytesLE bs)) ∧ y = (if bit (s.rd (Reg.prim p)) 30 then -x else x) ∧ l =
      (if bit (s.rd (Reg.prim p)) 30 then -s.primLevel p ch else s.primLevel p ch) ∧ bit (s.rd (Reg.prim p + 0x1C)) 31 = false ∧ y ≤
      l - s.rdF (Reg.prim p + 4) 16 16) :=
  ⟨⟨wSmp, 5, 0, _, _, _, [8, 7], by decide +kernel, by decide +kernel, by decide +kernel, by decide +kernel, by decide +kernel, rfl,
     rfl, rfl, by decide +kernel, by decide +kernel, by decide +kernel, by decide +kernel, by decide +kernel, chg_off 5
     (by decide +kernel), ok_of (by decide +kernel), by decide +kernel⟩,
   ⟨wPrim 1810 false, 5, 0, _, _, _, [8, 7], 511, _, _, _, by decide +kernel, by decide +kernel, by decide +kernel,
     by decide +kernel, by decide +kernel, rfl, rfl, rfl, by decide +kernel, by decide +kernel, by decide +kernel, by decide +kernel,
     by decide +kernel, chg_off 5 (by decide +kernel), ok_of (by decide +kernel), by decide +kernel, by decide +kernel, rfl, rfl,
     rfl, by decide +kernel, by decide +kernel⟩⟩

theorem meets_PrimitivesFireOnCrossings_2 :
    (∃ (s : State) (ch : Nat) (j : Nat) (w : Nat) (c : Nat) (n : W32) (bs : _) (p : Nat) (x : Int) (y : Int) (l : Int), s.hubOn =
      true ∧ ch < 1024 ∧ j < 32768 ∧ bit (s.rd (Reg.sch ch)) 31 = true ∧ j < s.perEvent ch ∧ w = s.rdF Reg.feCfg 0 15 + j * 2 ^
      s.decim ch ∧ c = s.tod.tickFab / 2 + w % max 1 (s.cTick / 2) ∧ n = s.tickId - BitVec.ofNat 32
      (s.rdF Reg.feCfg 24 4 + w / max 1 (s.cTick / 2)) ∧ SMap.get 0 s.fe.entered ch ≤ c ∧ s.reach (2 * c) = true ∧ s.tod.fab ≤ 2 * c
      ∧ s.fe.primSets = [] ∧ (∀ g : Nat, g < 64 → s.covers g ch = false) ∧
      (∀ u : Nat, u < 1024 → s.chgEn u = true → s.rdF (Reg.chg u) 0 10 ≠ ch) ∧ s.payloadBytes (s.rdF (Reg.sch ch) 21 6)
      (s.rdF (Reg.sch ch) 13 8) n (s.rdF (Reg.sch ch + 4) 0 15 + 2 * j) 2 = .ok bs ∧ s.primsOf ch = [p] ∧ bit (s.rd (Reg.prim p)) 29
      = false ∧ x = s.sampleVal ch (BitVec.ofNat 16 (ofBytesLE bs)) ∧ y = (if bit (s.rd (Reg.prim p)) 30 then -x else x) ∧ l =
      (if bit (s.rd (Reg.prim p)) 30 then -s.primLevel p ch else s.primLevel p ch) ∧ bit (s.rd (Reg.prim p + 0x1C)) 31 = true ∧ y <
      l) ∧
    (∃ (s : State) (ch : Nat) (j : Nat) (w : Nat) (c : Nat) (n : W32) (bs : _) (p : Nat) (x : Int) (y : Int) (l : Int), s.hubOn =
      true ∧ ch < 1024 ∧ j < 32768 ∧ bit (s.rd (Reg.sch ch)) 31 = true ∧ j < s.perEvent ch ∧ w = s.rdF Reg.feCfg 0 15 + j * 2 ^
      s.decim ch ∧ c = s.tod.tickFab / 2 + w % max 1 (s.cTick / 2) ∧ n = s.tickId - BitVec.ofNat 32
      (s.rdF Reg.feCfg 24 4 + w / max 1 (s.cTick / 2)) ∧ SMap.get 0 s.fe.entered ch ≤ c ∧ s.reach (2 * c) = true ∧ s.tod.fab ≤ 2 * c
      ∧ s.fe.primSets = [] ∧ (∀ g : Nat, g < 64 → s.covers g ch = false) ∧
      (∀ u : Nat, u < 1024 → s.chgEn u = true → s.rdF (Reg.chg u) 0 10 ≠ ch) ∧ s.payloadBytes (s.rdF (Reg.sch ch) 21 6)
      (s.rdF (Reg.sch ch) 13 8) n (s.rdF (Reg.sch ch + 4) 0 15 + 2 * j) 2 = .ok bs ∧ s.primsOf ch = [p] ∧ bit (s.rd (Reg.prim p)) 29
      = false ∧ x = s.sampleVal ch (BitVec.ofNat 16 (ofBytesLE bs)) ∧ y = (if bit (s.rd (Reg.prim p)) 30 then -x else x) ∧ l =
      (if bit (s.rd (Reg.prim p)) 30 then -s.primLevel p ch else s.primLevel p ch) ∧ bit (s.rd (Reg.prim p + 0x1C)) 31 = true ∧ l ≤
      y) :=
  ⟨⟨wPrim 1801 true, 5, 0, _, _, _, [8, 7], 511, _, _, _, by decide +kernel, by decide +kernel, by decide +kernel, by decide +kernel,
     by decide +kernel, rfl, rfl, rfl, by decide +kernel, by decide +kernel, by decide +kernel, by decide +kernel, by decide +kernel,
     chg_off 5 (by decide +kernel), ok_of (by decide +kernel), by decide +kernel, by decide +kernel, rfl, rfl, rfl,
     by decide +kernel, by decide +kernel⟩,
   ⟨wPrim 1800 true, 5, 0, _, _, _, [8, 7], 511, _, _, _, by decide +kernel, by decide +kernel, by decide +kernel, by decide +kernel,
     by decide +kernel, rfl, rfl, rfl, by decide +kernel, by decide +kernel, by decide +kernel, by decide +kernel, by decide +kernel,
     chg_off 5 (by decide +kernel), ok_of (by decide +kernel), by decide +kernel, by decide +kernel, rfl, rfl, rfl,
     by decide +kernel, by decide +kernel⟩⟩

theorem meets_PrimitivesFireOnCrossings_3 :
    ∃ (s : State) (ch : Nat) (j : Nat) (w : Nat) (c : Nat) (n : W32) (p : _), s.hubOn = true ∧ ch < 1024 ∧ j < 32768 ∧ bit
      (s.rd (Reg.sch ch)) 31 = true ∧ j < s.perEvent ch ∧ w = s.rdF Reg.feCfg 0 15 + j * 2 ^ s.decim ch ∧ c = s.tod.tickFab / 2 + w %
      max 1 (s.cTick / 2) ∧ n = s.tickId - BitVec.ofNat 32 (s.rdF Reg.feCfg 24 4 + w / max 1 (s.cTick / 2)) ∧ SMap.get 0 s.fe.entered
      ch ≤ c ∧ s.reach (2 * c) = true ∧ s.tod.fab ≤ 2 * c ∧ s.fe.primSets = [] ∧ (∀ g : Nat, g < 64 → s.covers g ch = false) ∧
      (∀ u : Nat, u < 1024 → s.chgEn u = true → s.rdF (Reg.chg u) 0 10 ≠ ch) ∧ s.payloadBytes (s.rdF (Reg.sch ch) 21 6)
      (s.rdF (Reg.sch ch) 13 8) n (s.rdF (Reg.sch ch + 4) 0 15 + 2 * j) 2 = .error false ∧ s.primsOf ch = [p] ∧ SMap.get 0
      s.fe.filledEv ch ≠ n.toNat + 1 :=
  ⟨st115, 5, 0, _, _, _, 511, by decide +kernel, by decide +kernel, by decide +kernel, by decide +kernel, by decide +kernel, rfl,
    rfl, rfl, by decide +kernel, by decide +kernel, by decide +kernel, by decide +kernel, by decide +kernel, chg_off 5
    (by decide +kernel), error_of (by decide +kernel), by decide +kernel, by decide +kernel⟩

def st116 : State := { wCond 0x90000000 0xC0038003 with fe.pulses := [(100, { pu 3 with poison := true })] }
def st117 : State := { wCond 0x90000000 0x80038003 with fe.condMet := [(63, 101)] }
def st118 : State := (wCond 0x98000000 0x80038003).wr Reg.trigCtrl 0x80000000
def st119 : State := afterP (wCond 0x90000000 0xC0038003)
def st120 : State := afterP (wCond 0x90000000 0x80038003)
def st121 : State := { wTick w0 with fe.forming := [tr0] }
def st122 : State := { wTick w0 with fe.drives := [(7, 200)], fe.decUntil := [(7, 201)] }
def st123 : State := { wTick w0 with fe.drives := [(7, 201)], fe.decUntil := [(7, 200)] }
theorem meets_CombinerMeetsConditions :
    (∃ (s : State) (c : Nat) (k : Nat) (p : Pulse) (u : State) (now : List Nat), s.hubOn = true ∧ s.fe.pulses = [(c, p)] ∧ s.reach
      (2 * c) = true ∧ s.tod.fab ≤ 2 * c ∧ s.fe.condSets = [] ∧ s.fe.trigSets = [] ∧ k < 64 ∧
      (∀ j : Nat, j < 64 → j ≠ k → bit (s.rd (Reg.cond j)) 31 = false) ∧ bit (s.rd Reg.busCfg) 31 = false ∧ now =
      (if p.on then [p.input] else []) ∧ u =
      { s with fe.pulses := [], fe.last := if p.on then SMap.set LastPulse.none' s.fe.last p.input ⟨c + 1, p.gap, p.fallback⟩ else s.fe.last }
      ∧ p.poison = true ∧ u.evalCond k c now = .no ∧ bit (s.rd (Reg.cond k)) 31 = true ∧ (∃ m ∈ s.members k, m.1 = p.input)) ∧
    (∃ (s : State) (c : Nat) (k : Nat) (p : Pulse) (u : State) (now : List Nat), s.hubOn = true ∧ s.fe.pulses = [(c, p)] ∧ s.reach
      (2 * c) = true ∧ s.tod.fab ≤ 2 * c ∧ s.fe.condSets = [] ∧ s.fe.trigSets = [] ∧ k < 64 ∧
      (∀ j : Nat, j < 64 → j ≠ k → bit (s.rd (Reg.cond j)) 31 = false) ∧ bit (s.rd Reg.busCfg) 31 = false ∧ now =
      (if p.on then [p.input] else []) ∧ u =
      { s with fe.pulses := [], fe.last := if p.on then SMap.set LastPulse.none' s.fe.last p.input ⟨c + 1, p.gap, p.fallback⟩ else s.fe.last }
      ∧ p.poison = false ∧ u.evalCond k c now = .held) ∧
    (∃ (s : State) (c : Nat) (k : Nat) (p : Pulse) (u : State) (now : List Nat), s.hubOn = true ∧ s.fe.pulses = [(c, p)] ∧ s.reach
      (2 * c) = true ∧ s.tod.fab ≤ 2 * c ∧ s.fe.condSets = [] ∧ s.fe.trigSets = [] ∧ k < 64 ∧
      (∀ j : Nat, j < 64 → j ≠ k → bit (s.rd (Reg.cond j)) 31 = false) ∧ bit (s.rd Reg.busCfg) 31 = false ∧ now =
      (if p.on then [p.input] else []) ∧ u =
      { s with fe.pulses := [], fe.last := if p.on then SMap.set LastPulse.none' s.fe.last p.input ⟨c + 1, p.gap, p.fallback⟩ else s.fe.last }
      ∧ p.poison = false ∧ u.evalCond k c now = .no) ∧
    (∃ (s : State) (c : Nat) (k : Nat) (p : Pulse) (u : State) (now : List Nat) (gap : _) (fb : _), s.hubOn = true ∧ s.fe.pulses =
      [(c, p)] ∧ s.reach (2 * c) = true ∧ s.tod.fab ≤ 2 * c ∧ s.fe.condSets = [] ∧ s.fe.trigSets = [] ∧ k < 64 ∧
      (∀ j : Nat, j < 64 → j ≠ k → bit (s.rd (Reg.cond j)) 31 = false) ∧ bit (s.rd Reg.busCfg) 31 = false ∧ now =
      (if p.on then [p.input] else []) ∧ u =
      { s with fe.pulses := [], fe.last := if p.on then SMap.set LastPulse.none' s.fe.last p.input ⟨c + 1, p.gap, p.fallback⟩ else s.fe.last }
      ∧ p.poison = false ∧ u.evalCond k c now = .met p.input gap fb) ∧
    (∃ (s : State) (k : Nat) (c : Nat) (now : List Nat), bit (s.rd (Reg.cond k)) 31 = true ∧ (∃ i ∈ s.counting k, i ∈ now) ∧ (∃ m ∈
      s.members k, m.2 = true ∧ s.pulsedWithin m.1 c (s.inputStretch m.1) = true)) :=
  ⟨⟨st116, 100, 63, { pu 3 with poison := true }, _, [3], by decide +kernel, by decide +kernel, by decide +kernel, by decide +kernel,
     by decide +kernel, by decide +kernel, by decide +kernel, by decide +kernel, by decide +kernel, by decide +kernel, rfl,
     by decide +kernel, by decide +kernel, by decide +kernel, by decide +kernel⟩,
   ⟨st117, 100, 63, pu 3, _, [3], by decide +kernel, by decide +kernel, by decide +kernel, by decide +kernel, by decide +kernel,
     by decide +kernel, by decide +kernel, by decide +kernel, by decide +kernel, by decide +kernel, rfl, by decide +kernel,
     by decide +kernel⟩,
   ⟨wCond 0 0, 100, 63, pu 3, _, [3], by decide +kernel, by decide +kernel, by decide +kernel, by decide +kernel, by decide +kernel,
     by decide +kernel, by decide +kernel, by decide +kernel, by decide +kernel, by decide +kernel, rfl, by decide +kernel,
     by decide +kernel⟩,
   ⟨st118, 100, 63, pu 3, _, [3], false, false, by decide +kernel, by decide +kernel, by decide +kernel, by decide +kernel,
     by decide +kernel, by decide +kernel, by decide +kernel, by decide +kernel, by decide +kernel, by decide +kernel, rfl,
     by decide +kernel, by decide +kernel⟩,
   ⟨st119, 63, 100, [3], by decide +kernel, by decide +kernel, by decide +kernel⟩⟩

theorem meets_CombinerMeetsConditions_2 :
    (∃ (s : State) (k : Nat) (c : Nat) (now : List Nat), bit (s.rd (Reg.cond k)) 31 = true ∧ (∃ i ∈ s.counting k, i ∈ now) ∧ (∀ m ∈
      s.members k, m.2 = true → s.pulsedWithin m.1 c (s.inputStretch m.1) = false) ∧ SMap.get 0 s.fe.condMet k = 0) ∧
    (∃ (s : State) (r : TrigRec) (rest : List TrigRec) (n : W32), s.hubOn = true ∧ s.fe.forming = r :: rest ∧ s.reach
      (2 * (r.cyc + 7)) = true ∧ r.num = none ∧ n = s.rd Reg.trigNum ∧ (∀ g : Nat, g < 64 → (s.acqGrp g).disarming = none) ∧
      (∀ g : Nat, g < 64 → bit (s.rd (Reg.fastCtl g)) 31 = false)) ∧
    (∃ (s : State) (j : Nat) (d : Nat), s.hubOn = true ∧ j < 8 ∧ s.reach (2 * d) = true ∧ s.fe.drives.find? (fun e => e.1 == j) =
      some (j, d)) ∧
    (∃ (s : State) (j : Nat) (d : Nat), s.hubOn = true ∧ j < 8 ∧ s.reach (2 * d) = true ∧ 0 < d ∧ d = SMap.get 0 s.fe.decUntil j ∧ (∀
      e ∈ s.fe.drives, e.1 = j → d < e.2)) :=
  ⟨⟨st120, 63, 100, [3], by decide +kernel, by decide +kernel, by decide +kernel, by decide +kernel⟩,
   ⟨st121, tr0, [], _, by decide +kernel, by decide +kernel, by decide +kernel, by decide +kernel, rfl, by decide +kernel,
     by decide +kernel⟩,
   ⟨st122, 7, 200, by decide +kernel, by decide +kernel, by decide +kernel, by decide +kernel⟩,
   ⟨st123, 7, 200, by decide +kernel, by decide +kernel, by decide +kernel, by decide +kernel, by decide +kernel, by decide +kernel⟩⟩

def st124 : State := wAq 0 (fun x => { x with disarms := [2] })
def st125 : State := wAq 0 (fun x => { x with disarms := [1] })
def st126 : State := wAq 0 (fun x => { x with arms := [0] })
def st127 : State := wAq Acq.armed (fun x => { x with disarms := [0] })
theorem meets_AcquisitionIsConfiguredAndArmed :
    (∃ (s : State) (h : Hdr) (c : AcqCfg), s.ready h Op.acqConfig = true ∧ s.acqCfgOk c = true ∧ s.acqTogether [c] = true) ∧
    (∃ (s : State) (h : Hdr) (c : AcqCfg), s.ready h Op.acqConfig = true ∧ c.en = true ∧ (65536 < c.pre ∨ c.post = 0 ∨ c.holdoff <
      16)) ∧
    (∃ (s : State) (h : Hdr) (ents : List (Nat × W32 × W32)), s.ready h Op.chgConfig = true ∧ 1 ≤ ents.length ∧ ents.length ≤ 256 ∧
      (∀ e ∈ ents, e.1 < 1024 ∧ fld e.2.1 22 5 ≤ 20 ∧ (bit e.2.1 31 = true → fld e.2.1 0 10 / 256 = e.1 / 256 ∧ bit
      (s.rd (Reg.sch (fld e.2.1 0 10))) 31 = true))) ∧
    (∃ (s : State) (h : Hdr) (st : Nat) (c : StrCfg), s.ready h Op.acqStream = true ∧ st < 16 ∧ c.dest < 3 ∧ c.group < 64 ∧
      c.strStream < 256 ∧ c.size4k < 2 ^ 32 ∧ c.base % 4096 = 0 ∧ c.shadow % 8 = 0 ∧ (c.en = true → c.dest ≠ 2 → 1 ≤ c.size4k) ∧
      (c.en = true → c.dest = 0 → strClear c s.allSegs = true) ∧
      (c.en = true → c.dest = 2 → bit (s.rd (Reg.grpCfg c.group)) 31 = true) ∧ c.base < 2 ^ 64 ∧ c.shadow < 2 ^ 64) ∧
    (∃ (s : State) (h : Hdr) (kind : Nat) (ix : Nat), s.ready h Op.acqStats = true ∧ kind < 3 ∧ ix < [64, 16, 1024].getD kind 0) ∧
    (∃ (s : State) (h : Hdr) (mask : Nat) (d : W32), mask ≠ 0 ∧ mask < 2 ^ 64 ∧ s.strobeOk d = true ∧ (∀ g : Nat, g < 64 → nbit mask
      g = true → s.acqEn g = true) ∧ s.ready h Op.acqArm = true ∧ (∀ g : Nat, g < 64 → nbit mask g = true → s.strobeOf d ∉ (s.acqGrp
      g).disarms)) :=
  ⟨⟨wCh, hS, cfgA, by decide +kernel, by decide +kernel, by decide +kernel⟩,
   ⟨wCh, hS, { cfgA with pre := 65537 }, by decide +kernel, by decide +kernel, by decide +kernel⟩,
   ⟨wCh, hS, [(255, 0x85000005, 3)], by decide +kernel, by decide +kernel, by decide +kernel, by decide +kernel⟩,
   ⟨wCh, hS, 15, ⟨true, 1, 63, 255, 4096, 1, 8⟩, by decide +kernel, by decide +kernel, by decide +kernel, by decide +kernel,
     by decide +kernel, by decide +kernel, by decide +kernel, by decide +kernel, by decide +kernel, by decide +kernel,
     by decide +kernel, by decide +kernel, by decide +kernel⟩,
   ⟨w0.wr (Reg.chg 1023 + 8) 7, hS, 2, 1023, by decide +kernel, by decide +kernel, by decide +kernel⟩,
   ⟨wAq 0 id, hS, 2 ^ 63, 2, by decide +kernel, by decide +kernel, by decide +kernel, by decide +kernel, by decide +kernel,
     by decide +kernel⟩⟩

theorem meets_AcquisitionIsConfiguredAndArmed_2 :
    (∃ (s : State) (h : Hdr) (mask : Nat) (d : W32) (g : _), mask ≠ 0 ∧ mask < 2 ^ 64 ∧ s.strobeOk d = true ∧ (∀ g : Nat, g < 64 →
      nbit mask g = true → s.acqEn g = true) ∧ s.ready h Op.acqArm = true ∧ g < 64 ∧ nbit mask g = true ∧ s.strobeOf d ∈ (s.acqGrp
      g).disarms) ∧
    (∃ (s : State) (h : Hdr) (mask : Nat) (d : W32), mask ≠ 0 ∧ mask < 2 ^ 64 ∧ s.strobeOk d = true ∧ (∀ g : Nat, g < 64 → nbit mask
      g = true → s.acqEn g = true) ∧ s.ready h Op.acqDisarm = true ∧ (∀ g : Nat, g < 64 → nbit mask g = true → s.strobeOf d ∉
      (s.acqGrp g).arms)) ∧
    (∃ (s : State) (g : Nat) (d : W32) (b : _) (rest : _), g < 64 ∧ tickReached s.tickId d = true ∧ (∀ j : Nat, j < 64 → j ≠ g →
      (s.acqGrp j).arms = [] ∧ (s.acqGrp j).disarms = []) ∧ (s.acqGrp g).arms = [d] ∧ s.acqState g = Acq.off ∧ (s.acqGrp g).freeBufs
      = b :: rest) ∧
    (∃ (s : State) (g : Nat) (d : W32), g < 64 ∧ tickReached s.tickId d = true ∧ (∀ j : Nat, j < 64 → j ≠ g → (s.acqGrp j).arms = []
      ∧ (s.acqGrp j).disarms = []) ∧ (s.acqGrp g).disarms = [d] ∧ (s.acqGrp g).disarming = none ∧ s.acqState g ≠ Acq.off ∧ (s.acqGrp
      g).seg = none ∧ s.trigPending g d = false) ∧
    (∃ (s : State) (st : Nat), s.hubOn = true ∧ st < 16) :=
  ⟨⟨st124, hS, 2 ^ 63, 2, 63, by decide +kernel, by decide +kernel, by decide +kernel, by decide +kernel, by decide +kernel,
     by decide +kernel, by decide +kernel, by decide +kernel⟩,
   ⟨st125, hS, 2 ^ 63, 2, by decide +kernel, by decide +kernel, by decide +kernel, by decide +kernel, by decide +kernel,
     by decide +kernel⟩,
   ⟨st126, 63, 0, 0, [1], by decide +kernel, by decide +kernel, by decide +kernel, by decide +kernel, by decide +kernel,
     by decide +kernel⟩,
   ⟨st127, 63, 0, by decide +kernel, by decide +kernel, by decide +kernel, by decide +kernel, by decide +kernel, by decide +kernel,
     by decide +kernel, by decide +kernel⟩,
   ⟨wCh, 15, by decide +kernel, by decide +kernel⟩⟩

def st128 : State := wAq Acq.armed (fun x => { x with trigs := [tr0], rearm := 100, latest := 105, latestCyc := 105, first := 95 })
def st129 : State := wAq Acq.post (fun x => { x with trigs := [tr0] })
def st130 : State := wAq Acq.rearm (fun x => { x with rearm := 249 })
def st131 : State := wAq Acq.armed (fun x => { x with written := [1, 0] })
def st132 : State := wAq Acq.waiting (fun x => { x with written := [1], latest := 7 })
def st133 : State := let s := wAq Acq.armed (fun x => { x with latest := 16 });
  { s with acq.staging := [⟨63, [(0, 15, 0, 0x1234)]⟩, ⟨63, [(0, 16, 0, 5)]⟩] }
def st134 : State := wAq Acq.armed (fun x => { x with lines := [(0, 15, 0, 0x1234), (0, 16, 0, 5)], latest := 16 })
def st135 : State := let s := wAq Acq.armed (fun x => { x with lines := [(0, 15, 0, 0x1234), (0, 16, 0, 5)], latest := 16 });
  { s with acq.staging := List.replicate 256 ⟨63, [(1, 3, 0, 5)]⟩ }
def st136 : State := wAq Acq.post (fun x => { x with seg := some sg0, latest := 117, latestCyc := 117, freeBufs := [1] })
def st137 : State := wAq Acq.post (fun x => { x with seg := some sg0, latest := 117, latestCyc := 117, freeBufs := [] })
theorem meets_TriggersOpenAndCloseSegments :
    (∃ (s : State) (g : Nat) (r : TrigRec) (rest : List TrigRec) (t0 : _), g < 64 ∧ s.closeDue g = false ∧ (s.acqGrp g).trigs = r ::
      rest ∧ s.reach (2 * (r.cyc + 10)) = true ∧ (s.acqGrp g).disarming = none ∧ s.acqState g = Acq.armed ∧ (s.acqGrp g).rearm ≤
      r.cyc ∧ s.shedStage < 5 ∧ t0 = (s.acqGrp g).latest - 1 - ceilDiv ((s.acqGrp g).latestCyc - (r.cyc - s.acqLook g)) (s.acqStep
      g)) ∧
    (∃ (s : State) (g : Nat) (r : TrigRec) (rest : List TrigRec), g < 64 ∧ s.closeDue g = false ∧ (s.acqGrp g).trigs = r :: rest ∧
      s.reach (2 * (r.cyc + 10)) = true ∧ (s.acqGrp g).disarming = none ∧ s.acqState g = Acq.post ∧ (s.acqGrp g).waitFrom = none ∧
      s.shedStage < 5 ∧ s.stagedOf g < 64 ∧ (s.gapOf g).dropped = 0) ∧
    (∃ (s : State) (g : Nat), g < 64 ∧ s.closeDue g = false ∧ s.acqState g = Acq.rearm ∧ s.reach (2 * (s.acqGrp g).rearm) = true) ∧
    (∃ (s : State) (g : Nat) (b : _), g < 64 ∧ s.closeDue g = false ∧ b < 256 ∧ b ∈ (s.acqGrp g).written ∧ s.acqState g ≠
      Acq.waiting) ∧
    (∃ (s : State) (g : Nat) (b : _), g < 64 ∧ s.closeDue g = false ∧ b < 256 ∧ b ∈ (s.acqGrp g).written ∧ s.acqState g =
      Acq.waiting) ∧
    (∃ (s : State) (g : Nat) (i : _) (n : _) (b : _) (v : _) (rest : _), g < 64 ∧ s.closeDue g = false ∧ s.acq.staging = ⟨g, [(i, n,
      b, v)]⟩ :: rest ∧ s.shedStage < 5) :=
  ⟨⟨st128, 63, tr0, [], 99, by decide +kernel, by decide +kernel, by decide +kernel, by decide +kernel, by decide +kernel,
     by decide +kernel, by decide +kernel, by decide +kernel, by decide +kernel⟩,
   ⟨st129, 63, tr0, [], by decide +kernel, by decide +kernel, by decide +kernel, by decide +kernel, by decide +kernel,
     by decide +kernel, by decide +kernel, by decide +kernel, by decide +kernel, by decide +kernel⟩,
   ⟨st130, 63, by decide +kernel, by decide +kernel, by decide +kernel, by decide +kernel⟩,
   ⟨st131, 63, 1, by decide +kernel, by decide +kernel, by decide +kernel, by decide +kernel, by decide +kernel⟩,
   ⟨st132, 63, 1, by decide +kernel, by decide +kernel, by decide +kernel, by decide +kernel, by decide +kernel⟩,
   ⟨st133, 63, 0, 15, 0, 0x1234, [⟨63, [(0, 16, 0, 5)]⟩], by decide +kernel, by decide +kernel, by decide +kernel, by decide +kernel⟩⟩

theorem meets_TriggersOpenAndCloseSegments_2 :
    (∃ (s : State) (g : Nat) (i : _) (n : _) (b : _) (v : _) (rest : _), g < 64 ∧ (s.acqGrp g).lines = (i, n, b, v) :: rest ∧ (∀ l ∈
      rest, ¬(l.1 = i ∧ l.2.2.1 = b ∧ l.2.1 / 16 = n / 16)) ∧ s.shedStage < 5 ∧ s.stagedLines (s.acqFirst g / 256) < 256) ∧
    (∃ (s : State) (g : Nat) (i : _) (n : _) (b : _) (v : _) (rest : _), g < 64 ∧ (s.acqGrp g).lines = (i, n, b, v) :: rest ∧ (∀ l ∈
      rest, ¬(l.1 = i ∧ l.2.2.1 = b ∧ l.2.1 / 16 = n / 16)) ∧ s.shedStage < 5 ∧ s.stagedLines (s.acqFirst g / 256) < 256) ∧
    (∃ (s : State) (g : Nat) (i : _) (n : _) (b : _) (v : _) (rest : _), g < 64 ∧ (s.acqGrp g).lines = (i, n, b, v) :: rest ∧ (∀ l ∈
      rest, ¬(l.1 = i ∧ l.2.2.1 = b ∧ l.2.1 / 16 = n / 16)) ∧ s.shedStage < 5 ∧ s.stagedLines (s.acqFirst g / 256) < 256) ∧
    (∃ (s : State) (g : Nat) (i : _) (n : _) (b : _) (v : _) (rest : _), g < 64 ∧ (s.acqGrp g).lines = (i, n, b, v) :: rest ∧ (∀ l ∈
      rest, ¬(l.1 = i ∧ l.2.2.1 = b ∧ l.2.1 / 16 = n / 16)) ∧ 256 ≤ s.stagedLines (s.acqFirst g / 256)) ∧
    (∃ (s : State) (g : Nat) (i : _) (n : _) (b : _) (v : _) (rest : _), g < 64 ∧ (s.acqGrp g).lines = (i, n, b, v) :: rest ∧ (∀ l ∈
      rest, ¬(l.1 = i ∧ l.2.2.1 = b ∧ l.2.1 / 16 = n / 16)) ∧ 256 ≤ s.stagedLines (s.acqFirst g / 256)) ∧
    (∃ (s : State) (g : Nat) (i : _) (n : _) (b : _) (v : _) (rest : _), g < 64 ∧ (s.acqGrp g).lines = (i, n, b, v) :: rest ∧ (∀ l ∈
      rest, ¬(l.1 = i ∧ l.2.2.1 = b ∧ l.2.1 / 16 = n / 16)) ∧ 256 ≤ s.stagedLines (s.acqFirst g / 256)) :=
  ⟨⟨st134, 63, 0, 15, 0, 0x1234, [(0, 16, 0, 5)], by decide +kernel, by decide +kernel, by decide +kernel, by decide +kernel,
     by decide +kernel⟩,
   ⟨st134, 63, 0, 15, 0, 0x1234, [(0, 16, 0, 5)], by decide +kernel, by decide +kernel, by decide +kernel, by decide +kernel,
     by decide +kernel⟩,
   ⟨st134, 63, 0, 15, 0, 0x1234, [(0, 16, 0, 5)], by decide +kernel, by decide +kernel, by decide +kernel, by decide +kernel,
     by decide +kernel⟩,
   ⟨st135, 63, 0, 15, 0, 0x1234, [(0, 16, 0, 5)], by decide +kernel, by decide +kernel, by decide +kernel, by decide +kernel⟩,
   ⟨st135, 63, 0, 15, 0, 0x1234, [(0, 16, 0, 5)], by decide +kernel, by decide +kernel, by decide +kernel, by decide +kernel⟩,
   ⟨st135, 63, 0, 15, 0, 0x1234, [(0, 16, 0, 5)], by decide +kernel, by decide +kernel, by decide +kernel, by decide +kernel⟩⟩

theorem meets_TriggersOpenAndCloseSegments_3 :
    (∃ (s : State) (g : Nat) (i : _) (n : _) (b : _) (v : _) (rest : _), g < 64 ∧ (s.acqGrp g).lines = (i, n, b, v) :: rest ∧ (∀ l ∈
      rest, ¬(l.1 = i ∧ l.2.2.1 = b ∧ l.2.1 / 16 = n / 16)) ∧ 256 ≤ s.stagedLines (s.acqFirst g / 256)) ∧
    (∃ (s : State) (g : Nat) (i : _) (n : _) (b : _) (v : _) (rest : _), g < 64 ∧ (s.acqGrp g).lines = (i, n, b, v) :: rest ∧ (∀ l ∈
      rest, ¬(l.1 = i ∧ l.2.2.1 = b ∧ l.2.1 / 16 = n / 16)) ∧ 256 ≤ s.stagedLines (s.acqFirst g / 256)) ∧
    (∃ (s : State) (g : Nat) (i : _) (n : _) (b : _) (v : _) (rest : _), g < 64 ∧ (s.acqGrp g).lines = (i, n, b, v) :: rest ∧ (∀ l ∈
      rest, ¬(l.1 = i ∧ l.2.2.1 = b ∧ l.2.1 / 16 = n / 16)) ∧ 256 ≤ s.stagedLines (s.acqFirst g / 256)) ∧
    (∃ (s : State) (g : Nat) (sg : Segment) (b : _) (rest : _), g < 64 ∧ s.acqState g = Acq.post ∧ (s.acqGrp g).seg = some sg ∧ sg.t0
      + s.acqPost g < (s.acqGrp g).latest ∧ (s.acqGrp g).disarming = none ∧ s.shedStage < 5 ∧ s.stagedLines (s.acqFirst g / 256) +
      (s.acqGrp g).lines.length ≤ 256 ∧ (s.acqGrp g).freeBufs = b :: rest) ∧
    (∃ (s : State) (g : Nat) (sg : Segment), g < 64 ∧ s.acqState g = Acq.post ∧ (s.acqGrp g).seg = some sg ∧ sg.t0 + s.acqPost g <
      (s.acqGrp g).latest ∧ (s.acqGrp g).disarming = none ∧ s.shedStage < 5 ∧ s.stagedLines (s.acqFirst g / 256) + (s.acqGrp
      g).lines.length ≤ 256 ∧ (s.acqGrp g).freeBufs = []) :=
  ⟨⟨st135, 63, 0, 15, 0, 0x1234, [(0, 16, 0, 5)], by decide +kernel, by decide +kernel, by decide +kernel, by decide +kernel⟩,
   ⟨st135, 63, 0, 15, 0, 0x1234, [(0, 16, 0, 5)], by decide +kernel, by decide +kernel, by decide +kernel, by decide +kernel⟩,
   ⟨st135, 63, 0, 15, 0, 0x1234, [(0, 16, 0, 5)], by decide +kernel, by decide +kernel, by decide +kernel, by decide +kernel⟩,
   ⟨st136, 63, sg0, 1, [], by decide +kernel, by decide +kernel, by decide +kernel, by decide +kernel, by decide +kernel,
     by decide +kernel, by decide +kernel, by decide +kernel⟩,
   ⟨st137, 63, sg0, by decide +kernel, by decide +kernel, by decide +kernel, by decide +kernel, by decide +kernel, by decide +kernel,
     by decide +kernel, by decide +kernel⟩⟩

def st138 : State := wCu ⟨7, true, 1, 0, false, false, [sm 10 false]⟩ []
def st139 : State := wCu ⟨7, false, 1, 0, false, false, [sm 10 false]⟩ []
def st140 : State := wCu ⟨6, true, 1, 0, false, false, [sm 10 false]⟩ []
def st141 : State := wCu ⟨6, true, 1, 0, false, false, [sm 10 false]⟩ (List.replicate 512 (.change 0 0 0))
theorem meets_ChangesAndItemsReachTheirStream :
    (∃ (s : State) (u : Nat) (x : Sample) (rest : List Sample) (v : Int), u < 1024 ∧ (s.chgSt u).due = x :: rest ∧ x.filled = false ∧
      (∀ e ∈ s.acq.units, e.1 / 256 = u / 256 ∨ s.rdF (Reg.chg e.1) 27 4 = s.rdF (Reg.chg u) 27 4 → ∀ y ys, e.2.due = y :: ys → x.cyc
      < y.cyc ∨ (x.cyc = y.cyc ∧ u ≤ e.1)) ∧ v = s.sampleVal (s.rdF (Reg.chg u) 0 10) x.v ∧ (s.chgSt u).started = true ∧ (v -
      (s.chgSt u).value).natAbs ≤ s.rdF (Reg.chg u + 4) 0 16) ∧
    (∃ (s : State) (u : Nat) (x : Sample) (rest : List Sample) (v : Int), u < 1024 ∧ (s.chgSt u).due = x :: rest ∧ x.filled = false ∧
      (∀ e ∈ s.acq.units, e.1 / 256 = u / 256 ∨ s.rdF (Reg.chg e.1) 27 4 = s.rdF (Reg.chg u) 27 4 → ∀ y ys, e.2.due = y :: ys → x.cyc
      < y.cyc ∨ (x.cyc = y.cyc ∧ u ≤ e.1)) ∧ v = s.sampleVal (s.rdF (Reg.chg u) 0 10) x.v ∧ (s.chgSt u).started = false ∧ s.stagedOf
      (64 + u / 256) + 2 ≤ 512 ∧ (s.gapOf (64 + u / 256)).dropped = 0) ∧
    (∃ (s : State) (u : Nat) (x : Sample) (rest : List Sample) (v : Int), u < 1024 ∧ (s.chgSt u).due = x :: rest ∧ x.filled = false ∧
      (∀ e ∈ s.acq.units, e.1 / 256 = u / 256 ∨ s.rdF (Reg.chg e.1) 27 4 = s.rdF (Reg.chg u) 27 4 → ∀ y ys, e.2.due = y :: ys → x.cyc
      < y.cyc ∨ (x.cyc = y.cyc ∧ u ≤ e.1)) ∧ v = s.sampleVal (s.rdF (Reg.chg u) 0 10) x.v ∧ (s.chgSt u).started = true ∧ (s.chgSt
      u).needAnchor = false ∧ (s.chgSt u).wasFilled = false ∧ x.cyc - (s.chgSt u).lastCyc < 2 ^ 30 ∧ s.rdF (Reg.chg u + 4) 0 16 < (v
      - (s.chgSt u).value).natAbs ∧ s.stagedOf (64 + u / 256) < 512 ∧ (s.gapOf (64 + u / 256)).dropped = 0) ∧
    (∃ (s : State) (u : Nat) (x : Sample) (rest : List Sample) (v : Int), u < 1024 ∧ (s.chgSt u).due = x :: rest ∧ x.filled = false ∧
      (∀ e ∈ s.acq.units, e.1 / 256 = u / 256 ∨ s.rdF (Reg.chg e.1) 27 4 = s.rdF (Reg.chg u) 27 4 → ∀ y ys, e.2.due = y :: ys → x.cyc
      < y.cyc ∨ (x.cyc = y.cyc ∧ u ≤ e.1)) ∧ v = s.sampleVal (s.rdF (Reg.chg u) 0 10) x.v ∧ (s.chgSt u).started = true ∧ (s.chgSt
      u).needAnchor = false ∧ (s.chgSt u).wasFilled = false ∧ x.cyc - (s.chgSt u).lastCyc < 2 ^ 30 ∧ s.rdF (Reg.chg u + 4) 0 16 < (v
      - (s.chgSt u).value).natAbs ∧ 512 ≤ s.stagedOf (64 + u / 256) ∧ (s.gapOf (64 + u / 256)).dropped = 0) ∧
    (∃ (s : State) (st : Nat) (src : Nat) (wr : Nat) (size : Nat) (tick : W32) (d : BitVec 256) (rest : List Item), st < 16 ∧
      (s.strSt st).items = .flit src tick d :: rest ∧ bit (s.rd (Reg.str st)) 31 = true ∧ wr = (s.rd (Reg.str st + 0x18)).toNat ∧
      size = s.strSize st ∧ wr % 32 = 0 ∧ wr < size ∧ s.strDest st = 0 ∧ s.shedStage < 5 ∧ s.strFits st 32 = true ∧ s.asleep
      (s.strBase st) = false) ∧
    (∃ (s : State) (st : Nat) (src : Nat) (wr : Nat) (size : Nat) (tick : W32) (d : BitVec 256) (rest : List Item), st < 16 ∧
      (s.strSt st).items = .flit src tick d :: rest ∧ bit (s.rd (Reg.str st)) 31 = true ∧ wr = (s.rd (Reg.str st + 0x18)).toNat ∧
      size = s.strSize st ∧ wr % 32 = 0 ∧ wr < size ∧ s.strDest st = 0 ∧ s.strFits st 32 = false) ∧
    (∃ (s : State) (st : Nat) (src : Nat) (wr : Nat) (size : Nat) (tick : W32) (d : BitVec 256) (rest : List Item), st < 16 ∧
      (s.strSt st).items = .flit src tick d :: rest ∧ bit (s.rd (Reg.str st)) 31 = true ∧ wr = (s.rd (Reg.str st + 0x18)).toNat ∧
      size = s.strSize st ∧ wr % 32 = 0 ∧ wr < size ∧ s.strDest st = 1 ∧ s.shedStage = 0 ∧ s.host.inReset = false ∧ s.strFits st 32 =
      true) :=
  ⟨⟨st138, 5, sm 10 false, [], 10, by decide +kernel, by decide +kernel, by decide +kernel, first_due (by decide +kernel),
     by decide +kernel, by decide +kernel, by decide +kernel⟩,
   ⟨st139, 5, sm 10 false, [], 10, by decide +kernel, by decide +kernel, by decide +kernel, first_due (by decide +kernel),
     by decide +kernel, by decide +kernel, by decide +kernel, by decide +kernel⟩,
   ⟨st140, 5, sm 10 false, [], 10, by decide +kernel, by decide +kernel, by decide +kernel, first_due (by decide +kernel),
     by decide +kernel, by decide +kernel, by decide +kernel, by decide +kernel, by decide +kernel, by decide +kernel,
     by decide +kernel, by decide +kernel⟩,
   ⟨st141, 5, sm 10 false, [], 10, by decide +kernel, by decide +kernel, by decide +kernel, first_due (by decide +kernel),
     by decide +kernel, by decide +kernel, by decide +kernel, by decide +kernel, by decide +kernel, by decide +kernel,
     by decide +kernel, by decide +kernel⟩,
   ⟨wStr 0 0xFC0, 15, 3, 0xFE0, 4096, 0, 0xABCDEF, [], by decide +kernel, by decide +kernel, by decide +kernel, by decide +kernel,
     by decide +kernel, by decide +kernel, by decide +kernel, by decide +kernel, by decide +kernel, by decide +kernel,
     by decide +kernel⟩,
   ⟨wStr 0 0x0, 15, 3, 0xFE0, 4096, 0, 0xABCDEF, [], by decide +kernel, by decide +kernel, by decide +kernel, by decide +kernel,
     by decide +kernel, by decide +kernel, by decide +kernel, by decide +kernel, by decide +kernel⟩,
   ⟨wStr 1 0xFC0, 15, 3, 0xFE0, 4096, 0, 0xABCDEF, [], by decide +kernel, by decide +kernel, by decide +kernel, by decide +kernel,
     by decide +kernel, by decide +kernel, by decide +kernel, by decide +kernel, by decide +kernel, by decide +kernel,
     by decide +kernel⟩⟩

def st142 : State := wBus 0 2 { bus0 with gridAt := some 100, due := [(3, 100)] }
def st143 : State := { wAsy [asy Op.busCal 0 0] with bus.calibrating := true }
theorem meets_BusSilentWhileDisabled :
    (∃ (s : State) (l : Nat), s.hubOn = true ∧ bit (s.rd Reg.busCfg) 31 = false ∧ s.nextLaunch = some l ∧ s.reach (2 * l) = true) ∧
    (∃ (s : State), bit (s.rd Reg.busCfg) 31 = false) ∧
    (∃ (s : State), bit (s.rd Reg.busCfg) 30 = false) ∧
    (∃ (s : State) (loops : List (Nat × Nat)), bit (s.rd Reg.busCfg) 30 = false ∧ (∀ e ∈ loops, e.1 < 8 ∧ e.2 < 8192)) ∧
    (∃ (s : State) (lines : List Nat) (cyc : Nat), s.hubOn = true ∧ bit (s.rd Reg.busCfg) 30 = false ∧ s.relayStandby = false ∧ cyc <
      s.cTick / 2 ∧ lines.length = 8 ∧ (∀ w ∈ lines, w < 65536)) :=
  ⟨⟨st142, 4, by decide +kernel, by decide +kernel, by decide +kernel, by decide +kernel⟩,
   ⟨w0, by decide +kernel⟩,
   ⟨wBus 0 2 bus0, by decide +kernel⟩,
   ⟨st143, [(7, 144), (0, 8191)], by decide +kernel, by decide +kernel⟩,
   ⟨wBus 0 2 bus0, lines0, 249, by decide +kernel, by decide +kernel, by decide +kernel, by decide +kernel, by decide +kernel,
     by decide +kernel⟩⟩

def st144 : State := (wTick w0).wr Reg.busCfg 0x40000000
def st145 : State := ({ wAsy [asy Op.busCal 0 0] with bus.calibrating := true }).wr Reg.busCfg 0x40000000
def st146 : State := { wAsy [asy Op.busAlign 0 0] with bus.alignFrom := some 5, bus.good := 15, tod.fab := 1600004 }
def st147 : State := { wAsy [asy Op.busAlign 0 0] with bus.alignFrom := some 5, bus.good := 15, tod.fab := 1600005 }
def st148 : State :=
  { (wTick (wAsy [asy Op.busAlign 0 0])).wr Reg.tickCfg 0x800001F4 with bus.alignFrom := some 5, bus.good := 16, bus.last := some (100, slot0), tod.fab := 300 }
def st149 : State :=
  { (wTick (wAsy [asy Op.busAlign 0 0])).wr Reg.tickCfg 0x800001F4 with bus.alignFrom := some 5, bus.good := 16, bus.last := some (101, slot0), tod.fab := 300 }
def st150 : State :=
  { wTick (wAsy [asy Op.busAlign 0 0]) with bus.alignFrom := some 5, bus.good := 16, bus.last := some (101, slot0), tod.fab := 300 }
def st151 : State := wBus 0xA0000000 2 { bus0 with gridAt := some 100, due := [(3, 100)], launched := [(92, 0, 0)] }
def st152 : State := wBus 0xA0000000 2
  { bus0 with gridAt := some 100, due := [(3, 100)], launched := [(92, 0, 0)], calibrating := true }
def st153 : State := wBus 0x40000000 2 { bus0 with good := 3, bad := 15 }
def st154 : State := wBus 0x40000000 2 { bus0 with good := 3, bad := 14 }
theorem meets_TriggerBusRunsItsSlots :
    (∃ (s : State) (h : Hdr) (o : Nat) (i : Nat), s.ready h Op.busConfig = true ∧ o < 2 ∧ i < 2) ∧
    (∃ (s : State) (h : Hdr) (busy : Nat), s.ready h Op.busCal = true ∧ s.bus.calibrating = false ∧ (busy % 256 = 0 ∨ bit (s.rd
      Reg.busCfg) 30 = false)) ∧
    (∃ (s : State) (h : Hdr) (busy : Nat), s.ready h Op.busCal = true ∧ s.bus.calibrating = false ∧ busy % 256 ≠ 0 ∧ bit (s.rd
      Reg.busCfg) 30 = true) ∧
    (∃ (s : State) (l : Nat → Nat) (a : Async), s.bus.calibrating = true ∧ s.openOf Op.busCal = [a] ∧ bit (s.rd Reg.busCfg) 30 = true
      ∧ (∀ k : Nat, k < 8 → 144 ≤ l k ∧ l k ≤ 7680)) ∧
    (∃ (s : State) (l : Nat → Nat) (a : Async) (j : _), s.bus.calibrating = true ∧ s.openOf Op.busCal = [a] ∧ bit (s.rd Reg.busCfg)
      30 = true ∧ (∀ k : Nat, k < 8 → 144 ≤ l k ∧ l k ≤ 7680) ∧ j < 8) ∧
    (∃ (s : State) (h : Hdr) (lSys : Nat) (asym : List Int), s.ready h Op.busComp = true ∧ lSys < 512 ∧ asym.length = 8 ∧
      (∀ a ∈ asym, -128 ≤ a ∧ a ≤ 127) ∧ (∀ k : Nat, k < 8 → s.rd (Reg.busLoop k) ≠ 0 ∧ ((asym.getD k 0).natAbs : Int) ≤ 16 * lSys -
      ((s.rd (Reg.busLoop k)).toNat : Int))) ∧
    (∃ (s : State) (h : Hdr) (lSys : Nat) (asym : List Int) (k : _), s.ready h Op.busComp = true ∧ lSys < 512 ∧ asym.length = 8 ∧ (∀
      a ∈ asym, -128 ≤ a ∧ a ≤ 127) ∧ k < 8 ∧ s.rd (Reg.busLoop k) = 0) :=
  ⟨⟨wTick w0, hS, 1, 1, by decide +kernel, by decide +kernel, by decide +kernel⟩,
   ⟨wTick w0, hS, 0, by decide +kernel, by decide +kernel, by decide +kernel⟩,
   ⟨st144, hS, 0x80, by decide +kernel, by decide +kernel, by decide +kernel, by decide +kernel⟩,
   ⟨st145, fun k => if k = 0 then 144 else 7680, asy Op.busCal 0 0, by decide +kernel, by decide +kernel, by decide +kernel,
     by decide +kernel⟩,
   ⟨st145, fun k => if k = 0 then 144 else 7680, asy Op.busCal 0 0, 7, by decide +kernel, by decide +kernel, by decide +kernel,
     by decide +kernel, by decide +kernel⟩,
   ⟨(wTick w0).wrs loopW, hS, 11, [16, -16, 0, 1, -1, 0, 0, 0], by decide +kernel, by decide +kernel, by decide +kernel,
     by decide +kernel, by decide +kernel⟩,
   ⟨wTick w0, hS, 511, [0, 0, 0, 0, 0, 0, 0, 127], 7, by decide +kernel, by decide +kernel, by decide +kernel, by decide +kernel,
     by decide +kernel, by decide +kernel⟩⟩

theorem meets_TriggerBusRunsItsSlots_2 :
    (∃ (s : State) (h : Hdr), s.ready h Op.busAlign = true) ∧
    (∃ (s : State) (f : Nat) (a : Async), s.bus.alignFrom = some f ∧ s.openOf Op.busAlign = [a] ∧ s.bus.good < 16 ∧ s.tod.fab < f +
      1600000) ∧
    (∃ (s : State) (f : Nat) (a : Async), s.bus.alignFrom = some f ∧ s.openOf Op.busAlign = [a] ∧ s.bus.good < 16 ∧ f + 1600000 ≤
      s.tod.fab) ∧
    (∃ (s : State) (f : Nat) (a : Async) (x : Nat) (d : BusSlot), s.bus.alignFrom = some f ∧ s.openOf Op.busAlign = [a] ∧ 16 ≤
      s.bus.good ∧ s.bus.last = some (x, d) ∧ d.cTick = s.cTick ∧ bit (s.rd Reg.tickCfg) 31 = true ∧ s.busMatches x d = true) ∧
    (∃ (s : State) (f : Nat) (a : Async) (x : Nat) (d : BusSlot), s.bus.alignFrom = some f ∧ s.openOf Op.busAlign = [a] ∧ 16 ≤
      s.bus.good ∧ s.bus.last = some (x, d) ∧ d.cTick = s.cTick ∧ bit (s.rd Reg.tickCfg) 31 = true ∧ s.busMatches x d = false) ∧
    (∃ (s : State) (f : Nat) (a : Async) (x : Nat) (d : BusSlot), s.bus.alignFrom = some f ∧ s.openOf Op.busAlign = [a] ∧ 16 ≤
      s.bus.good ∧ s.bus.last = some (x, d) ∧ d.cTick = s.cTick ∧ bit (s.rd Reg.tickCfg) 31 = false) ∧
    (∃ (s : State) (h : Hdr) (ents : List (Nat × W64)), s.ready h Op.busTxMap = true ∧ 1 ≤ ents.length ∧ ents.length ≤ 16 ∧ (∀ e ∈
      ents, e.1 < 16)) :=
  ⟨⟨wTick w0, hS, by decide +kernel⟩,
   ⟨st146, 5, asy Op.busAlign 0 0, by decide +kernel, by decide +kernel, by decide +kernel, by decide +kernel⟩,
   ⟨st147, 5, asy Op.busAlign 0 0, by decide +kernel, by decide +kernel, by decide +kernel, by decide +kernel⟩,
   ⟨st148, 5, asy Op.busAlign 0 0, 100, slot0, by decide +kernel, by decide +kernel, by decide +kernel, by decide +kernel,
     by decide +kernel, by decide +kernel, by decide +kernel⟩,
   ⟨st149, 5, asy Op.busAlign 0 0, 101, slot0, by decide +kernel, by decide +kernel, by decide +kernel, by decide +kernel,
     by decide +kernel, by decide +kernel, by decide +kernel⟩,
   ⟨st150, 5, asy Op.busAlign 0 0, 101, slot0, by decide +kernel, by decide +kernel, by decide +kernel, by decide +kernel,
     by decide +kernel, by decide +kernel⟩,
   ⟨wTick w0, hS, [(15, 0x8000000000000001)], by decide +kernel, by decide +kernel, by decide +kernel, by decide +kernel⟩⟩

theorem meets_TriggerBusRunsItsSlots_3 :
    (∃ (s : State) (l : Nat), s.hubOn = true ∧ bit (s.rd Reg.busCfg) 31 = true ∧ s.shedStage < 6 ∧ s.nextLaunch = some l ∧ s.reach (2
      * l) = true ∧ s.bus.calibrating = false) ∧
    (∃ (s : State) (l : Nat), s.hubOn = true ∧ bit (s.rd Reg.busCfg) 31 = true ∧ s.shedStage < 6 ∧ s.nextLaunch = some l ∧ s.reach (2
      * l) = true ∧ s.bus.calibrating = true) ∧
    (∃ (k : _) (c : _), k < 8 ∧ c < 8) ∧
    (∃ (k : _) (c : _), k < 8 ∧ c < 8) ∧
    (∃ (s : State) (lines : List Nat) (d : BusSlot) (cyc : Nat) (x : Nat), s.hubOn = true ∧ bit (s.rd Reg.busCfg) 30 = true ∧
      s.relayStandby = false ∧ lines.length = 8 ∧ (∀ w ∈ lines, w < 65536) ∧ slotFields (slotOfLines lines) = d ∧ s.relayPrimary =
      false ∧ s.bus.alignFrom = none ∧ cyc < s.cTick / 2 ∧ x = (s.atCycle (2 * cyc)).sampleNow ∧ s.busState = 2 ∧ (s.atCycle (2 *
      cyc)).slotGood x d = true) ∧
    (∃ (s : State) (lines : List Nat) (d : BusSlot) (cyc : Nat) (x : Nat), s.hubOn = true ∧ bit (s.rd Reg.busCfg) 30 = true ∧
      s.relayStandby = false ∧ lines.length = 8 ∧ (∀ w ∈ lines, w < 65536) ∧ slotFields (slotOfLines lines) = d ∧ s.relayPrimary =
      false ∧ s.bus.alignFrom = none ∧ cyc < s.cTick / 2 ∧ x = (s.atCycle (2 * cyc)).sampleNow ∧ s.busState = 2 ∧ (s.atCycle (2 *
      cyc)).slotGood x d = false ∧ s.bus.bad < 15) ∧
    (∃ (s : State) (lines : List Nat) (d : BusSlot) (cyc : Nat) (x : Nat), s.hubOn = true ∧ bit (s.rd Reg.busCfg) 30 = true ∧
      s.relayStandby = false ∧ lines.length = 8 ∧ (∀ w ∈ lines, w < 65536) ∧ slotFields (slotOfLines lines) = d ∧ s.relayPrimary =
      false ∧ s.bus.alignFrom = none ∧ cyc < s.cTick / 2 ∧ x = (s.atCycle (2 * cyc)).sampleNow ∧ s.busState = 2 ∧ (s.atCycle (2 *
      cyc)).slotGood x d = false ∧ s.bus.bad = 15) :=
  ⟨⟨st151, 100, by decide +kernel, by decide +kernel, by decide +kernel, by decide +kernel, by decide +kernel, by decide +kernel⟩,
   ⟨st152, 100, by decide +kernel, by decide +kernel, by decide +kernel, by decide +kernel, by decide +kernel, by decide +kernel⟩,
   ⟨7, 7, by decide +kernel, by decide +kernel⟩,
   ⟨7, 7, by decide +kernel, by decide +kernel⟩,
   ⟨st153, lines0, slot0, 100, 100, by decide +kernel, by decide +kernel, by decide +kernel, by decide +kernel, by decide +kernel,
     by decide +kernel, by decide +kernel, by decide +kernel, by decide +kernel, by decide +kernel, by decide +kernel,
     by decide +kernel⟩,
   ⟨st154, lines0, slot0, 101, 101, by decide +kernel, by decide +kernel, by decide +kernel, by decide +kernel, by decide +kernel,
     by decide +kernel, by decide +kernel, by decide +kernel, by decide +kernel, by decide +kernel, by decide +kernel,
     by decide +kernel, by decide +kernel⟩,
   ⟨st153, lines0, slot0, 101, 101, by decide +kernel, by decide +kernel, by decide +kernel, by decide +kernel, by decide +kernel,
     by decide +kernel, by decide +kernel, by decide +kernel, by decide +kernel, by decide +kernel, by decide +kernel,
     by decide +kernel, by decide +kernel⟩⟩

def st155 : State := { w0 with tod.autoHold := false }
def st156 : State := { w0 with tod.sec := 0x123456789AB, tod.ns := 7, tod.frac := 0xFFFFFFFF }
theorem meets_TimeOfDayFollowsItsCommands :
    (∃ (s : State) (h : Hdr) (sec : Nat) (ns : Nat), s.ready h Op.timeSet = true ∧ sec < 2 ^ 48 ∧ ns < 1000000000) ∧
    (∃ (s : State) (h : Hdr) (ns : Nat), s.ready h Op.timeSet = true ∧ 1000000000 ≤ ns) ∧
    (∃ (s : State) (h : Hdr) (off : W64), s.ready h Op.timeStep = true ∧ 0 ≤ (s.now : Int) + off.toInt * 256 ∧ (s.now : Int) +
      off.toInt * 256 < (todOf (2 ^ 48) 0 0 : Nat)) ∧
    (∃ (s : State) (h : Hdr) (off : W64), s.ready h Op.timeStep = true ∧ (s.now : Int) + off.toInt * 256 < 0) ∧
    (∃ (s : State) (h : Hdr) (frac : Nat) (whole : Nat), s.ready h Op.timeInc = true ∧ frac < 2 ^ 32 ∧ 1 ≤ whole ∧ whole * 2 ^ 32 +
      frac ≤ 4 * 2 ^ 32 ∧ (bit (s.rd Reg.timeStat) 30 = true → bit (s.rd Reg.timeStat) 31 = true)) ∧
    (∃ (s : State) (h : Hdr), s.ready h Op.timeHoldover = true ∧ bit (s.rd Reg.timeStat) 31 = false) :=
  ⟨⟨w0, hS, 0xFFFFFFFFFFFF, 999999999, by decide +kernel, by decide +kernel, by decide +kernel⟩,
   ⟨w0, hS, 1000000000, by decide +kernel, by decide +kernel⟩,
   ⟨{ w0 with tod.sec := 1 }, hS, 0xFFFFFFFFFFFFFFFF, by decide +kernel, by decide +kernel, by decide +kernel⟩,
   ⟨w0, hS, 0xFFFFFFFFFFFFFFFF, by decide +kernel, by decide +kernel⟩,
   ⟨w0, hS, 0, 4, by decide +kernel, by decide +kernel, by decide +kernel, by decide +kernel, by decide +kernel⟩,
   ⟨w0.wr Reg.timeStat 0x20000000, hS, by decide +kernel, by decide +kernel⟩⟩

theorem meets_TimeOfDayFollowsItsCommands_2 :
    (∃ (s : State) (h : Hdr), s.ready h Op.timeHoldover = true ∧ s.tod.autoHold = false) ∧
    (∃ (s : State), s.hubOn = true ∧ bit (s.rd Reg.timeStat) 31 = false) ∧
    (∃ (s : State), bit (s.rd Reg.timeStat) 29 = false) ∧
    (∃ (s : State), s.hubOn = true) ∧
    (∃ (s : State), s.hubOn = true) :=
  ⟨⟨st155, hS, by decide +kernel, by decide +kernel⟩,
   ⟨w0.wr Reg.timeStat 0x20000000, by decide +kernel, by decide +kernel⟩,
   ⟨w0.wr Reg.timeStat 0x80000000, by decide +kernel⟩,
   ⟨st156, by decide +kernel⟩,
   ⟨w0, by decide +kernel⟩⟩

theorem meets_PulsesAndTimePortFrames :
    (∃ (s : State) (h : Hdr) (cfg : W32) (ofs : W32), s.ready h Op.ppsConfig = true ∧ 1 ≤ fld cfg 20 10 ∧ fld cfg 20 10 ≤ 999 ∧
      -500000000 ≤ ofs.toInt ∧ ofs.toInt ≤ 499999999) ∧
    (∃ (s : State) (h : Hdr), s.ready h Op.tsConfig = true) ∧
    (∃ (s : State), s.hubOn = true ∧ bit (s.rd Reg.ppsOutCfg) 31 = true) ∧
    (∃ (s : State), s.hubOn = true) ∧
    (∃ (s : State), s.hubOn = true ∧ bit (s.rd Reg.tsCfg) 30 = false) ∧
    (∃ (s : State), s.hubOn = true ∧ bit (s.rd Reg.tsCfg) 30 = true ∧ bit (s.rd Reg.tsCfg) 31 = true ∧ s.stagedOf 72 < 4 ∧ (s.gapOf
      72).dropped = 0) :=
  ⟨⟨w0, hS, 0xFE7FFFFF, 499999999, by decide +kernel, by decide +kernel, by decide +kernel, by decide +kernel, by decide +kernel⟩,
   ⟨w0, hS, by decide +kernel⟩,
   ⟨w0.wr Reg.ppsOutCfg 0x80100000, by decide +kernel, by decide +kernel⟩,
   ⟨w0, by decide +kernel⟩,
   ⟨w0.wr Reg.tsCfg 0x80000000, by decide +kernel, by decide +kernel⟩,
   ⟨w0.wr Reg.tsCfg 0xC0000000, by decide +kernel, by decide +kernel, by decide +kernel, by decide +kernel, by decide +kernel⟩⟩

theorem meets_PulsesAndTimePortFrames_2 :
    (∃ (s : State) (h : Hdr) (n : Nat), s.ready h Op.ptpConfig = true ∧ laneOk n = true ∧ s.laneMode n = 3) ∧
    (∃ (s : State) (h : Hdr) (n : Nat), s.ready h Op.ptpConfig = true ∧ laneOk n = true ∧ s.laneMode n ≠ 3) ∧
    (∃ (s : State) (n : Nat) (cyc : Nat) (one : Bool) (x : Stamp), s.hubOn = true ∧ laneOk n = true ∧ cyc < s.cTick ∧ s.laneMode n =
      3 ∧ s.tod.ptp.find? (fun e => e.1 == n) = some (n, one) ∧ x = stampOf ((s.atCycle cyc).todIn 0) ∧ s.rxState n = Rx.locked) ∧
    (∃ (s : State) (n : Nat) (cyc : Nat) (f : List W8) (one : Bool) (x : Stamp), s.hubOn = true ∧ laneOk n = true ∧ cyc < s.cTick ∧
      s.laneMode n = 3 ∧ s.tod.ptp.find? (fun e => e.1 == n) = some (n, one) ∧ x = stampOf ((s.atCycle cyc).todIn 0) ∧ s.txState n =
      2 ∧ ptpEvent f = none) ∧
    (∃ (s : State) (n : Nat) (cyc : Nat) (f : List W8) (one : Bool) (x : Stamp) (p : _) (u : _), s.hubOn = true ∧ laneOk n = true ∧
      cyc < s.cTick ∧ s.laneMode n = 3 ∧ s.tod.ptp.find? (fun e => e.1 == n) = some (n, one) ∧ x = stampOf ((s.atCycle cyc).todIn 0)
      ∧ s.txState n = 2 ∧ ptpEvent f = some (p, u) ∧ one = false) ∧
    (∃ (s : State) (n : Nat) (cyc : Nat) (f : List W8) (one : Bool) (x : Stamp) (p : _) (u : _), s.hubOn = true ∧ laneOk n = true ∧
      cyc < s.cTick ∧ s.laneMode n = 3 ∧ s.tod.ptp.find? (fun e => e.1 == n) = some (n, one) ∧ x = stampOf ((s.atCycle cyc).todIn 0)
      ∧ s.txState n = 2 ∧ ptpEvent f = some (p, u) ∧ one = true ∧ be f p 1 % 16 = 0 ∧ u ≠ 1) :=
  ⟨⟨wPort true, hS, 143, by decide +kernel, by decide +kernel, by decide +kernel⟩,
   ⟨w0, hS, 143, by decide +kernel, by decide +kernel, by decide +kernel⟩,
   ⟨wPort true, 143, 499, true, stampOf (((wPort true).atCycle 499).todIn 0), by decide +kernel, by decide +kernel,
     by decide +kernel, by decide +kernel, by decide +kernel, by decide +kernel, by decide +kernel⟩,
   ⟨wPort true, 143, 499, [], true, _, by decide +kernel, by decide +kernel, by decide +kernel, by decide +kernel, by decide +kernel,
     rfl, by decide +kernel, by decide +kernel⟩,
   ⟨wPort false, 143, 499, ptpF, false, _, 14, 0, by decide +kernel, by decide +kernel, by decide +kernel, by decide +kernel,
     by decide +kernel, rfl, by decide +kernel, by decide +kernel, by decide +kernel⟩,
   ⟨wPort true, 143, 499, ptpF, true, _, 14, 0, by decide +kernel, by decide +kernel, by decide +kernel, by decide +kernel,
     by decide +kernel, rfl, by decide +kernel, by decide +kernel, by decide +kernel, by decide +kernel, by decide +kernel⟩⟩

def st157 : State := wArb { ab [⟨3, 1, 5, none⟩] (some ⟨4, 1, 5, none⟩) with guarded := true } []
def st158 : State := wArb (ab [⟨3, 1, 5, none⟩] (some ⟨4, 1, 5, none⟩)) [(Reg.reqPrio 0x17F, 7)]
def st159 : State :=
  { wTick w0 with banks.arbs := [{ ab [⟨4, 1, 7, none⟩] none with ix := 0x1F1 }], ant.slots := [(1, ⟨0x1F1, 9, 63⟩)] }
def st160 : State := wArb (ab [⟨3, 1, 5, none⟩, ⟨4, 1, 7, none⟩, ⟨5, 1, 8, none⟩] none) [(Reg.reqPrio 4, 7), (Reg.reqPrio 3, 6),
  (Reg.reqPrio 5, 7)]
def st161 : State := wArb { ab [⟨3, 1, 5, none⟩] (some ⟨4, 1, 5, none⟩) with earliest := 10 } []
def st162 : State :=
  { w0 with banks.arbs := [{ ab [] (some ⟨4, 1, 5, some ⟨0x13FFFFFE0, some (List.replicate 32 (some 5)), 0⟩⟩) with ix := 0x13F, earliest := 10 }] }
def st163 : State :=
  { wMem with banks.arbs := [{ ab [] (some ⟨4, 1, 5, some ⟨0x13FFFFFE0, none, 0⟩⟩) with ix := 0x13F, earliest := 10 }] }
def st164 : State := wArb (ab [⟨3, 1, 5, none⟩] (some ⟨0x17F, 1, 5, none⟩)) [(Reg.reqPrio 0x17F, 7)]
def st165 : State := wArb (ab [⟨3, 1, 5, none⟩] none) [(Reg.reqPrio 0x17F, 7)]
theorem meets_ArbitersGrantByPriority :
    (∃ (s : State) (i : Nat) (id : Nat) (len : Nat) (cyc : Nat) (acc : Option ArbAccess), s.hubOn = true ∧ arbOk i = true ∧
      requesterOk id = true ∧ arbServes i id = true ∧ arbLenOk i len = true ∧ (∀ q, acc = some q → accessOk i len q = true) ∧ (s.arb
      i).lastCyc ≤ cyc ∧ s.arbAwake i = true ∧ (∀ r ∈ (s.arb i).waiting, r.id ≠ id) ∧ (∀ r, (s.arb i).holder = some r → r.id ≠ id) ∧
      ((s.arb i).holder = none ∨ (s.arb i).guarded = true ∨ s.prio id ≤ s.holdPrio i)) ∧
    (∃ (s : State) (i : Nat) (id : Nat) (len : Nat) (cyc : Nat) (acc : Option ArbAccess) (r : _), s.hubOn = true ∧ arbOk i = true ∧
      requesterOk id = true ∧ arbServes i id = true ∧ arbLenOk i len = true ∧ (∀ q, acc = some q → accessOk i len q = true) ∧ (s.arb
      i).lastCyc ≤ cyc ∧ s.arbAwake i = true ∧ (∀ r ∈ (s.arb i).waiting, r.id ≠ id) ∧ (∀ r, (s.arb i).holder = some r → r.id ≠ id) ∧
      (s.arb i).holder = some r ∧ (s.arb i).guarded = false ∧ s.holdPrio i < s.prio id) ∧
    (∃ (s : State) (i : Nat) (id : Nat) (len : Nat) (cyc : Nat) (acc : Option ArbAccess) (r : ArbReq), s.hubOn = true ∧ arbOk i =
      true ∧ requesterOk id = true ∧ arbServes i id = true ∧ arbLenOk i len = true ∧ (∀ q, acc = some q → accessOk i len q = true) ∧
      (s.arb i).lastCyc ≤ cyc ∧ s.arbAwake i = true ∧ (s.arb i).holder = none ∧ (s.arb i).earliest ≤ cyc ∧ (s.arb i).waiting.Nodup ∧
      r ∈ (s.arb i).waiting ∧ r.id < 512 ∧ s.arbRipe i cyc r = true ∧ (∀ x ∈ (s.arb i).waiting, x ≠ r → s.arbRipe i cyc x = false ∨
      s.prio x.id < s.prio r.id) ∧ s.arbRoom i r.dir cyc = 0) ∧
    (∃ (s : State) (i : Nat) (id : Nat) (len : Nat) (cyc : Nat) (acc : Option ArbAccess) (r : ArbReq), s.hubOn = true ∧ arbOk i =
      true ∧ requesterOk id = true ∧ arbServes i id = true ∧ arbLenOk i len = true ∧ (∀ q, acc = some q → accessOk i len q = true) ∧
      (s.arb i).lastCyc ≤ cyc ∧ s.arbAwake i = true ∧ (s.arb i).holder = none ∧ (s.arb i).earliest ≤ cyc ∧ (s.arb i).waiting.Nodup ∧
      r ∈ (s.arb i).waiting ∧ r.id < 512 ∧ s.arbRipe i cyc r = true ∧ (∀ x ∈ (s.arb i).waiting, x ≠ r → s.arbRipe i cyc x = false ∨
      s.prio x.id < s.prio r.id) ∧ s.arbRoom i r.dir cyc ≠ 0) ∧
    (∃ (s : State) (i : Nat) (id : Nat) (len : Nat) (cyc : Nat) (acc : Option ArbAccess) (r : ArbReq), s.hubOn = true ∧ arbOk i =
      true ∧ requesterOk id = true ∧ arbServes i id = true ∧ arbLenOk i len = true ∧ (∀ q, acc = some q → accessOk i len q = true) ∧
      (s.arb i).lastCyc ≤ cyc ∧ s.arbAwake i = true ∧ (s.arb i).holder = some r ∧ (s.arb i).earliest ≤ cyc + 1 ∧ r.id < 512) :=
  ⟨⟨st157, 0x23F, 0x17F, 1, 9, some ⟨patAddr 63 65535, none, 0⟩, by decide +kernel, by decide +kernel, by decide +kernel,
     by decide +kernel, by decide +kernel, by decide +kernel, by decide +kernel, by decide +kernel, by decide +kernel,
     by decide +kernel, by decide +kernel⟩,
   ⟨st158, 0x23F, 0x17F, 1, 9, none, ⟨4, 1, 5, none⟩, by decide +kernel, by decide +kernel, by decide +kernel, by decide +kernel,
     by decide +kernel, by decide +kernel, by decide +kernel, by decide +kernel, by decide +kernel, by decide +kernel,
     by decide +kernel, by decide +kernel, by decide +kernel⟩,
   ⟨st159, 0x1F1, 0x17F, 1, 9, none, ⟨4, 1, 7, none⟩, by decide +kernel, by decide +kernel, by decide +kernel, by decide +kernel,
     by decide +kernel, by decide +kernel, by decide +kernel, by decide +kernel, by decide +kernel, by decide +kernel,
     by decide +kernel, by decide +kernel, by decide +kernel, by decide +kernel, by decide +kernel, by decide +kernel⟩,
   ⟨st160, 0x23F, 0x17F, 1, 9, none, ⟨4, 1, 7, none⟩, by decide +kernel, by decide +kernel, by decide +kernel, by decide +kernel,
     by decide +kernel, by decide +kernel, by decide +kernel, by decide +kernel, by decide +kernel, by decide +kernel,
     by decide +kernel, by decide +kernel, by decide +kernel, by decide +kernel, by decide +kernel, by decide +kernel⟩,
   ⟨st161, 0x23F, 0x17F, 1, 9, none, ⟨4, 1, 5, none⟩, by decide +kernel, by decide +kernel, by decide +kernel, by decide +kernel,
     by decide +kernel, by decide +kernel, by decide +kernel, by decide +kernel, by decide +kernel, by decide +kernel,
     by decide +kernel⟩⟩

theorem meets_ArbitersGrantByPriority_2 :
    (∃ (s : State) (i : Nat) (id : Nat) (len : Nat) (cyc : Nat) (acc : Option ArbAccess) (r : ArbReq), s.hubOn = true ∧ arbOk i =
      true ∧ requesterOk id = true ∧ arbServes i id = true ∧ arbLenOk i len = true ∧ (∀ q, acc = some q → accessOk i len q = true) ∧
      (s.arb i).lastCyc ≤ cyc ∧ s.arbAwake i = true ∧ (s.arb i).holder = some r ∧ (s.arb i).earliest ≤ cyc + 1 ∧ r.id < 512) ∧
    (∃ (s : State) (i : Nat) (id : Nat) (len : Nat) (cyc : Nat) (acc : Option ArbAccess) (r : ArbReq), s.hubOn = true ∧ arbOk i =
      true ∧ requesterOk id = true ∧ arbServes i id = true ∧ arbLenOk i len = true ∧ (∀ q, acc = some q → accessOk i len q = true) ∧
      (s.arb i).lastCyc ≤ cyc ∧ s.arbAwake i = true ∧ (s.arb i).holder = some r ∧ (s.arb i).earliest ≤ cyc + 1 ∧ r.id < 512) ∧
    (∃ (s : State) (i : Nat) (id : Nat) (len : Nat) (cyc : Nat) (acc : Option ArbAccess) (v : W32), s.hubOn = true ∧ arbOk i = true ∧
      requesterOk id = true ∧ arbServes i id = true ∧ arbLenOk i len = true ∧ (∀ q, acc = some q → accessOk i len q = true) ∧ (s.arb
      i).lastCyc ≤ cyc ∧ s.arbAwake i = true ∧ s.prio id ≤ fld v 0 3) ∧
    (∃ (s : State) (i : Nat) (id : Nat) (len : Nat) (cyc : Nat) (acc : Option ArbAccess), s.hubOn = true ∧ arbOk i = true ∧
      requesterOk id = true ∧ arbServes i id = true ∧ arbLenOk i len = true ∧ (∀ q, acc = some q → accessOk i len q = true) ∧ (s.arb
      i).lastCyc ≤ cyc ∧ s.arbAwake i = true ∧ (∀ a ∈ s.banks.arbs, ∀ r, a.holder = some r → r.id ≠ id)) :=
  ⟨⟨st162, 0x13F, 0x17F, 1, 9, none, ⟨4, 1, 5, some ⟨0x13FFFFFE0, some (List.replicate 32 (some 5)), 0⟩⟩, by decide +kernel,
     by decide +kernel, by decide +kernel, by decide +kernel, by decide +kernel, by decide +kernel, by decide +kernel,
     by decide +kernel, by decide +kernel, by decide +kernel, by decide +kernel⟩,
   ⟨st163, 0x13F, 0x17F, 1, 9, none, ⟨4, 1, 5, some ⟨0x13FFFFFE0, none, 0⟩⟩, by decide +kernel, by decide +kernel, by decide +kernel,
     by decide +kernel, by decide +kernel, by decide +kernel, by decide +kernel, by decide +kernel, by decide +kernel,
     by decide +kernel, by decide +kernel⟩,
   ⟨st164, 0x23F, 0x17F, 1, 9, none, 0xFFFFFFFF, by decide +kernel, by decide +kernel, by decide +kernel, by decide +kernel,
     by decide +kernel, by decide +kernel, by decide +kernel, by decide +kernel, by decide +kernel⟩,
   ⟨st165, 0x23F, 0x17F, 1, 9, none, by decide +kernel, by decide +kernel, by decide +kernel, by decide +kernel, by decide +kernel,
     by decide +kernel, by decide +kernel, by decide +kernel, by decide +kernel⟩⟩

def st166 : State := { wQ 63 63 with ant.mesh := [mi (.stop 0), mi (.core 15 511)] }
def st167 : State := { w0 with ant.mesh := [mi (.stop 0), mi (.core 15 511)] }
def st168 : State := { wT 3 3 with ant.credits := [srcC] }
def st169 : State := wSlot [⟨0x1F1, 63, mi (.stop 0x72)⟩]
def st170 : State := wSlot [⟨0x1F1, 62, mi (.stop 0x72)⟩]
def st171 : State := w0.wrs ((List.range 4).map (fun k => (Reg.scrub k, 0x80000000)))
def st172 : State := (w0.wrs ((List.range 4).map (fun k => (Reg.scrub k, 0x80000000)))).wrLE ((wPt 0 0 0).wayAddr 63 0 0 0 0) 32
  (5 * 2 ^ 176)
def st173 : State := w0.wrs ((List.range 4).map (fun k => (Reg.scrub k, 0x80000004)))
theorem meets_FlitsSlotsAndScrub :
    (∃ (s : State) (i : Nat) (tile : Nat) (lc : Nat) (c : Nat) (k : Nat) (q : Nat) (m : MeshItem), s.hubOn = true ∧ s.ant.mesh[i]? =
      some m ∧ m.link = none ∧ m.dest = .core tile lc ∧ c = s.phys tile lc ∧ k = m.flit.ctx ∧ q = m.flit.dq ∧ tile < 16 ∧ c < 544 ∧ k
      < 4 ∧ q < 8 ∧ s.ctxValid tile c k = true ∧ s.qEn tile c k q = true ∧ s.qGather tile c k q = false ∧ m.flit.len = 0 ∧ s.qHeld
      tile c k q < s.qDepth tile c k q ∧ s.qDepth tile c k q ≤ 64 ∧ s.rdF (Reg.qstat tile c k q) 8 6 < s.qDepth tile c k q) ∧
    (∃ (s : State) (i : Nat) (tile : Nat) (lc : Nat) (c : Nat) (k : Nat) (q : Nat) (m : MeshItem), s.hubOn = true ∧ s.ant.mesh[i]? =
      some m ∧ m.link = none ∧ m.dest = .core tile lc ∧ c = s.phys tile lc ∧ k = m.flit.ctx ∧ q = m.flit.dq ∧ tile < 16 ∧ c < 544 ∧ k
      < 4 ∧ q < 8 ∧ s.ctxValid tile c k = false) ∧
    (∃ (s : State) (i : Nat) (x : Src) (a : Nat), s.hubOn = true ∧ s.ant.credits[i]? = some x ∧ x.mid = 0 ∧ (s.ctxTimed x.ctx = true
      ∨ s.surveyPaused x.tile (s.phys x.tile x.core) = false) ∧ a = Reg.credit x.tile (s.phys x.tile x.core) x.ctx x.route) ∧
    (∃ (s : State) (p : Nat) (sl : Nat) (h : Nat) (r : SlotRes), s.hubOn = true ∧ slotPortOk p = true ∧ s.ant.slots.find? (fun e =>
      e.2.port == p && e.2.slot == sl) = some (h, r) ∧ (∀ q ∈ s.ant.requests, q.port ≠ p)) ∧
    (∃ (s : State) (p : Nat) (sl : Nat) (h : Nat) (r : SlotRes) (ecc : Findings) (q : SlotReq) (out : State), s.hubOn = true ∧
      slotPortOk p = true ∧ s.ant.slots.find? (fun e => e.2.port == p && e.2.slot == sl) = some (h, r) ∧ s.ant.requests = [q] ∧
      q.port = p ∧ q.owner = r.owner ∧ State.deliver
      { s with banks.opened := s.banks.opened ++ [(p, sl, false)], ant.requests := [] } q.item ecc = some out) ∧
    (∃ (s : State) (p : Nat) (sl : Nat) (h : Nat) (r : SlotRes) (q : SlotReq), s.hubOn = true ∧ slotPortOk p = true ∧
      s.ant.slots.find? (fun e => e.2.port == p && e.2.slot == sl) = some (h, r) ∧ s.ant.requests = [q] ∧ q.port = p ∧ q.owner ≠
      r.owner ∧ q.item.req = false) :=
  ⟨⟨st166, 1, 15, 511, _, _, _, mi (.core 15 511), by decide +kernel, by decide +kernel, by decide +kernel, by decide +kernel, rfl,
     rfl, rfl, by decide +kernel, by decide +kernel, by decide +kernel, by decide +kernel, by decide +kernel, by decide +kernel,
     by decide +kernel, by decide +kernel, by decide +kernel, by decide +kernel, by decide +kernel⟩,
   ⟨st167, 1, 15, 511, _, _, _, mi (.core 15 511), by decide +kernel, by decide +kernel, by decide +kernel, by decide +kernel, rfl,
     rfl, rfl, by decide +kernel, by decide +kernel, by decide +kernel, by decide +kernel, by decide +kernel⟩,
   ⟨st168, 0, srcC, Reg.credit srcC.tile (st168.phys srcC.tile srcC.core) srcC.ctx srcC.route, by decide +kernel, by decide +kernel,
     by decide +kernel, by decide +kernel, by decide +kernel⟩,
   ⟨wSlot [], 0x1F1, 5, 1, slotR, by decide +kernel, by decide +kernel, by decide +kernel, by decide +kernel⟩,
   ⟨st169, 0x1F1, 5, 1, slotR, [], (⟨0x1F1, 63, mi (.stop 0x72)⟩ : SlotReq), (State.deliver
     { st169 with banks.opened := st169.banks.opened ++ [(0x1F1, 5, false)], ant.requests := [] }
     ((⟨0x1F1, 63, mi (.stop 0x72)⟩ : SlotReq)).item ([])).getD st169, by decide +kernel, by decide +kernel, by decide +kernel,
     by decide +kernel, by decide +kernel, by decide +kernel, some_getD (by decide +kernel)⟩,
   ⟨st170, 0x1F1, 5, 1, slotR, (⟨0x1F1, 62, mi (.stop 0x72)⟩ : SlotReq), by decide +kernel, by decide +kernel, by decide +kernel,
     by decide +kernel, by decide +kernel, by decide +kernel, by decide +kernel⟩⟩

theorem meets_FlitsSlotsAndScrub_2 :
    (∃ (s : State) (a : Nat), s.hubOn = true ∧ s.shedStage = 0 ∧ (regionOf a).isMem = true ∧ granule a = a ∧ memKind a ≠ 3 ∧ bit
      (s.rd (Reg.scrub (memKind a))) 31 = true ∧ (regionOf a = .hbm → s.asleep a = false)) ∧
    (∃ (s : State) (a : Nat), s.hubOn = true ∧ s.shedStage = 0 ∧ (regionOf a).isMem = true ∧ granule a = a ∧ memKind a ≠ 3 ∧ bit
      (s.rd (Reg.scrub (memKind a))) 31 = true ∧ (regionOf a = .hbm → s.asleep a = false)) ∧
    (∃ (s : State) (a : Nat) (n : _), s.hubOn = true ∧ s.shedStage = 0 ∧ (regionOf a).isMem = true ∧ granule a = a ∧ memKind a ≠ 3 ∧
      bit (s.rd (Reg.scrub (memKind a))) 31 = true ∧ (regionOf a = .hbm → s.asleep a = false) ∧ 2 ≤ n ∧ (memKind a = 1 → n = 17)) ∧
    (∃ (s : State) (a : Nat), s.hubOn = true ∧ s.shedStage = 0 ∧ regionOf a = .pattern ∧ granule a = a ∧ bit (s.rd (Reg.scrub 3)) 31
      = true ∧ (bits (s.rdLE a 32) 176 3 = 0 ∨ bits (s.rdLE a 32) 176 3 = 7)) ∧
    (∃ (s : State) (a : Nat), s.hubOn = true ∧ s.shedStage = 0 ∧ regionOf a = .pattern ∧ granule a = a ∧ bit (s.rd (Reg.scrub 3)) 31
      = true ∧ (bits (s.rdLE a 32) 176 3 = 3 ∨ bits (s.rdLE a 32) 176 3 = 5 ∨ bits (s.rdLE a 32) 176 3 = 6)) ∧
    (∃ (s : State) (kind : Nat), s.hubOn = true ∧ s.shedStage = 0 ∧ kind < 4 ∧ bit (s.rd (Reg.scrub kind)) 31 = true) :=
  ⟨⟨st171, 0x147FFFFFFE0, by decide +kernel, by decide +kernel, by decide +kernel, by decide +kernel, by decide +kernel,
     by decide +kernel, by decide +kernel⟩,
   ⟨st171, 0x147FFFFFFE0, by decide +kernel, by decide +kernel, by decide +kernel, by decide +kernel, by decide +kernel,
     by decide +kernel, by decide +kernel⟩,
   ⟨st171, 0x147FFFFFFE0, 17, by decide +kernel, by decide +kernel, by decide +kernel, by decide +kernel, by decide +kernel,
     by decide +kernel, by decide +kernel, by decide +kernel, by decide +kernel⟩,
   ⟨st171, (wPt 0 0 0).wayAddr 63 0 0 0 0, by decide +kernel, by decide +kernel, by decide +kernel, by decide +kernel,
     by decide +kernel, by decide +kernel⟩,
   ⟨st172, (wPt 0 0 0).wayAddr 63 0 0 0 0, by decide +kernel, by decide +kernel, by decide +kernel, by decide +kernel,
     by decide +kernel, by decide +kernel⟩,
   ⟨st173, 3, by decide +kernel, by decide +kernel, by decide +kernel, by decide +kernel⟩⟩

def st174 : State := wI { w0 with ant.shadows := [(kc 15 542, [⟨5, .vr 31 7 0⟩])] } (iw 0 3 0 0 0 1 (vrg 31) (imd 0x1FFFFF) 0 0 0)
def st175 : State := wI (w0.wrLE (Reg.coreBase 15 542 + 0x2FFE0) 32 0x1234) (iw 0 0 0 0 0 1 (sto 0x40) (sto 0x2FFE0) 0 1 0)
def st176 : State := wI (w0.wrLE (Reg.coreBase 15 542 + 0x2FFC0) 64 0x1234) (iw 0 1 0 0 0 1 (vrg 31) (sto 0x2FFC0) 0 0 0)
def st177 : State := wI w0 (iw 0 1 0 0 0 1 (vrg 31) (sto 0x2FFE0) 0 0 0)
def st178 : State := wI { w0 with ant.vr := [(kc 15 542 * 32 + 31, 0x55)] } (iw 0 2 0 0 0 1 (sto 0x2FFC0) (vrg 31) 0 0 0)
def st179 : State := wI w0 (iw 0 3 0 0 0 1 (vrg 31) (imd 0x1FFFFF) 0 0 0)
def st180 : State := wQf (iw 3 0 0 0 0 1 (vrg 31) (qud 7) 0 0 0)
def st181 : State := wQf (iw 3 0 0 0 0 1 (sto 0x2FFE0) (qud 7) 0 0 0)
theorem meets_AntMovesData :
    (∃ (s : State) (u : State) (tile : Nat) (core : Nat) (f : Firing) (g : Firing) (i : AntIns) (ms : AntMeas) (cb : Nat), s.atIns
      tile core f i ∧ ms.ecc = [] ∧ s.atIssue f i ms = (g, u) ∧ cb = Reg.coreBase f.tile f.core ∧ (∀ h ∈ s.shadowsOf f.tile f.core,
      h.due ≤ g.clk)) ∧
    (∃ (s : State) (u : State) (tile : Nat) (core : Nat) (f : Firing) (g : Firing) (i : AntIns) (ms : AntMeas) (cb : Nat), s.atIns
      tile core f i ∧ ms.ecc = [] ∧ s.atIssue f i ms = (g, u) ∧ cb = Reg.coreBase f.tile f.core ∧ (∀ h ∈ s.shadowsOf f.tile f.core,
      h.due ≤ g.clk)) ∧
    (∃ (s : State) (u : State) (tile : Nat) (core : Nat) (f : Firing) (g : Firing) (i : AntIns) (ms : AntMeas) (cb : Nat), s.atIns
      tile core f i ∧ ms.ecc = [] ∧ s.atIssue f i ms = (g, u) ∧ cb = Reg.coreBase f.tile f.core ∧ (∀ h ∈ s.shadowsOf f.tile f.core,
      h.due ≤ g.clk)) ∧
    (∃ (s : State) (u : State) (tile : Nat) (core : Nat) (f : Firing) (g : Firing) (i : AntIns) (ms : AntMeas) (cb : Nat), s.atIns
      tile core f i ∧ ms.ecc = [] ∧ s.atIssue f i ms = (g, u) ∧ cb = Reg.coreBase f.tile f.core ∧ i.cls = 0 ∧ i.op = 0 ∧ (∀ n : Nat,
      n < i.cnt → s.inBounds f (dAddr i.srcA + 32 * i.step * n) 32 = true ∧ s.inBounds f (dAddr i.dst + 32 * i.step * n) 32 = true)) ∧
    (∃ (s : State) (u : State) (tile : Nat) (core : Nat) (f : Firing) (g : Firing) (i : AntIns) (ms : AntMeas) (cb : Nat), s.atIns
      tile core f i ∧ ms.ecc = [] ∧ s.atIssue f i ms = (g, u) ∧ cb = Reg.coreBase f.tile f.core ∧ i.cls = 0 ∧ i.op = 1 ∧ s.inBounds f
      (dAddr i.srcA) 64 = true) :=
  ⟨⟨st174, uAt st174, 15, 542, fi 511, gAt st174, iAt st174, {}, _, ⟨by decide +kernel, by decide +kernel, by decide +kernel, rfl⟩,
     by decide +kernel, rfl, rfl, by decide +kernel⟩,
   ⟨st174, uAt st174, 15, 542, fi 511, gAt st174, iAt st174, {}, _, ⟨by decide +kernel, by decide +kernel, by decide +kernel, rfl⟩,
     by decide +kernel, rfl, rfl, by decide +kernel⟩,
   ⟨st174, uAt st174, 15, 542, fi 511, gAt st174, iAt st174, {}, _, ⟨by decide +kernel, by decide +kernel, by decide +kernel, rfl⟩,
     by decide +kernel, rfl, rfl, by decide +kernel⟩,
   ⟨st175, uAt st175, 15, 542, fi 511, gAt st175, iAt st175, {}, _, ⟨by decide +kernel, by decide +kernel, by decide +kernel, rfl⟩,
     by decide +kernel, rfl, rfl, by decide +kernel, by decide +kernel, by decide +kernel⟩,
   ⟨st176, uAt st176, 15, 542, fi 511, gAt st176, iAt st176, {}, _, ⟨by decide +kernel, by decide +kernel, by decide +kernel, rfl⟩,
     by decide +kernel, rfl, rfl, by decide +kernel, by decide +kernel, by decide +kernel⟩⟩

theorem meets_AntMovesData_2 :
    (∃ (s : State) (u : State) (tile : Nat) (core : Nat) (f : Firing) (g : Firing) (i : AntIns) (ms : AntMeas) (cb : Nat), s.atIns
      tile core f i ∧ ms.ecc = [] ∧ s.atIssue f i ms = (g, u) ∧ cb = Reg.coreBase f.tile f.core ∧ i.cls = 0 ∧ i.op = 1 ∧ s.inBounds f
      (dAddr i.srcA) 64 = false) ∧
    (∃ (s : State) (u : State) (tile : Nat) (core : Nat) (f : Firing) (g : Firing) (i : AntIns) (ms : AntMeas) (cb : Nat), s.atIns
      tile core f i ∧ ms.ecc = [] ∧ s.atIssue f i ms = (g, u) ∧ cb = Reg.coreBase f.tile f.core ∧ i.cls = 0 ∧ i.op = 2 ∧ s.inBounds f
      (dAddr i.dst) 64 = true) ∧
    (∃ (s : State) (u : State) (tile : Nat) (core : Nat) (f : Firing) (g : Firing) (i : AntIns) (ms : AntMeas) (cb : Nat), s.atIns
      tile core f i ∧ ms.ecc = [] ∧ s.atIssue f i ms = (g, u) ∧ cb = Reg.coreBase f.tile f.core ∧ i.cls = 0 ∧ i.op = 3) ∧
    (∃ (s : State) (u : State) (tile : Nat) (core : Nat) (f : Firing) (g : Firing) (i : AntIns) (ms : AntMeas) (cb : Nat) (fl : Flit)
      (q : Nat), s.atIns tile core f i ∧ ms.ecc = [] ∧ s.atIssue f i ms = (g, u) ∧ cb = Reg.coreBase f.tile f.core ∧ i.cls = 3 ∧ i.op
      = 0 ∧ i.cnt = 1 ∧ q = dQueue i.srcA ∧ s.spilledOf f.tile f.core f.ctx q = [] ∧ s.qHead f.tile f.core f.ctx q = some fl ∧ dKind
      i.dst = Kind.vreg) ∧
    (∃ (s : State) (u : State) (tile : Nat) (core : Nat) (f : Firing) (g : Firing) (i : AntIns) (ms : AntMeas) (cb : Nat) (fl : Flit)
      (q : Nat), s.atIns tile core f i ∧ ms.ecc = [] ∧ s.atIssue f i ms = (g, u) ∧ cb = Reg.coreBase f.tile f.core ∧ i.cls = 3 ∧ i.op
      = 0 ∧ i.cnt = 1 ∧ q = dQueue i.srcA ∧ s.spilledOf f.tile f.core f.ctx q = [] ∧ s.qHead f.tile f.core f.ctx q = some fl ∧ dKind
      i.dst ≠ Kind.vreg ∧ s.inBounds f (dAddr i.dst) 32 = true) :=
  ⟨⟨st177, uAt st177, 15, 542, fi 511, gAt st177, iAt st177, {}, _, ⟨by decide +kernel, by decide +kernel, by decide +kernel, rfl⟩,
     by decide +kernel, rfl, rfl, by decide +kernel, by decide +kernel, by decide +kernel⟩,
   ⟨st178, uAt st178, 15, 542, fi 511, gAt st178, iAt st178, {}, _, ⟨by decide +kernel, by decide +kernel, by decide +kernel, rfl⟩,
     by decide +kernel, rfl, rfl, by decide +kernel, by decide +kernel, by decide +kernel⟩,
   ⟨st179, uAt st179, 15, 542, fi 511, gAt st179, iAt st179, {}, _, ⟨by decide +kernel, by decide +kernel, by decide +kernel, rfl⟩,
     by decide +kernel, rfl, rfl, by decide +kernel, by decide +kernel⟩,
   ⟨st180, uAt st180, 15, 542, fi 511, gAt st180, iAt st180, {}, _, (st180.qHead 15 542 3 7).getD (flC 0), 7, ⟨by decide +kernel,
     by decide +kernel, by decide +kernel, rfl⟩, by decide +kernel, rfl, rfl, by decide +kernel, by decide +kernel,
     by decide +kernel, by decide +kernel, by decide +kernel, by decide +kernel, by decide +kernel⟩,
   ⟨st181, uAt st181, 15, 542, fi 511, gAt st181, iAt st181, {}, _, (st181.qHead 15 542 3 7).getD (flC 0), 7, ⟨by decide +kernel,
     by decide +kernel, by decide +kernel, rfl⟩, by decide +kernel, rfl, rfl, by decide +kernel, by decide +kernel,
     by decide +kernel, by decide +kernel, by decide +kernel, by decide +kernel, by decide +kernel, by decide +kernel⟩⟩

def st182 : State := wQf (iw 3 1 0 0 0 1 0 (sto 0x2FFE0) 0 0 15)
def st183 : State := wQf (iw 3 1 0 0 0 1 0 (sto 0x2FFE0) 0 0 (15 + 7 * 16 + 256))
def st184 : State := wQf (iw 3 2 0 0 0 1 0 (qud 7) 0 0 15)
def st185 : State := wQf (iw 3 3 0 0 0 1 (qud 6) (sto 0x2FFE0) 0 0 15)
def st186 : State := wQf (iw 4 0 0 0 0 1 (qud 6) (sto 0x2FFE0) 0 0 0x3FF)
def st187 : State := wI w0 (iw 5 0 0 0 0 1 0 0 0 0 0)
def st188 : State := wI w0 (iw 5 1 0 0 0 3 0 0 0 0 7)
def st189 : State := wI w0 (iw 5 2 0 0 0 1 0 0 0 0 0)
def st190 : State := (wI w0 (iw 5 0 0 0 0 1 0 0 0 0 0)).setPoison (iramAddr 15 542 3 511) 16 true
def st191 : State := { wI w0 0 with ant.mesh := [{ flit := { flC 0 with fires := [4] }, dest := .core 15 511, result := false }] }
def st192 : State := wFs 0x01000000 ⟨9, true, false, none, []⟩
def st193 : State := wFs 0x01010000 ⟨8, true, false, none, []⟩
theorem meets_AntSendsAndSequences :
    (∃ (s : State) (u : State) (v : State) (tile : Nat) (core : Nat) (f : Firing) (g : Firing) (i : AntIns) (ms : AntMeas) (cr : Nat)
      (d : BitVec 256) (p : Bool) (dest : Dest), s.atIns tile core f i ∧ ms.ecc = [] ∧ ms.res = [] ∧ s.atIssue f i ms = (g, u) ∧ cr =
      Reg.credit f.tile f.core f.ctx (bits i.aux 0 4) ∧ i.cls = 3 ∧ i.op = 1 ∧ i.cnt = 1 ∧ u.pushData g i 0 [] = (d, p, v) ∧
      routeDest f (s.rd (Reg.route f.tile f.core f.ctx (bits i.aux 0 4))) = some dest) ∧
    (∃ (s : State) (u : State) (v : State) (tile : Nat) (core : Nat) (f : Firing) (g : Firing) (i : AntIns) (ms : AntMeas) (cr : Nat)
      (d : BitVec 256) (p : Bool) (dest : Dest), s.atIns tile core f i ∧ ms.ecc = [] ∧ ms.res = [] ∧ s.atIssue f i ms = (g, u) ∧ cr =
      Reg.credit f.tile f.core f.ctx (bits i.aux 0 4) ∧ i.cls = 3 ∧ i.op = 1 ∧ i.cnt = 1 ∧ u.pushData g i 0 [] = (d, p, v) ∧
      routeDest f (s.rd (Reg.route f.tile f.core f.ctx (bits i.aux 0 4))) = some dest) ∧
    (∃ (s : State) (u : State) (tile : Nat) (core : Nat) (f : Firing) (g : Firing) (i : AntIns) (ms : AntMeas) (cr : Nat)
      (dest : Dest) (fl : Flit) (q : Nat), s.atIns tile core f i ∧ ms.ecc = [] ∧ ms.res = [] ∧ s.atIssue f i ms = (g, u) ∧ cr =
      Reg.credit f.tile f.core f.ctx (bits i.aux 0 4) ∧ i.cls = 3 ∧ i.op = 2 ∧ i.cnt = 1 ∧ q = dQueue i.srcA ∧ s.spilledOf f.tile
      f.core f.ctx q = [] ∧ s.qHead f.tile f.core f.ctx q = some fl ∧ routeDest f
      (s.rd (Reg.route f.tile f.core f.ctx (bits i.aux 0 4))) = some dest) ∧
    (∃ (s : State) (u : State) (v : State) (tile : Nat) (core : Nat) (f : Firing) (g : Firing) (i : AntIns) (ms : AntMeas) (cr : Nat)
      (d : BitVec 256) (p : Bool) (dest : Dest), s.atIns tile core f i ∧ ms.ecc = [] ∧ ms.res = [] ∧ s.atIssue f i ms = (g, u) ∧ cr =
      Reg.credit f.tile f.core f.ctx (bits i.aux 0 4) ∧ i.cls = 3 ∧ i.op = 3 ∧ i.cnt = 1 ∧ u.pushData g i 0 [] = (d, p, v) ∧
      routeDest f (s.rd (Reg.route f.tile f.core f.ctx (bits i.aux 0 4))) = some dest) ∧
    (∃ (s : State) (u : State) (v : State) (tile : Nat) (core : Nat) (f : Firing) (g : Firing) (i : AntIns) (ms : AntMeas) (cr : Nat)
      (d : BitVec 256) (p : Bool), s.atIns tile core f i ∧ ms.ecc = [] ∧ ms.res = [] ∧ s.atIssue f i ms = (g, u) ∧ cr = Reg.credit
      f.tile f.core f.ctx (bits i.aux 0 4) ∧ i.cls = 4 ∧ i.op = 0 ∧ i.cnt = 1 ∧ u.pushData g i 0 [] = (d, p, v)) ∧
    (∃ (s : State) (u : State) (tile : Nat) (core : Nat) (f : Firing) (g : Firing) (i : AntIns) (ms : AntMeas) (cr : Nat), s.atIns
      tile core f i ∧ ms.ecc = [] ∧ ms.res = [] ∧ s.atIssue f i ms = (g, u) ∧ cr = Reg.credit f.tile f.core f.ctx (bits i.aux 0 4) ∧
      i.cls = 5 ∧ i.op = 0) :=
  ⟨⟨st182, uAt st182, (dAt st182).2.2, 15, 542, fi 511, gAt st182, iAt st182, {}, _, (dAt st182).1, (dAt st182).2.1, .core 15 511,
     ⟨by decide +kernel, by decide +kernel, by decide +kernel, rfl⟩, by decide +kernel, by decide +kernel, rfl, rfl,
     by decide +kernel, by decide +kernel, by decide +kernel, rfl, by decide +kernel⟩,
   ⟨st183, uAt st183, (dAt st183).2.2, 15, 542, fi 511, gAt st183, iAt st183, {}, _, (dAt st183).1, (dAt st183).2.1, .core 15 511,
     ⟨by decide +kernel, by decide +kernel, by decide +kernel, rfl⟩, by decide +kernel, by decide +kernel, rfl, rfl,
     by decide +kernel, by decide +kernel, by decide +kernel, rfl, by decide +kernel⟩,
   ⟨st184, uAt st184, 15, 542, fi 511, gAt st184, iAt st184, {}, _, .core 15 511, (st184.qHead 15 542 3 7).getD (flC 0), 7,
     ⟨by decide +kernel, by decide +kernel, by decide +kernel, rfl⟩, by decide +kernel, by decide +kernel, rfl, rfl,
     by decide +kernel, by decide +kernel, by decide +kernel, by decide +kernel, by decide +kernel, by decide +kernel,
     by decide +kernel⟩,
   ⟨st185, uAt st185, (dAt st185).2.2, 15, 542, fi 511, gAt st185, iAt st185, {}, _, (dAt st185).1, (dAt st185).2.1, .core 15 511,
     ⟨by decide +kernel, by decide +kernel, by decide +kernel, rfl⟩, by decide +kernel, by decide +kernel, rfl, rfl,
     by decide +kernel, by decide +kernel, by decide +kernel, rfl, by decide +kernel⟩,
   ⟨st186, uAt st186, (dAt st186).2.2, 15, 542, fi 511, gAt st186, iAt st186, {}, _, (dAt st186).1, (dAt st186).2.1,
     ⟨by decide +kernel, by decide +kernel, by decide +kernel, rfl⟩, by decide +kernel, by decide +kernel, rfl, rfl,
     by decide +kernel, by decide +kernel, by decide +kernel, rfl⟩,
   ⟨st187, uAt st187, 15, 542, fi 511, gAt st187, iAt st187, {}, _, ⟨by decide +kernel, by decide +kernel, by decide +kernel, rfl⟩,
     by decide +kernel, by decide +kernel, rfl, rfl, by decide +kernel, by decide +kernel⟩⟩

theorem meets_AntSendsAndSequences_2 :
    (∃ (s : State) (u : State) (tile : Nat) (core : Nat) (f : Firing) (g : Firing) (i : AntIns) (ms : AntMeas) (cr : Nat), s.atIns
      tile core f i ∧ ms.ecc = [] ∧ ms.res = [] ∧ s.atIssue f i ms = (g, u) ∧ cr = Reg.credit f.tile f.core f.ctx (bits i.aux 0 4) ∧
      i.cls = 5 ∧ i.op = 1) ∧
    (∃ (s : State) (u : State) (tile : Nat) (core : Nat) (f : Firing) (g : Firing) (i : AntIns) (ms : AntMeas) (cr : Nat), s.atIns
      tile core f i ∧ ms.ecc = [] ∧ ms.res = [] ∧ s.atIssue f i ms = (g, u) ∧ cr = Reg.credit f.tile f.core f.ctx (bits i.aux 0 4) ∧
      i.cls = 5 ∧ i.op = 2) ∧
    (∃ (s : State) (tile : Nat) (core : Nat) (f : Firing), coreOk tile core = true ∧ s.firingOf tile core = some f ∧ 0 < f.serial ∧
      s.isPoison (iramAddr f.tile f.core f.ctx f.pc) 16 = true) ∧
    (∃ (s : State) (tile : Nat) (core : Nat) (f : Firing), coreOk tile core = true ∧ s.firingOf tile core = some f ∧ 0 < f.serial ∧
      bit (s.rd (Reg.ctxCfg tile core f.ctx)) 30 = false ∧ f.start + s.rdF (Reg.ctxMaxFire tile core f.ctx) 0 16 ≤ s.issueAt f
      (antIns (s.fetchAnt f).1)) ∧
    (∃ (s : State) (tile : Nat) (core : Nat) (cyc : Nat) (k : Nat) (q : Nat) (qs : List Nat) (fl : Flit), coreOk tile core = true ∧
      s.hubOn = true ∧ SMap.get 0 s.ant.endAt (kc tile core) ≤ s.tod.tickFab + cyc ∧ s.selectCtx tile core cyc = some k ∧ s.named
      tile core k = q :: qs ∧ s.qHead tile core k q = some fl ∧ s.firingOf tile core = none ∧ (∀ r ∈ qs, ∀ x, s.qHead tile core k r =
      some x → x.tag = fl.tag)) ∧
    (∃ (s : State) (tile : Nat) (core : Nat) (cyc : Nat) (k : Nat) (q : Nat) (qs : List Nat) (fl : Flit), coreOk tile core = true ∧
      s.hubOn = true ∧ SMap.get 0 s.ant.endAt (kc tile core) ≤ s.tod.tickFab + cyc ∧ s.selectCtx tile core cyc = some k ∧ s.named
      tile core k = q :: qs ∧ s.qHead tile core k q = some fl ∧ s.firingOf tile core = none ∧ (∃ r ∈ qs, ∃ x, s.qHead tile core k r =
      some x ∧ x.tag ≠ fl.tag)) :=
  ⟨⟨st188, uAt st188, 15, 542, fi 511, gAt st188, iAt st188, {}, _, ⟨by decide +kernel, by decide +kernel, by decide +kernel, rfl⟩,
     by decide +kernel, by decide +kernel, rfl, rfl, by decide +kernel, by decide +kernel⟩,
   ⟨st189, uAt st189, 15, 542, fi 511, gAt st189, iAt st189, {}, _, ⟨by decide +kernel, by decide +kernel, by decide +kernel, rfl⟩,
     by decide +kernel, by decide +kernel, rfl, rfl, by decide +kernel, by decide +kernel⟩,
   ⟨st190, 15, 542, fi 511, by decide +kernel, by decide +kernel, by decide +kernel, by decide +kernel⟩,
   ⟨st191, 15, 542, fi 511, by decide +kernel, by decide +kernel, by decide +kernel, by decide +kernel, by decide +kernel⟩,
   ⟨st192, 15, 542, 0, 3, 7, [], (st192.qHead 15 542 3 7).getD (flC 0), by decide +kernel, by decide +kernel, by decide +kernel,
     by decide +kernel, by decide +kernel, by decide +kernel, by decide +kernel, by decide +kernel⟩,
   ⟨st193, 15, 542, 0, 3, 6, [7], (st193.qHead 15 542 3 6).getD (flC 0), by decide +kernel, by decide +kernel, by decide +kernel,
     by decide +kernel, by decide +kernel, by decide +kernel, by decide +kernel, by decide +kernel⟩⟩

def st194 : State := wV (iw 2 0 0 0 0 1 (vrg 31) (vrg 30) (imd 0x7F000) 0 0) 0
def st195 : State := wV (iw 2 4 0 0 0 1 (vrg 30) (vrg 30) (imd 0x7F000) 0 0) 0
def st196 : State := wV (iw 2 5 0 0 0 1 (vrg 30) (vrg 30) (imd 0x7F000) 0 0) 0
def st197 : State := wV (iw 2 6 0 0 0 1 (vrg 30) (vrg 30) (imd 0x7F000) 0 0) 0
def st198 : State := wV (iw 2 0 0 0 0 1 (vrg 31) (vrg 30) (imd 0x7F000) 0 0) 65535
def st199 : State := (wV (iw 2 7 0 8 0 1 (vrg 31) (vrg 30) 0 0 4095) 0).wrLE (Reg.coreBase 15 542 + 4095 * 32) 32 (1023 * 2 ^ 190)
def st200 : State := (wV (iw 2 8 0 0 0 1 (vrg 31) (vrg 30) 0 0 4095) 0).wrLE (Reg.coreBase 15 542 + 4095 * 32) 32
  (1023 * 2 ^ 240 + 3 * 2 ^ 208 + 5 * 2 ^ 177)
theorem meets_VectorClassWorksByLanes :
    (∃ (s : State) (u0 : State) (tile : Nat) (core : Nat) (f : Firing) (g : Firing) (i : AntIns) (ms : AntMeas) (as : List W32)
      (bs : List W32) (u : State) (v : State) (d : Nat) (xa : Nat) (xb : Nat) (e : _), s.atIns tile core f i ∧ ms.ecc = [] ∧ ms.res =
      [] ∧ s.atIssue f i ms = (g, u0) ∧ i.cls = 2 ∧ u0.srcLanes g i.srcA = ⟨u, as, 0, xa⟩ ∧ u.srcLanes g i.srcB = ⟨v, bs, 0, xb⟩ ∧ d
      = dReg i.dst ∧ e ∈ ([(fun t c m => Instr.vadd t c m, 0, f32Add), (fun t c m => Instr.vmul t c m, 1, f32Mul), (fun t c m =>
      Instr.vmax t c m, 2, f32Pick true), (fun t c m => Instr.vmin t c m, 3, f32Pick false)] : List ((Nat → Nat → AntMeas → Instr) ×
      Nat × (W32 → W32 → W32))) ∧ i.op = e.2.1) ∧
    (∃ (s : State) (u0 : State) (tile : Nat) (core : Nat) (f : Firing) (g : Firing) (i : AntIns) (ms : AntMeas) (as : List W32)
      (bs : List W32) (u : State) (v : State) (d : Nat) (xa : Nat) (xb : Nat) (e : _) (n : _), s.atIns tile core f i ∧ ms.ecc = [] ∧
      ms.res = [] ∧ s.atIssue f i ms = (g, u0) ∧ i.cls = 2 ∧ u0.srcLanes g i.srcA = ⟨u, as, 0, xa⟩ ∧ u.srcLanes g i.srcB = ⟨v, bs, 0,
      xb⟩ ∧ d = dReg i.dst ∧ e ∈ ([(fun t c m => Instr.vadd t c m, 0, f32Add), (fun t c m => Instr.vmul t c m, 1, f32Mul), (fun t c m
      => Instr.vmax t c m, 2, f32Pick true), (fun t c m => Instr.vmin t c m, 3, f32Pick false)] : List ((Nat → Nat → AntMeas → Instr)
      × Nat × (W32 → W32 → W32))) ∧ i.op = e.2.1 ∧ n < 16) ∧
    (∃ (s : State) (u0 : State) (tile : Nat) (core : Nat) (f : Firing) (g : Firing) (i : AntIns) (ms : AntMeas) (as : List W32) (bs :
      List W32) (u : State) (v : State) (d : Nat) (xa : Nat) (xb : Nat) (cs : List W32) (w : State) (xc : Nat), s.atIns tile core f i
      ∧ ms.ecc = [] ∧ ms.res = [] ∧ s.atIssue f i ms = (g, u0) ∧ i.cls = 2 ∧ u0.srcLanes g i.srcA = ⟨u, as, 0, xa⟩ ∧ u.srcLanes g
      i.srcB = ⟨v, bs, 0, xb⟩ ∧ d = dReg i.dst ∧ i.op = 4 ∧ v.srcLanes g i.dst = ⟨w, cs, 0, xc⟩) ∧
    (∃ (s : State) (u0 : State) (tile : Nat) (core : Nat) (f : Firing) (g : Firing) (i : AntIns) (ms : AntMeas) (as : List W32) (bs :
      List W32) (u : State) (v : State) (d : Nat) (xa : Nat) (xb : Nat), s.atIns tile core f i ∧ ms.ecc = [] ∧ ms.res = [] ∧
      s.atIssue f i ms = (g, u0) ∧ i.cls = 2 ∧ u0.srcLanes g i.srcA = ⟨u, as, 0, xa⟩ ∧ u.srcLanes g i.srcB = ⟨v, bs, 0, xb⟩ ∧ d =
      dReg i.dst ∧ i.op = 5) ∧
    (∃ (s : State) (u0 : State) (tile : Nat) (core : Nat) (f : Firing) (g : Firing) (i : AntIns) (ms : AntMeas) (as : List W32) (bs :
      List W32) (u : State) (v : State) (d : Nat) (xa : Nat) (xb : Nat), s.atIns tile core f i ∧ ms.ecc = [] ∧ ms.res = [] ∧
      s.atIssue f i ms = (g, u0) ∧ i.cls = 2 ∧ u0.srcLanes g i.srcA = ⟨u, as, 0, xa⟩ ∧ u.srcLanes g i.srcB = ⟨v, bs, 0, xb⟩ ∧ d =
      dReg i.dst ∧ i.op = 6 ∧ (u0.vrSeen g d).2 = 0) ∧
    (∃ (s : State) (u0 : State) (tile : Nat) (core : Nat) (f : Firing) (g : Firing) (i : AntIns) (ms : AntMeas) (as : List W32) (bs :
      List W32) (u : State) (v : State) (pa : Nat) (xa : Nat) (xb : Nat), s.atIns tile core f i ∧ ms.ecc = [] ∧ ms.res = [] ∧
      s.atIssue f i ms = (g, u0) ∧ i.cls = 2 ∧ i.op = 0 ∧ u0.srcLanes g i.srcA = ⟨u, as, pa, xa⟩ ∧ 0 < pa ∧ (u.consume g xa).srcLanes
      g i.srcB = ⟨v, bs, 0, xb⟩) ∧
    (∃ (s : State) (u0 : State) (tile : Nat) (core : Nat) (f : Firing) (g : Firing) (i : AntIns) (ms : AntMeas) (l : Got) (src : Got)
      (d : OutDesc) (out : List Narrowed) (len : Nat), s.atIns tile core f i ∧ ms.ecc = [] ∧ ms.res = [] ∧ s.atIssue f i ms = (g, u0)
      ∧ i.cls = 2 ∧ i.op = 7 ∧ s.inBounds f (s.auxLine f i.aux) 32 = true ∧ l = u0.csRead g (s.auxLine f i.aux) 32 ∧ l.poison = false
      ∧ d = outDesc (ofBytesLE l.bytes) ∧ d.block = 0 ∧ src = u0.srcBytes g i.srcA 0 0 128 ∧ src.poison = false ∧ out =
      (elemCodes i.fmtB 16 src.bytes).map (fun c => narrow i.fmtA d.ieee d.full (codeVal i.fmtB c)) ∧
      (∀ x ∈ out, x.nonfinite = false) ∧ len = (codeBytes i.fmtA (out.map (·.code))).length) ∧
    (∃ (s : State) (u0 : State) (tile : Nat) (core : Nat) (f : Firing) (g : Firing) (i : AntIns) (ms : AntMeas) (l : Got) (w : Nat)
      (width : Nat) (xa : Nat) (hi : Int) (lo : Int) (as : List W32) (u : State), s.atIns tile core f i ∧ ms.ecc = [] ∧ ms.res = [] ∧
      s.atIssue f i ms = (g, u0) ∧ i.cls = 2 ∧ i.op = 8 ∧ s.inBounds f (s.auxLine f i.aux) 32 = true ∧ l = u0.csRead g
      (s.auxLine f i.aux) 32 ∧ l.poison = false ∧ w = ofBytesLE l.bytes ∧ nbit w 255 = false ∧ u0.srcLanes g i.srcA = ⟨u, as, 0, xa⟩
      ∧ width = (if nbit w 252 then 4 else 8) ∧ hi = 2 ^ (width - 1) - 1 ∧ lo = (if nbit w 253 then -(2 ^ (width - 1)) else -hi)) :=
  ⟨⟨st194, uAt st194, 15, 542, fi 511, gAt st194, iAt st194, {}, (la st194).vals, (lb st194).vals, (la st194).st, (lb st194).st, _,
     (la st194).at', (lb st194).at', (fun t c m => .vadd t c m, 0, f32Add), ⟨by decide +kernel, by decide +kernel, by decide +kernel,
     rfl⟩, by decide +kernel, by decide +kernel, rfl, by decide +kernel, lanes_eta (by decide +kernel), lanes_eta
     (by decide +kernel), rfl, List.Mem.head _, by decide +kernel⟩,
   ⟨st194, uAt st194, 15, 542, fi 511, gAt st194, iAt st194, {}, (la st194).vals, (lb st194).vals, (la st194).st, (lb st194).st, _,
     (la st194).at', (lb st194).at', (fun t c m => .vadd t c m, 0, f32Add), 15, ⟨by decide +kernel, by decide +kernel,
     by decide +kernel, rfl⟩, by decide +kernel, by decide +kernel, rfl, by decide +kernel, lanes_eta (by decide +kernel), lanes_eta
     (by decide +kernel), rfl, List.Mem.head _, by decide +kernel, by decide +kernel⟩,
   ⟨st195, uAt st195, 15, 542, fi 511, gAt st195, iAt st195, {}, (la st195).vals, (lb st195).vals, (la st195).st, (lb st195).st, _,
     (la st195).at', (lb st195).at', (lc st195).vals, (lc st195).st, (lc st195).at', ⟨by decide +kernel, by decide +kernel,
     by decide +kernel, rfl⟩, by decide +kernel, by decide +kernel, rfl, by decide +kernel, lanes_eta (by decide +kernel), lanes_eta
     (by decide +kernel), rfl, by decide +kernel, lanes_eta (by decide +kernel)⟩,
   ⟨st196, uAt st196, 15, 542, fi 511, gAt st196, iAt st196, {}, (la st196).vals, (lb st196).vals, (la st196).st, (lb st196).st, _,
     (la st196).at', (lb st196).at', ⟨by decide +kernel, by decide +kernel, by decide +kernel, rfl⟩, by decide +kernel,
     by decide +kernel, rfl, by decide +kernel, lanes_eta (by decide +kernel), lanes_eta (by decide +kernel), rfl, by decide +kernel⟩,
   ⟨st197, uAt st197, 15, 542, fi 511, gAt st197, iAt st197, {}, (la st197).vals, (lb st197).vals, (la st197).st, (lb st197).st, _,
     (la st197).at', (lb st197).at', ⟨by decide +kernel, by decide +kernel, by decide +kernel, rfl⟩, by decide +kernel,
     by decide +kernel, rfl, by decide +kernel, lanes_eta (by decide +kernel), lanes_eta (by decide +kernel), rfl, by decide +kernel,
     by decide +kernel⟩,
   ⟨st198, uAt st198, 15, 542, fi 511, gAt st198, iAt st198, {}, (la st198).vals, (lp st198).vals, (la st198).st, (lp st198).st,
     65535, (la st198).at', (lp st198).at', ⟨by decide +kernel, by decide +kernel, by decide +kernel, rfl⟩, by decide +kernel,
     by decide +kernel, rfl, by decide +kernel, by decide +kernel, lanes_eta (by decide +kernel), by decide +kernel, lanes_eta
     (by decide +kernel)⟩,
   ⟨st199, uAt st199, 15, 542, fi 511, gAt st199, iAt st199, {}, _, _, _, _, _, ⟨by decide +kernel, by decide +kernel,
     by decide +kernel, rfl⟩, by decide +kernel, by decide +kernel, rfl, by decide +kernel, by decide +kernel, by decide +kernel,
     rfl, by decide +kernel, rfl, by decide +kernel, rfl, by decide +kernel, rfl, by decide +kernel, rfl⟩,
   ⟨st200, uAt st200, 15, 542, fi 511, gAt st200, iAt st200, {}, _, _, _, (la st200).at', _, _, (la st200).vals, (la st200).st,
     ⟨by decide +kernel, by decide +kernel, by decide +kernel, rfl⟩, by decide +kernel, by decide +kernel, rfl, by decide +kernel,
     by decide +kernel, by decide +kernel, rfl, by decide +kernel, rfl, by decide +kernel, lanes_eta (by decide +kernel), rfl, rfl,
     rfl⟩⟩

def st201 : State := wA 64 acc2 (iw 1 0 0 0 0 1 (acd 3 63) 0 0 0 63)
def st202 : State := wA 1 acc2 (iw 1 1 5 5 0 1 (acd 3 0) (sto 0x2FFC0) (sto 0x100) 0 0)
def st203 : State := wA 64 acc2 (iw 1 2 5 5 0 1 (acd 3 0) (sto 0x2FFC0) (sto 0x100) 0 0)
def st204 : State := (wA 2 acc2 (iw 1 3 0 0 0 1 (acd 3 0) (sto 0x2FFC0) 0 0 0)).wrLE (Reg.coreBase 15 542 + 0x2FFC0) 32
  ((⟨2, false, 4087, 5, XF.zero⟩ : Slot).code * (2 ^ 128 + 1))
def st205 : State := (wA 64 acc2 (iw 1 4 0 0 0 1 (vrg 31) (acd 3 63) 0 0 4095)).wrLE (Reg.coreBase 15 542 + 4095 * 32) 32
  (0x3F800000 * 2 ^ 224 + 1023 * 2 ^ 190)
theorem meets_MacClassAccumulatesExactly :
    (∃ (s : State) (u0 : State) (tile : Nat) (core : Nat) (f : Firing) (g : Firing) (i : AntIns) (ms : AntMeas), s.atIns tile core f
      i ∧ ms.ecc = [] ∧ ms.res = [] ∧ s.atIssue f i ms = (g, u0) ∧ i.cls = 1 ∧ i.op = 0) ∧
    (∃ (s : State) (u0 : State) (tile : Nat) (core : Nat) (f : Firing) (g : Firing) (i : AntIns) (ms : AntMeas) (o : _), s.atIns tile
      core f i ∧ ms.ecc = [] ∧ ms.res = [] ∧ s.atIssue f i ms = (g, u0) ∧ i.cls = 1 ∧ i.op = 0 ∧ o ≤ bits i.aux 0 6) :=
  ⟨⟨st201, uAt st201, 15, 542, fi 511, gAt st201, iAt st201, {}, ⟨by decide +kernel, by decide +kernel, by decide +kernel, rfl⟩,
     by decide +kernel, by decide +kernel, rfl, by decide +kernel, by decide +kernel⟩,
   ⟨st201, uAt st201, 15, 542, fi 511, gAt st201, iAt st201, {}, 63, ⟨by decide +kernel, by decide +kernel, by decide +kernel, rfl⟩,
     by decide +kernel, by decide +kernel, rfl, by decide +kernel, by decide +kernel, by decide +kernel⟩⟩

theorem meets_MacClassAccumulatesExactly_2 :
    (∃ (s : State) (u0 : State) (tile : Nat) (core : Nat) (f : Firing) (g : Firing) (i : AntIns) (ms : AntMeas) (u : State)
      (v : State) (w : State) (desc : Nat) (xa : Nat) (xb : Nat) (ba : List W8) (bb : List W8) (ma : List Bool) (mb : List Bool)
      (outs : Nat) (terms : Nat) (as : List Val) (bs : List Val), s.atIns tile core f i ∧ ms.ecc = [] ∧ ms.res = [] ∧ s.atIssue f i
      ms = (g, u0) ∧ i.cls = 1 ∧ i.cnt = 1 ∧ bits i.mode 2 2 = 0 ∧ u0.macDesc g i = (u, desc, false) ∧ ma.any id = false ∧ mb.any id
      = false ∧ i.op = 1 ∧ outs = 2 ^ bits i.mode 0 2 ∧ terms =
      (if (i.fmtA = Fmt.e2m1 ∨ i.fmtA = Fmt.int4) ∧ (i.fmtB = Fmt.e2m1 ∨ i.fmtB = Fmt.int4) then 128 else 64) / outs ∧ u.srcBytes g
      i.srcA i.step 0 (elemBytes i.fmtA terms) = ⟨v, ba, ma, xa⟩ ∧ v.srcBytes g i.srcB i.step 0 (elemBytes i.fmtB (terms * outs)) =
      ⟨w, bb, mb, xb⟩ ∧ as = (elemCodes i.fmtA terms ba).map (operandVal desc i.fmtA) ∧ bs = (elemCodes i.fmtB (terms * outs) bb).map
      (operandVal desc i.fmtB) ∧ (∀ x ∈ as, x.isFin = true) ∧ (∀ x ∈ bs, x.isFin = true) ∧ (∀ o a, o < outs → a = s.accAt f.tile
      f.core (dSet i.dst) (dFirst i.dst + o) → (a.mode = macMode 0 i.fmtA ∨ (a.mode ≠ 6 ∧ a.inBlk = 0)) ∧ (a.terms % 4096 = 0 →
      a.inBlk = 0) ∧ a.terms % 4096 + terms < 4096)) ∧
    (∃ (s : State) (u0 : State) (tile : Nat) (core : Nat) (f : Firing) (g : Firing) (i : AntIns) (ms : AntMeas) (u : State)
      (v : State) (w : State) (desc : Nat) (xa : Nat) (xb : Nat) (ba : List W8) (bb : List W8) (ma : List Bool) (mb : List Bool)
      (outs : Nat) (terms : Nat) (as : List Val) (bs : List Val) (o : _), s.atIns tile core f i ∧ ms.ecc = [] ∧ ms.res = [] ∧
      s.atIssue f i ms = (g, u0) ∧ i.cls = 1 ∧ i.cnt = 1 ∧ bits i.mode 2 2 = 0 ∧ u0.macDesc g i = (u, desc, false) ∧ ma.any id =
      false ∧ mb.any id = false ∧ i.op = 1 ∧ outs = 2 ^ bits i.mode 0 2 ∧ terms =
      (if (i.fmtA = Fmt.e2m1 ∨ i.fmtA = Fmt.int4) ∧ (i.fmtB = Fmt.e2m1 ∨ i.fmtB = Fmt.int4) then 128 else 64) / outs ∧ u.srcBytes g
      i.srcA i.step 0 (elemBytes i.fmtA terms) = ⟨v, ba, ma, xa⟩ ∧ v.srcBytes g i.srcB i.step 0 (elemBytes i.fmtB (terms * outs)) =
      ⟨w, bb, mb, xb⟩ ∧ as = (elemCodes i.fmtA terms ba).map (operandVal desc i.fmtA) ∧ bs = (elemCodes i.fmtB (terms * outs) bb).map
      (operandVal desc i.fmtB) ∧ (∀ x ∈ as, x.isFin = true) ∧ (∀ x ∈ bs, x.isFin = true) ∧ (∀ o a, o < outs → a = s.accAt f.tile
      f.core (dSet i.dst) (dFirst i.dst + o) → (a.mode = macMode 0 i.fmtA ∨ (a.mode ≠ 6 ∧ a.inBlk = 0)) ∧ (a.terms % 4096 = 0 →
      a.inBlk = 0) ∧ a.terms % 4096 + terms < 4096) ∧ o < outs) :=
  ⟨⟨st202, uAt st202, 15, 542, fi 511, gAt st202, iAt st202, {}, (mAt st202).1, (aAt st202 64).st, (bAt st202 64 (64 * 1)).st,
     (mAt st202).2.1, (aAt st202 64).at', (bAt st202 64 (64 * 1)).at', (aAt st202 64).bytes, (bAt st202 64 (64 * 1)).bytes,
     (aAt st202 64).marks, (bAt st202 64 (64 * 1)).marks, 1, 64, _, _, ⟨by decide +kernel, by decide +kernel, by decide +kernel,
     rfl⟩, by decide +kernel, by decide +kernel, rfl, by decide +kernel, by decide +kernel, by decide +kernel, triple_eta
     (by decide +kernel), by decide +kernel, by decide +kernel, by decide +kernel, by decide +kernel, by decide +kernel, got_eta _,
     got_eta _, rfl, rfl, by decide +kernel, by decide +kernel, (by intro o a ho ha; subst ha; revert o; decide +kernel)⟩,
   ⟨st202, uAt st202, 15, 542, fi 511, gAt st202, iAt st202, {}, (mAt st202).1, (aAt st202 64).st, (bAt st202 64 (64 * 1)).st,
     (mAt st202).2.1, (aAt st202 64).at', (bAt st202 64 (64 * 1)).at', (aAt st202 64).bytes, (bAt st202 64 (64 * 1)).bytes,
     (aAt st202 64).marks, (bAt st202 64 (64 * 1)).marks, 1, 64, _, _, 0, ⟨by decide +kernel, by decide +kernel, by decide +kernel,
     rfl⟩, by decide +kernel, by decide +kernel, rfl, by decide +kernel, by decide +kernel, by decide +kernel, triple_eta
     (by decide +kernel), by decide +kernel, by decide +kernel, by decide +kernel, by decide +kernel, by decide +kernel, got_eta _,
     got_eta _, rfl, rfl, by decide +kernel, by decide +kernel, (by intro o a ho ha; subst ha; revert o; decide +kernel),
     by decide +kernel⟩⟩

theorem meets_MacClassAccumulatesExactly_3 :
    (∃ (s : State) (u0 : State) (tile : Nat) (core : Nat) (f : Firing) (g : Firing) (i : AntIns) (ms : AntMeas) (u : State)
      (v : State) (w : State) (desc : Nat) (xa : Nat) (xb : Nat) (ba : List W8) (bb : List W8) (ma : List Bool) (mb : List Bool)
      (rows : Nat) (as : List Val) (bs : List Val), s.atIns tile core f i ∧ ms.ecc = [] ∧ ms.res = [] ∧ s.atIssue f i ms = (g, u0) ∧
      i.cls = 1 ∧ i.cnt = 1 ∧ bits i.mode 2 2 = 0 ∧ u0.macDesc g i = (u, desc, false) ∧ ma.any id = false ∧ mb.any id = false ∧ i.op
      = 2 ∧ rows = (if (i.fmtA = Fmt.e2m1 ∨ i.fmtA = Fmt.int4) ∧ (i.fmtB = Fmt.e2m1 ∨ i.fmtB = Fmt.int4) then 2 else 1) ∧ u.srcBytes
      g i.srcA i.step 0 (elemBytes i.fmtA rows) = ⟨v, ba, ma, xa⟩ ∧ v.srcBytes g i.srcB i.step 0 (elemBytes i.fmtB (64 * rows)) = ⟨w,
      bb, mb, xb⟩ ∧ as = (elemCodes i.fmtA rows ba).map (operandVal desc i.fmtA) ∧ bs = (elemCodes i.fmtB (64 * rows) bb).map
      (operandVal desc i.fmtB) ∧ (∀ x ∈ as, x.isFin = true) ∧ (∀ x ∈ bs, x.isFin = true) ∧ (∀ o a, o < 64 → a = s.accAt f.tile f.core
      (dSet i.dst) (dFirst i.dst + o) → (a.mode = macMode 0 i.fmtA ∨ (a.mode ≠ 6 ∧ a.inBlk = 0)) ∧ (a.terms % 4096 = 0 → a.inBlk = 0)
      ∧ a.terms % 4096 + rows < 4096)) ∧
    (∃ (s : State) (u0 : State) (tile : Nat) (core : Nat) (f : Firing) (g : Firing) (i : AntIns) (ms : AntMeas) (u : State)
      (ba : List W8) (ma : List Bool) (xa : Nat) (x : Nat → Slot), s.atIns tile core f i ∧ ms.ecc = [] ∧ ms.res = [] ∧ s.atIssue f i
      ms = (g, u0) ∧ i.cls = 1 ∧ i.op = 3 ∧ i.cnt = 1 ∧ dKind i.srcB = Kind.none ∧ u0.srcBytes g i.srcA i.step 0 32 = ⟨u, ba, ma, xa⟩
      ∧ ma.any id = false ∧ (∀ j : Nat, j < 2 → x j = slotOf (ofBytesLE ((ba.drop (16 * j)).take 16))) ∧ (∀ j : Nat, j < 2 →
      (x j).kind = 2 ∧ (x j).faulted = false ∧ bits (ofBytesLE ((ba.drop (16 * j)).take 16)) 105 3 = slotRes 2 (x j).exact (x j).xf)
      ∧ (∀ j a, j < 2 → a = s.accAt f.tile f.core (dSet i.dst) (dFirst i.dst + j) → a.mode = 2 ∧ a.xsig = 0 ∧ 0 < a.terms ∧ a.faulted
      = false ∧ a.terms + (x j).terms ≤ 4096)) :=
  ⟨⟨st203, uAt st203, 15, 542, fi 511, gAt st203, iAt st203, {}, (mAt st203).1, (aAt st203 1).st, (bAt st203 1 (64 * 1)).st,
     (mAt st203).2.1, (aAt st203 1).at', (bAt st203 1 (64 * 1)).at', (aAt st203 1).bytes, (bAt st203 1 (64 * 1)).bytes,
     (aAt st203 1).marks, (bAt st203 1 (64 * 1)).marks, 1, _, _, ⟨by decide +kernel, by decide +kernel, by decide +kernel, rfl⟩,
     by decide +kernel, by decide +kernel, rfl, by decide +kernel, by decide +kernel, by decide +kernel, triple_eta
     (by decide +kernel), by decide +kernel, by decide +kernel, by decide +kernel, by decide +kernel, got_eta _, got_eta _, rfl, rfl,
     by decide +kernel, by decide +kernel, (by intro o a ho ha; subst ha; revert o; decide +kernel)⟩,
   ⟨st204, uAt st204, 15, 542, fi 511, gAt st204, iAt st204, {}, (xAt st204).st, (xAt st204).bytes, (xAt st204).marks,
     (xAt st204).at', fun j => slotOf (ofBytesLE ((((xAt st204).bytes).drop (16 * j)).take 16)), ⟨by decide +kernel,
     by decide +kernel, by decide +kernel, rfl⟩, by decide +kernel, by decide +kernel, rfl, by decide +kernel, by decide +kernel,
     by decide +kernel, by decide +kernel, got_eta _, by decide +kernel, by decide +kernel, by decide +kernel,
     (by intro j a hj ha; subst ha; revert j; decide +kernel)⟩⟩

theorem meets_MacClassAccumulatesExactly_4 :
    ∃ (s : State) (u0 : State) (tile : Nat) (core : Nat) (f : Firing) (g : Firing) (i : AntIns) (ms : AntMeas) (l : Got)
      (d : OutDesc) (as : List Acc) (out : List Narrowed) (len : Nat), s.atIns tile core f i ∧ ms.ecc = [] ∧ ms.res = [] ∧ s.atIssue
      f i ms = (g, u0) ∧ i.cls = 1 ∧ i.op = 4 ∧ s.inBounds f (s.auxLine f i.aux) 32 = true ∧ l = u0.csRead g (s.auxLine f i.aux) 32 ∧
      l.poison = false ∧ d = outDesc (ofBytesLE l.bytes) ∧ d.block = 0 ∧ nbit i.mode 3 = false ∧ as = (List.range i.cnt).map
      (fun n => u0.accSeen g (dSet i.srcA) (dFirst i.srcA + n)) ∧ (∀ a ∈ as, a.mode ≠ 6 ∧ a.faulted = false) ∧
      (s.fn24 f = false ∨ ∃ a ∈ as, 0 < a.terms) ∧ out = as.map
      (fun a => narrow i.fmtA d.ieee d.full (outValue d (bits i.mode 0 2 == 1) none a)) ∧ (∀ x ∈ out, x.nonfinite = false) ∧ len =
      (codeBytes i.fmtA (out.map (·.code))).length ∧ len ≤ 64 :=
  ⟨st205, uAt st205, 15, 542, fi 511, gAt st205, iAt st205, {}, _, _, _, _, _, ⟨by decide +kernel, by decide +kernel,
    by decide +kernel, rfl⟩, by decide +kernel, by decide +kernel, rfl, by decide +kernel, by decide +kernel, by decide +kernel, rfl,
    by decide +kernel, rfl, by decide +kernel, by decide +kernel, rfl, by decide +kernel, by decide +kernel, rfl, by decide +kernel,
    rfl, by decide +kernel⟩

def st206 : State := { w0 with ant.sfuOuts := [sOut] }
def st207 : State := { wQ 0 0 with ant.mesh := [kvM] }.wr (Reg.sfuPset 15 3 3 63 + 28) (BitVec.ofNat 32 (5 * 2 ^ 26))
def st208 : State := { wQ 0 0 with ant.mesh := [kvM] }.wr (Reg.sfuPset 15 3 3 63 + 28) (BitVec.ofNat 32 (2 * 2 ^ 26))
def st209 : State := { wQ 0 0 with ant.mesh := [kvM], ant.kv := [kvB 1] }
def st210 : State := { wQ 0 0 with ant.mesh := [kvM], ant.kv := [{ kvB 1 with delayed := true }] }
theorem meets_SfuCallsAndScarab :
    (∃ (s : State) (u : State) (tile : Nat) (g : Nat) (slot : Nat) (cyc : Nat) (ix : Nat) (now : Nat) (c : SfuCall) (p : Pset)
      (ws : List W32) (v : SfuVal), tile < 16 ∧ g < 4 ∧ u = s.atCycle cyc ∧ u.callAt tile g slot = some (ix, c) ∧ now = s.tod.tickFab
      + cyc ∧ p = pset (s.psetOf tile g c.ctx c.pset) ∧ ws = c.flits.flatMap flitWords ∧ c.complete = true ∧ u.isNext c now = true ∧
      c.readyAt ≤ now ∧ SMap.get 0 s.ant.engineAt (engineKey tile g (engineOf c.fn)) ≤ now ∧
      (∀ o ∈ s.ant.sfuOuts, ¬(o.tile = tile ∧ o.unit = g)) ∧ s.sfuRes tile g = [] ∧ c.poison = false ∧ p.fn = c.fn ∧ v.nonfinite =
      false ∧ (c.fn = 0 ∧ v = sortFn p ws ∨ c.fn = 1 ∧ v = elementwise (s.pwpOne tile g p) ws ∨ c.fn = 2 ∧ v = elementwise f32Exp ws
      ∨ c.fn = 3 ∧ v = elementwise f32Recip ws ∨ c.fn = 4 ∧ v = softmaxFn ws ∨ c.fn = 6 ∧ ∃ b, s.bankOf tile g c.ctx c.tag = some b ∧
      b.tag = c.tag ∧ b.n ≤ p.nMax ∧ b.poison = false ∧ v = attendFn p b.n b.bytes (ws.flatMap (fun w => bytesLE 4 w.toNat)))) ∧
    (∃ (s : State) (u : State) (tile : Nat) (g : Nat) (slot : Nat) (cyc : Nat) (ix : Nat) (now : Nat) (c : SfuCall) (p : Pset) (ws :
      List W32), tile < 16 ∧ g < 4 ∧ u = s.atCycle cyc ∧ u.callAt tile g slot = some (ix, c) ∧ now = s.tod.tickFab + cyc ∧ p = pset
      (s.psetOf tile g c.ctx c.pset) ∧ ws = c.flits.flatMap flitWords ∧ c.complete = true ∧ u.isNext c now = true ∧ c.readyAt ≤ now ∧
      SMap.get 0 s.ant.engineAt (engineKey tile g (engineOf c.fn)) ≤ now ∧ (∀ o ∈ s.ant.sfuOuts, ¬(o.tile = tile ∧ o.unit = g)) ∧
      s.sfuRes tile g = [] ∧ c.poison = false) ∧
    (∃ (s : State) (u : State) (tile : Nat) (g : Nat) (slot : Nat) (cyc : Nat) (ix : Nat) (now : Nat) (c : SfuCall) (p : Pset) (ws :
      List W32), tile < 16 ∧ g < 4 ∧ u = s.atCycle cyc ∧ u.callAt tile g slot = some (ix, c) ∧ now = s.tod.tickFab + cyc ∧ p = pset
      (s.psetOf tile g c.ctx c.pset) ∧ ws = c.flits.flatMap flitWords ∧ c.complete = true ∧ u.isNext c now = true ∧ c.readyAt ≤ now ∧
      SMap.get 0 s.ant.engineAt (engineKey tile g (engineOf c.fn)) ≤ now ∧ (∀ o ∈ s.ant.sfuOuts, ¬(o.tile = tile ∧ o.unit = g)) ∧
      s.sfuRes tile g = [] ∧ c.poison = false ∧ p.fn ≠ c.fn) ∧
    (∃ (s : State) (tile : Nat) (g : Nat) (o : SfuOut), tile < 16 ∧ g < 4 ∧ s.ant.sfuOuts = [o] ∧ o.tile = tile ∧ o.unit = g ∧ o.sent
      = false) ∧
    (∃ (s : State) (tile : Nat) (g : Nat) (ps : Nat) (lc : Nat) (m : MeshItem), tile < 16 ∧ g < 4 ∧ s.ant.mesh = [m] ∧ m.dest = .sfu
      tile g 5 ps lc ∧ s.ctxValid tile (s.phys tile lc) m.flit.ctx = false) ∧
    (∃ (s : State) (tile : Nat) (g : Nat) (ps : Nat) (lc : Nat) (m : MeshItem) (b : KvBank), tile < 16 ∧ g < 4 ∧ s.ant.mesh = [m] ∧
      m.dest = .sfu tile g 5 ps lc ∧ s.ctxValid tile (s.phys tile lc) m.flit.ctx = true ∧ s.bankOf tile g m.flit.ctx m.flit.tag =
      none ∧ b = ⟨tile, g, m.flit.ctx, m.flit.tag.toNat % 2, m.flit.tag, m.flit.data.toNat % 512, [], m.flit.poison, 0, !m.flit.last,
      false, m.flit.fires⟩ ∧ fnFits 5 (pset (s.psetOf tile g m.flit.ctx ps)).fn = true) ∧
    (∃ (s : State) (tile : Nat) (g : Nat) (ps : Nat) (lc : Nat) (m : MeshItem) (b : KvBank), tile < 16 ∧ g < 4 ∧ s.ant.mesh = [m] ∧
      m.dest = .sfu tile g 5 ps lc ∧ s.ctxValid tile (s.phys tile lc) m.flit.ctx = true ∧ s.bankOf tile g m.flit.ctx m.flit.tag =
      none ∧ b = ⟨tile, g, m.flit.ctx, m.flit.tag.toNat % 2, m.flit.tag, m.flit.data.toNat % 512, [], m.flit.poison, 0, !m.flit.last,
      false, m.flit.fires⟩ ∧ fnFits 5 (pset (s.psetOf tile g m.flit.ctx ps)).fn = false) :=
  ⟨⟨wCall 2 2 0, _, 15, 3, 0, 9, 0, _, call 2 0, _, _, elementwise f32Exp ((call 2 0).flits.flatMap flitWords), by decide +kernel,
     by decide +kernel, rfl, by decide +kernel, rfl, rfl, rfl, by decide +kernel, by decide +kernel, by decide +kernel,
     by decide +kernel, by decide +kernel, by decide +kernel, by decide +kernel, by decide +kernel, by decide +kernel, Or.inr
     (Or.inr (Or.inl ⟨rfl, rfl⟩))⟩,
   ⟨wCall 2 2 0, _, 15, 3, 0, 9, 0, _, call 2 0, _, _, by decide +kernel, by decide +kernel, rfl, by decide +kernel, rfl, rfl, rfl,
     by decide +kernel, by decide +kernel, by decide +kernel, by decide +kernel, by decide +kernel, by decide +kernel,
     by decide +kernel⟩,
   ⟨wCall 2 3 0, _, 15, 3, 0, 9, 0, _, call 2 0, _, _, by decide +kernel, by decide +kernel, rfl, by decide +kernel, rfl, rfl, rfl,
     by decide +kernel, by decide +kernel, by decide +kernel, by decide +kernel, by decide +kernel, by decide +kernel,
     by decide +kernel, by decide +kernel⟩,
   ⟨st206, 15, 3, sOut, by decide +kernel, by decide +kernel, by decide +kernel, by decide +kernel, by decide +kernel,
     by decide +kernel⟩,
   ⟨{ w0 with ant.mesh := [kvM] }, 15, 3, 63, 511, kvM, by decide +kernel, by decide +kernel, by decide +kernel, by decide +kernel,
     by decide +kernel⟩,
   ⟨st207, 15, 3, 63, 511, kvM, _, by decide +kernel, by decide +kernel, by decide +kernel, by decide +kernel, by decide +kernel,
     by decide +kernel, rfl, by decide +kernel⟩,
   ⟨st208, 15, 3, 63, 511, kvM, _, by decide +kernel, by decide +kernel, by decide +kernel, by decide +kernel, by decide +kernel,
     by decide +kernel, rfl, by decide +kernel⟩⟩

theorem meets_SfuCallsAndScarab_2 :
    (∃ (s : State) (tile : Nat) (g : Nat) (ps : Nat) (lc : Nat) (m : MeshItem) (b : KvBank), tile < 16 ∧ g < 4 ∧ s.ant.mesh = [m] ∧
      m.dest = .sfu tile g 5 ps lc ∧ s.ctxValid tile (s.phys tile lc) m.flit.ctx = true ∧ s.bankOf tile g m.flit.ctx m.flit.tag =
      some b ∧ s.tod.fab < b.readUntil ∧ b.delayed = false) ∧
    (∃ (s : State) (tile : Nat) (g : Nat) (ps : Nat) (lc : Nat) (m : MeshItem) (b : KvBank), tile < 16 ∧ g < 4 ∧ s.ant.mesh = [m] ∧
      m.dest = .sfu tile g 5 ps lc ∧ s.ctxValid tile (s.phys tile lc) m.flit.ctx = true ∧ s.bankOf tile g m.flit.ctx m.flit.tag =
      some b ∧ s.tod.fab < b.readUntil ∧ b.delayed = true) ∧
    (∃ (s : State) (tile : Nat) (cyc : Nat) (e : _) (u : _) (p : _), s.hubOn = true ∧ s.ctx.length = 4 ∧ tile < 16 ∧ e ∈
      ([(Instr.scarabStep tile cyc, (s.atCycle cyc).blockTimers tile, fun n => n == tile), (Instr.scarabHubStep cyc, s.atCycle cyc,
      fun _ => true)] : List (Instr × State × (Nat → Bool))) ∧ u = e.2.1 ∧ p = e.2.2 ∧ u.scarabRings p = []) ∧
    (∃ (s : State) (tile : Nat) (cyc : Nat) (e : _) (u : _) (p : _) (ring : List WaitArc) (n : Nat), s.hubOn = true ∧ s.ctx.length =
      4 ∧ tile < 16 ∧ e ∈ ([(Instr.scarabStep tile cyc, (s.atCycle cyc).blockTimers tile, fun n => n == tile), (Instr.scarabHubStep
      cyc, s.atCycle cyc, fun _ => true)] : List (Instr × State × (Nat → Bool))) ∧ u = e.2.1 ∧ p = e.2.2 ∧ u.scarabRings p = [ring] ∧
      (∀ a ∈ ring, nodeTile a.src < 16 ∧ u.blockedLong a.src = true) ∧ n = (ring.map (·.src)).foldl min ((ring.map (·.src)).headD 0)
      ∧ (∃ a ∈ ring, u.ctxTimed (a.src % 4) = true)) ∧
    (∃ (s : State) (tile : Nat) (cyc : Nat) (e : _) (u : _) (p : _) (ring : List WaitArc) (n : Nat), s.hubOn = true ∧ s.ctx.length =
      4 ∧ tile < 16 ∧ e ∈ ([(Instr.scarabStep tile cyc, (s.atCycle cyc).blockTimers tile, fun n => n == tile), (Instr.scarabHubStep
      cyc, s.atCycle cyc, fun _ => true)] : List (Instr × State × (Nat → Bool))) ∧ u = e.2.1 ∧ p = e.2.2 ∧ u.scarabRings p = [ring] ∧
      (∀ a ∈ ring, nodeTile a.src < 16 ∧ u.blockedLong a.src = true) ∧ n = (ring.map (·.src)).foldl min ((ring.map (·.src)).headD 0)
      ∧ (∀ a ∈ ring, u.ctxTimed (a.src % 4) = false) ∧ (∀ a ∈ ring, a.fulls = [])) ∧
    (∃ (s : State) (tile : Nat) (cyc : Nat) (e : _) (u : _) (p : _) (ring : List WaitArc) (n : Nat) (q : _) (a : _) (b : _) (k : _)
      (lo : _) (size : _), s.hubOn = true ∧ s.ctx.length = 4 ∧ tile < 16 ∧ e ∈ ([(Instr.scarabStep tile cyc, (s.atCycle
      cyc).blockTimers tile, fun n => n == tile), (Instr.scarabHubStep cyc, s.atCycle cyc, fun _ => true)] : List (Instr × State ×
      (Nat → Bool))) ∧ u = e.2.1 ∧ p = e.2.2 ∧ u.scarabRings p = [ring] ∧
      (∀ a ∈ ring, nodeTile a.src < 16 ∧ u.blockedLong a.src = true) ∧ n = (ring.map (·.src)).foldl min ((ring.map (·.src)).headD 0)
      ∧ (∀ a ∈ ring, u.ctxTimed (a.src % 4) = false) ∧ (∃ x ∈ ring, q ∈ x.fulls) ∧ (∀ x ∈ ring, ∀ y ∈ x.fulls, y ≤ q) ∧ a = nodeTile
      (q / 8) ∧ b = nodeCore (q / 8) ∧ k = q / 8 % 4 ∧ a < 16 ∧ lo = 0x100000000 + (u.rd (Reg.scarab a + 0x4)).toNat ∧ size = u.rdF
      (Reg.scarab a + 0x8) 0 24 ∧ u.qHeld a b k (q % 8) + u.rdF (Reg.scarab a + 0xC) 0 24 ≤ size ∧ u.qHeld a b k (q % 8) ≤
      (u.spillFree a).length) :=
  ⟨⟨st209, 15, 3, 63, 511, kvM, kvB 1, by decide +kernel, by decide +kernel, by decide +kernel, by decide +kernel, by decide +kernel,
     by decide +kernel, by decide +kernel, by decide +kernel⟩,
   ⟨st210, 15, 3, 63, 511, kvM, { kvB 1 with delayed := true }, by decide +kernel, by decide +kernel, by decide +kernel,
     by decide +kernel, by decide +kernel, by decide +kernel, by decide +kernel, by decide +kernel⟩,
   ⟨w0, 15, 9, (.scarabHubStep 9, w0.atCycle 9, fun _ => true), _, _, by decide +kernel, by decide +kernel, by decide +kernel,
     List.Mem.tail _ (List.Mem.head _), rfl, rfl, by decide +kernel⟩,
   ⟨wRing true true, 15, 9, (.scarabHubStep 9, (wRing true true).atCycle 9, fun _ => true), _, _,
     ((((wRing true true).atCycle 9).scarabRings (fun _ => true)).head?).getD [], _, by decide +kernel, by decide +kernel,
     by decide +kernel, List.Mem.tail _ (List.Mem.head _), rfl, rfl, by decide +kernel, by decide +kernel, rfl, by decide +kernel⟩,
   ⟨wRing false false, 15, 9, (.scarabHubStep 9, (wRing false false).atCycle 9, fun _ => true), _, _,
     ((((wRing false false).atCycle 9).scarabRings (fun _ => true)).head?).getD [], _, by decide +kernel, by decide +kernel,
     by decide +kernel, List.Mem.tail _ (List.Mem.head _), rfl, rfl, by decide +kernel, by decide +kernel, rfl, by decide +kernel,
     by decide +kernel⟩,
   ⟨wRing true false, 15, 9, (.scarabHubStep 9, (wRing true false).atCycle 9, fun _ => true), _, _,
     ((((wRing true false).atCycle 9).scarabRings (fun _ => true)).head?).getD [], _, 8 * nd + 7, _, _, _, _, _, by decide +kernel,
     by decide +kernel, by decide +kernel, List.Mem.tail _ (List.Mem.head _), rfl, rfl, by decide +kernel, by decide +kernel, rfl,
     by decide +kernel, by decide +kernel, by decide +kernel, rfl, rfl, rfl, by decide +kernel, rfl, rfl, by decide +kernel,
     by decide +kernel⟩⟩

def st211 : State := { w0 with subst.resWin := [(kc 15 542, [0, 0])] }.wr (Reg.substPolicy 15) 0x00010000
def st212 : State := w0.wr (Reg.substPolicy 15) 0x40000000
def st213 : State := w0.wrs [(Reg.rowMap 15 31, BitVec.ofNat 32 (31 * 2 ^ 16 + 15))]
def st214 : State := w0.wr (Reg.substPolicy 15) 0x80000000
def st215 : State := { w0 with subst.fused := [(15, 31)] }.wrs [retd 15]
def st216 : State := wAsy [(⟨.spi, 9, Op.selftest, 0x8001, 0⟩)]
def st217 : State := wSx (sx 3 3 3 true) [(Reg.rowMap 15 31, 0x80030003)]
def st218 : State := { wSx (sx 3 3 3 true) [] with host.async := [aRow] }
def st219 : State := wSx (sx 3 15 1 false) [(Reg.tickId, 5)]
def st220 : State :=
  { wSx (sx 3 15 1 false) [(Reg.tickId, 5), (Reg.ctxrState 3, 0x70000000), (Reg.qstat 15 542 3 7, 0x01000000)] with ctx := w0.ctx.set 3 { CtxRun.none' with cores := [(15, 511)] } }
def st221 : State := wSx (sx 3 15 2 false) [(Reg.tickId, 6)]
def st222 : State := wSx (sx 3 3 2 false) [(Reg.tickId, 6)]
theorem meets_SubstitutionMovesRows :
    (∃ (s : State) (tile : Nat) (c : Nat), coreOk tile c = true ∧ s.hubOn = true ∧ s.substFrozen tile = false ∧ s.rowBusy tile (c /
      17) = false ∧ s.retiredPos tile (c / 17) = 31 ∧ s.substRow tile (c / 17) = none ∧ 0 < s.rdF (Reg.substPolicy tile) 16 8 ∧ s.rdF
      (Reg.substPolicy tile) 16 8 < s.inWindow tile (SMap.get [] s.subst.resWin (kc tile c)) ∧ s.shiftFrom tile (c / 17) ≤ 16 ∧
      s.shiftFrom tile (c / 17) ≠ c % 17) ∧
    (∃ (s : State) (tile : Nat) (c : Nat), coreOk tile c = true ∧ s.hubOn = true) ∧
    (∃ (s : State) (h : Hdr) (tile : Nat) (r : Nat) (pos : Nat), posOk tile r pos = true ∧ s.rowBusy tile r = false ∧ s.substRow tile
      r = none ∧ s.host.async.filter (ofRow tile r) = [] ∧ s.ready h Op.coreRetire = true ∧ s.substFrozen tile = false ∧ s.retiredPos
      tile r = 31 ∧ s.shiftFrom tile r ≤ 16 ∧ s.shiftFrom tile r ≠ pos) ∧
    (∃ (s : State) (h : Hdr) (tile : Nat) (r : Nat) (pos : Nat), posOk tile r pos = true ∧ s.rowBusy tile r = false ∧ s.substRow tile
      r = none ∧ s.host.async.filter (ofRow tile r) = [] ∧ s.ready h Op.coreRetire = true ∧ s.substFrozen tile = false ∧ s.retiredPos
      tile r = 31 ∧ s.shiftFrom tile r = pos) ∧
    (∃ (s : State) (h : Hdr) (tile : Nat) (r : Nat) (pos : Nat), posOk tile r pos = true ∧ s.rowBusy tile r = false ∧ s.substRow tile
      r = none ∧ s.host.async.filter (ofRow tile r) = [] ∧ s.ready h Op.coreRetire = true ∧ s.substFrozen tile = false ∧ s.retiredPos
      tile r ≠ 31) ∧
    (∃ (s : State) (h : Hdr) (tile : Nat) (r : Nat) (pos : Nat), posOk tile r pos = true ∧ s.rowBusy tile r = false ∧ s.substRow tile
      r = none ∧ s.host.async.filter (ofRow tile r) = [] ∧ s.ready h Op.coreRetire = true ∧ s.substFrozen tile = true) :=
  ⟨⟨st211, 15, 542, by decide +kernel, by decide +kernel, by decide +kernel, by decide +kernel, by decide +kernel, by decide +kernel,
     by decide +kernel, by decide +kernel, by decide +kernel, by decide +kernel⟩,
   ⟨st212, 15, 542, by decide +kernel, by decide +kernel⟩,
   ⟨w0, hS, 15, 31, 15, by decide +kernel, by decide +kernel, by decide +kernel, by decide +kernel, by decide +kernel,
     by decide +kernel, by decide +kernel, by decide +kernel, by decide +kernel⟩,
   ⟨st213, hS, 15, 31, 15, by decide +kernel, by decide +kernel, by decide +kernel, by decide +kernel, by decide +kernel,
     by decide +kernel, by decide +kernel, by decide +kernel⟩,
   ⟨w0.wrs [retd 3], hS, 15, 31, 15, by decide +kernel, by decide +kernel, by decide +kernel, by decide +kernel, by decide +kernel,
     by decide +kernel, by decide +kernel⟩,
   ⟨st214, hS, 15, 31, 15, by decide +kernel, by decide +kernel, by decide +kernel, by decide +kernel, by decide +kernel,
     by decide +kernel⟩⟩

theorem meets_SubstitutionMovesRows_2 :
    (∃ (s : State) (h : Hdr) (tile : Nat) (r : Nat) (pos : Nat), posOk tile r pos = true ∧ s.rowBusy tile r = false ∧ s.substRow tile
      r = none ∧ s.host.async.filter (ofRow tile r) = [] ∧ s.ready h Op.coreReturn = true ∧ s.retiredPos tile r = pos ∧ (tile, r) ∉
      s.subst.fused) ∧
    (∃ (s : State) (h : Hdr) (tile : Nat) (r : Nat) (pos : Nat), posOk tile r pos = true ∧ s.rowBusy tile r = false ∧ s.substRow tile
      r = none ∧ s.host.async.filter (ofRow tile r) = [] ∧ s.ready h Op.coreReturn = true ∧ s.retiredPos tile r = pos ∧ (tile, r) ∈
      s.subst.fused) ∧
    (∃ (s : State) (h : Hdr) (mask : Nat), s.ready h Op.selftest = true ∧ mask < 2 ^ 16 ∧ s.shedStage = 0 ∧ (∀ i : Nat, i < 16 → nbit
      mask i = true → s.tileUnloaded i = true)) ∧
    (∃ (s : State) (a : Async), s.hubOn = true ∧ s.openOf Op.selftest = [a]) ∧
    (∃ (s : State) (tile : Nat) (r : Nat) (x : SubstRow) (n : _), s.hubOn = true ∧ tile < 16 ∧ r < 32 ∧ s.substRow tile r = some x ∧
      x.phase = 3 ∧ x.returning = true ∧ s.shiftFrom tile r < 16 ∧ n % 2 = 1) ∧
    (∃ (s : State) (tile : Nat) (r : Nat) (x : SubstRow) (a : _), s.hubOn = true ∧ tile < 16 ∧ r < 32 ∧ s.substRow tile r = some x ∧
      x.phase = 3 ∧ s.host.async.filter (ofRow tile r) = [a]) :=
  ⟨⟨w0.wrs [retd 15], hS, 15, 31, 15, by decide +kernel, by decide +kernel, by decide +kernel, by decide +kernel, by decide +kernel,
     by decide +kernel, by decide +kernel⟩,
   ⟨st215, hS, 15, 31, 15, by decide +kernel, by decide +kernel, by decide +kernel, by decide +kernel, by decide +kernel,
     by decide +kernel, by decide +kernel⟩,
   ⟨w0, hS, 0xFFFF, by decide +kernel, by decide +kernel, by decide +kernel, by decide +kernel⟩,
   ⟨st216, ⟨.spi, 9, Op.selftest, 0x8001, 0⟩, by decide +kernel, by decide +kernel⟩,
   ⟨st217, 15, 31, (st217.substRow 15 31).getD (sx 0 0 0 false), 1, by decide +kernel, by decide +kernel, by decide +kernel,
     by decide +kernel, by decide +kernel, by decide +kernel, by decide +kernel, by decide +kernel⟩,
   ⟨st218, 15, 31, (st218.substRow 15 31).getD (sx 0 0 0 false), aRow, by decide +kernel, by decide +kernel, by decide +kernel,
     by decide +kernel, by decide +kernel, by decide +kernel⟩⟩

theorem meets_SubstitutionMovesRows_3 :
    (∃ (s : State) (tile : Nat) (r : Nat) (x : SubstRow), s.hubOn = true ∧ tile < 16 ∧ r < 32 ∧ s.substRow tile r = some x ∧ x.phase
      = 0 ∧ nbit s.pwr.asleep 7 = false) ∧
    (∃ (s : State) (tile : Nat) (r : Nat) (x : SubstRow), s.hubOn = true ∧ tile < 16 ∧ r < 32 ∧ s.substRow tile r = some x ∧ x.phase
      = 1 ∧ s.tickId = x.quiet ∧ (∀ k : Nat, k < 4 → s.ctxTimed k = true → (tile, x.lcore) ∉ (s.cx k).cores)) ∧
    (∃ (s : State) (tile : Nat) (r : Nat) (x : SubstRow), s.hubOn = true ∧ tile < 16 ∧ r < 32 ∧ s.substRow tile r = some x ∧ x.phase
      = 1 ∧ s.tickId = x.quiet ∧ (∃ k q, k < 4 ∧ q < 8 ∧ s.ctxTimed k = true ∧ (tile, x.lcore) ∈ (s.cx k).cores ∧ 0 < s.qCount tile
      (s.phys tile x.lcore) k q) ∧ x.tries < 4) ∧
    (∃ (s : State) (tile : Nat) (r : Nat) (x : SubstRow), s.hubOn = true ∧ tile < 16 ∧ r < 32 ∧ s.substRow tile r = some x ∧ x.phase
      = 2 ∧ s.tickId = x.quiet + 1 ∧ x.returning = false ∧ x.back = false ∧ x.cur < 16 ∧ s.firingOf tile (s.phys tile x.lcore) = none
      ∧ x.cur ≠ x.pos) ∧
    (∃ (s : State) (tile : Nat) (r : Nat) (x : SubstRow), s.hubOn = true ∧ tile < 16 ∧ r < 32 ∧ s.substRow tile r = some x ∧ x.phase
      = 2 ∧ s.tickId = x.quiet + 1 ∧ x.returning = false ∧ x.back = false ∧ x.cur < 16 ∧ s.firingOf tile (s.phys tile x.lcore) = none
      ∧ x.cur = x.pos ∧ x.pos < 31) :=
  ⟨⟨wSx (sx 3 15 0 false) [], 15, 31, ((wSx (sx 3 15 0 false) []).substRow 15 31).getD (sx 0 0 0 false), by decide +kernel,
     by decide +kernel, by decide +kernel, by decide +kernel, by decide +kernel, by decide +kernel⟩,
   ⟨st219, 15, 31, (st219.substRow 15 31).getD (sx 0 0 0 false), by decide +kernel, by decide +kernel, by decide +kernel,
     by decide +kernel, by decide +kernel, by decide +kernel, by decide +kernel⟩,
   ⟨st220, 15, 31, sx 3 15 1 false, by decide +kernel, by decide +kernel, by decide +kernel, by decide +kernel, by decide +kernel,
     by decide +kernel, ⟨3, 7, by decide +kernel⟩, by decide +kernel⟩,
   ⟨st221, 15, 31, (st221.substRow 15 31).getD (sx 0 0 0 false), by decide +kernel, by decide +kernel, by decide +kernel,
     by decide +kernel, by decide +kernel, by decide +kernel, by decide +kernel, by decide +kernel, by decide +kernel,
     by decide +kernel, by decide +kernel⟩,
   ⟨st222, 15, 31, (st222.substRow 15 31).getD (sx 0 0 0 false), by decide +kernel, by decide +kernel, by decide +kernel,
     by decide +kernel, by decide +kernel, by decide +kernel, by decide +kernel, by decide +kernel, by decide +kernel,
     by decide +kernel, by decide +kernel, by decide +kernel⟩⟩

def st223 : State := wLk (wPt 1 0 1) [BitVec.ofNat 256 (3 * 2 ^ 192 + 16), BitVec.ofNat 256 (2 ^ 192 + 15)] 3 [62]
theorem meets_IndexedKeyOutOfRange :
    (∃ (l : Looking) (r : Nat) (n : Nat) (key : Nat), r < 256 ∧ l.st.ptMode n = 1 ∧ l.st.ptEntries n ≤ key % 2 ^ 23) ∧
    (∃ (s : State) (i : Nat) (q : PatReq) (r : Nat) (keys : Nat) (n : Nat) (ks : List (Bool × Nat)), s.hubOn = true ∧
      s.banks.patReqs[i]? = some q ∧ s.lookupOf q = some r ∧ r < 256 ∧ bit (s.rd (Reg.pr r)) 31 = true ∧ keys = fld (s.rd (Reg.pr r))
      19 6 + 1 ∧ n = fld (s.rd (Reg.pr r)) 25 6 ∧ s.ptMode n = 1 ∧ (keys + 1) / 2 ≤ q.flits.length ∧ ks = (keysOf
      (q.flits.take ((keys + 1) / 2))).take keys) :=
  ⟨⟨⟨wPt 1 0 1, [], []⟩, 255, 63, 16, by decide +kernel, by decide +kernel, by decide +kernel⟩,
   ⟨st223, 0, rq [BitVec.ofNat 256 (3 * 2 ^ 192 + 16), BitVec.ofNat 256 (2 ^ 192 + 15)], 255, _, 63, _, by decide +kernel,
     by decide +kernel, by decide +kernel, by decide +kernel, by decide +kernel, rfl, by decide +kernel, by decide +kernel,
     by decide +kernel, rfl⟩⟩

def st224 : State := wLk (putK (wPt 0 0 1) 0 [77]) [(kf 77)] 1 [62, 63]
def st225 : State := wLk (wPt 2 0 1) [(kf 77)] 1 [62, 63]
def st226 : State := wLk (putK (wPt 0 0 1) 0 [77]) [(kf 77)] 1 [62]
def st227 : State := (wPt 0 5 1).wrs [(Reg.tickId, 256), (Reg.pt 63 + 0x1C, 1)]
def st228 : State := (wPt 0 5 1).wrs [(Reg.tickId, 255), (Reg.pt 63 + 0x1C, 1)]
def st229 : State := { putK (wPt 0 4 1) 0 [77] with host.async := [(⟨.spi, 9, Op.patSync, 63, 0⟩)] }
def st230 : State := (wPt 1 0 1).wrB ((wPt 1 0 1).indexAddr 63 0 15) 3
def st231 : State := { wPt 0 4 1 with banks.patStats := [(252, 9)] }
theorem meets_LookupsAnswerAndTablesChange :
    (∃ (s : State) (i : Nat) (q : PatReq) (f : BitVec 256) (r : Nat) (n : Nat) (g : Nat) (key : Nat) (b0 : Nat) (b1 : Nat)
      (own : Nat → Bool), s.hubOn = true ∧ s.banks.patReqs[i]? = some q ∧ s.lookupOf q = some r ∧ r < 256 ∧ bit (s.rd (Reg.pr r)) 31
      = true ∧ fld (s.rd (Reg.pr r)) 19 6 = 0 ∧ q.flits = [f] ∧ q.poison = false ∧ nbit f.toNat 192 = true ∧ key = bits f.toNat 0 96
      ∧ n = fld (s.rd (Reg.pr r)) 25 6 ∧ (s.ptMode n = 0 ∨ s.ptMode n = 2) ∧ g = s.genOf n (s.eventOf q.tag) ∧ b0 = s.patBank n 0
      (s.bucket n 0 key) ∧ b1 = s.patBank n 1 (s.bucket n 1 key) ∧ b0 ≠ b1 ∧ own = (fun b => s.banks.patSlots.any (fun e => e.2.route
      == r && decide (e.2.cycle < fld (s.rd (Reg.pr r)) 7 8) && e.2.bank == b)) ∧ own b0 = true ∧ own b1 = true ∧ (∀ a ∈ s.waysOf n g
      key, s.isPoisonAt a = false ∧ (bits (s.rdLE a 32) 176 3 = 0 ∨ bits (s.rdLE a 32) 176 3 = 7))) ∧
    (∃ (s : State) (i : Nat) (q : PatReq) (f : BitVec 256) (r : Nat) (n : Nat) (g : Nat) (key : Nat) (b0 : Nat) (b1 : Nat)
      (own : Nat → Bool), s.hubOn = true ∧ s.banks.patReqs[i]? = some q ∧ s.lookupOf q = some r ∧ r < 256 ∧ bit (s.rd (Reg.pr r)) 31
      = true ∧ fld (s.rd (Reg.pr r)) 19 6 = 0 ∧ q.flits = [f] ∧ q.poison = false ∧ nbit f.toNat 192 = true ∧ key = bits f.toNat 0 96
      ∧ n = fld (s.rd (Reg.pr r)) 25 6 ∧ (s.ptMode n = 0 ∨ s.ptMode n = 2) ∧ g = s.genOf n (s.eventOf q.tag) ∧ b0 = s.patBank n 0
      (s.bucket n 0 key) ∧ b1 = s.patBank n 1 (s.bucket n 1 key) ∧ b0 ≠ b1 ∧ own = (fun b => s.banks.patSlots.any (fun e => e.2.route
      == r && decide (e.2.cycle < fld (s.rd (Reg.pr r)) 7 8) && e.2.bank == b)) ∧ own b0 = true ∧ own b1 = true ∧ (∀ a ∈ s.waysOf n g
      key, s.isPoisonAt a = false ∧ (bits (s.rdLE a 32) 176 3 = 0 ∨ bits (s.rdLE a 32) 176 3 = 7))) ∧
    (∃ (s : State) (i : Nat) (q : PatReq) (f : BitVec 256) (r : Nat) (n : Nat) (g : Nat) (key : Nat) (b0 : Nat) (b1 : Nat)
      (own : Nat → Bool), s.hubOn = true ∧ s.banks.patReqs[i]? = some q ∧ s.lookupOf q = some r ∧ r < 256 ∧ bit (s.rd (Reg.pr r)) 31
      = true ∧ fld (s.rd (Reg.pr r)) 19 6 = 0 ∧ q.flits = [f] ∧ q.poison = false ∧ nbit f.toNat 192 = true ∧ key = bits f.toNat 0 96
      ∧ n = fld (s.rd (Reg.pr r)) 25 6 ∧ (s.ptMode n = 0 ∨ s.ptMode n = 2) ∧ g = s.genOf n (s.eventOf q.tag) ∧ b0 = s.patBank n 0
      (s.bucket n 0 key) ∧ b1 = s.patBank n 1 (s.bucket n 1 key) ∧ b0 ≠ b1 ∧ own = (fun b => s.banks.patSlots.any (fun e => e.2.route
      == r && decide (e.2.cycle < fld (s.rd (Reg.pr r)) 7 8) && e.2.bank == b)) ∧ (own b0 = false ∨ own b1 = false)) ∧
    (∃ (s : State) (i : Nat) (c : Nat) (p : PatRes), s.hubOn = true ∧ s.banks.patRes[i]? = some p ∧ c = s.phys p.tile p.lcore ∧
      p.tile < 16 ∧ c < 544 ∧ p.ctx < 4 ∧ p.dq < 8 ∧ s.ctxValid p.tile c p.ctx = true ∧ s.qEn p.tile c p.ctx p.dq = true ∧ s.qGather
      p.tile c p.ctx p.dq = false ∧ s.qDepth p.tile c p.ctx p.dq ≤ 64 ∧ s.rdF (Reg.qstat p.tile c p.ctx p.dq) 8 6 < s.qDepth p.tile c
      p.ctx p.dq ∧ s.qHeld p.tile c p.ctx p.dq + p.flits.length ≤ s.qDepth p.tile c p.ctx p.dq) :=
  ⟨⟨st224, 0, rq [(kf 77)], kf 77, 255, 63, _, _, _, _, _, by decide +kernel, by decide +kernel, by decide +kernel,
     by decide +kernel, by decide +kernel, by decide +kernel, by decide +kernel, by decide +kernel, by decide +kernel, rfl,
     by decide +kernel, by decide +kernel, rfl, rfl, rfl, by decide +kernel, rfl, by decide +kernel, by decide +kernel,
     by decide +kernel⟩,
   ⟨st225, 0, rq [(kf 77)], kf 77, 255, 63, _, _, _, _, _, by decide +kernel, by decide +kernel, by decide +kernel,
     by decide +kernel, by decide +kernel, by decide +kernel, by decide +kernel, by decide +kernel, by decide +kernel, rfl,
     by decide +kernel, by decide +kernel, rfl, rfl, rfl, by decide +kernel, rfl, by decide +kernel, by decide +kernel,
     by decide +kernel⟩,
   ⟨st226, 0, rq [(kf 77)], kf 77, 255, 63, _, _, _, _, _, by decide +kernel, by decide +kernel, by decide +kernel,
     by decide +kernel, by decide +kernel, by decide +kernel, by decide +kernel, by decide +kernel, by decide +kernel, rfl,
     by decide +kernel, by decide +kernel, rfl, rfl, rfl, by decide +kernel, rfl, by decide +kernel⟩,
   ⟨wPr 2 62, 0, _, pRes 2, by decide +kernel, by decide +kernel, rfl, by decide +kernel, by decide +kernel, by decide +kernel,
     by decide +kernel, by decide +kernel, by decide +kernel, by decide +kernel, by decide +kernel, by decide +kernel,
     by decide +kernel⟩⟩

theorem meets_LookupsAnswerAndTablesChange_2 :
    (∃ (s : State) (i : Nat) (c : Nat) (p : PatRes), s.hubOn = true ∧ s.banks.patRes[i]? = some p ∧ c = s.phys p.tile p.lcore ∧
      p.tile < 16 ∧ c < 544 ∧ p.ctx < 4 ∧ p.dq < 8 ∧ s.ctxValid p.tile c p.ctx = true ∧ s.qEn p.tile c p.ctx p.dq = true ∧ s.qGather
      p.tile c p.ctx p.dq = false ∧ s.qDepth p.tile c p.ctx p.dq ≤ 64 ∧ s.rdF (Reg.qstat p.tile c p.ctx p.dq) 8 6 < s.qDepth p.tile c
      p.ctx p.dq ∧ s.qHeld p.tile c p.ctx p.dq = s.qDepth p.tile c p.ctx p.dq ∧ p.flits ≠ []) ∧
    (∃ (s : State) (n : Nat), n < 64 ∧ s.hubOn = true ∧ s.ptEn n = true ∧ s.ptPend n = true ∧ tickReached s.tickId (s.ptSwitch n +
      255) = true) ∧
    (∃ (s : State) (n : Nat), n < 64 ∧ s.hubOn = true ∧ s.ptEn n = true ∧ s.ptPend n = true ∧ tickReached s.tickId (s.ptSwitch n +
      255) = false) ∧
    (∃ (s : State) (n : Nat) (a : Async), n < 64 ∧ s.hubOn = true ∧ s.host.async = [a] ∧ a.opcode = Op.patSync ∧ a.mask = n ∧
      (s.tablePlaces n 0 ++ s.tablePlaces n 1).Nodup) :=
  ⟨⟨wPr 2 64, 0, _, pRes 2, by decide +kernel, by decide +kernel, rfl, by decide +kernel, by decide +kernel, by decide +kernel,
     by decide +kernel, by decide +kernel, by decide +kernel, by decide +kernel, by decide +kernel, by decide +kernel,
     by decide +kernel, by decide +kernel⟩,
   ⟨st227, 63, by decide +kernel, by decide +kernel, by decide +kernel, by decide +kernel, by decide +kernel⟩,
   ⟨st228, 63, by decide +kernel, by decide +kernel, by decide +kernel, by decide +kernel, by decide +kernel⟩,
   ⟨st229, 63, ⟨.spi, 9, Op.patSync, 63, 0⟩, by decide +kernel, by decide +kernel, by decide +kernel, by decide +kernel,
     by decide +kernel, by decide +kernel⟩⟩

theorem meets_LookupsAnswerAndTablesChange_3 :
    (∃ (s : State) (h : Hdr) (n : Nat) (gen : Bool) (key : BitVec 96) (count : Nat), s.ptEn n = true ∧ s.ready h Op.patRead = true ∧
      (gen = false ∨ s.ptDbuf n = true) ∧ 1 ≤ count ∧ count ≤ 64 ∧ s.ptMode n = 1 ∧ key.toNat + count ≤ s.ptEntries n ∧ (∀ i x, i <
      count → x = bits (s.rdLE (s.indexAddr n (if gen then 1 else 0) (key.toNat + i)) 32) 176 3 → x = 0 ∨ x = 7)) ∧
    (∃ (s : State) (h : Hdr) (n : Nat) (gen : Bool) (key : BitVec 96) (count : Nat) (a : _), s.ptEn n = true ∧ s.ready h Op.patRead =
      true ∧ (gen = false ∨ s.ptDbuf n = true) ∧ 1 ≤ count ∧ count ≤ 64 ∧ s.ptMode n ≠ 1 ∧ count = 1 ∧ s.findKey n (if gen then 1
      else 0) key.toNat = some a ∧ bits (s.rdLE a 32) 176 3 = 7) ∧
    (∃ (s : State) (h : Hdr) (n : Nat) (first : Nat) (g : Nat) (vals : List W64), s.ptEn n = true ∧ s.patBusy n = false ∧ s.ready h
      Op.patWrite = true ∧ s.ptMode n = 1 ∧ 1 ≤ vals.length ∧ vals.length ≤ 128 ∧ first + vals.length ≤ s.ptEntries n ∧ g =
      s.ptWritable n ∧ s.rdF (Reg.pt n + 4) 26 6 + 2 ^ s.rdF (Reg.pt n + 4) 23 3 ≤ 64 ∧ 4 * (s.rdF (Reg.pt n + 4) 9 14 + s.genRows n
      g) + (s.ptEntries n - 1) / 2 ^ s.rdF (Reg.pt n + 4) 23 3 < 65536) ∧
    (∃ (s : State) (h : Hdr) (n : Nat) (key : BitVec 96) (a : Nat) (g : Nat), s.ptEn n = true ∧ s.patBusy n = false ∧
      (s.ptMode n = 0 ∨ s.ptMode n = 2) ∧ s.ready h Op.patInsert = true ∧ g = s.ptWritable n ∧ (s.findKey n g key.toNat = some a ∨
      (s.findKey n g key.toNat = none ∧ (s.freeWay n g 0 key.toNat = some a ∨ (s.freeWay n g 0 key.toNat = none ∧ s.freeWay n g 1
      key.toNat = some a)))) ∧ (s.ptDbuf n = true ∨ s.needsKick n 0 key.toNat = false)) :=
  ⟨⟨st230, hS, 63, false, 13, 3, by decide +kernel, by decide +kernel, by decide +kernel, by decide +kernel, by decide +kernel,
     by decide +kernel, by decide +kernel, (by intro i x hi hx; subst hx; revert i; decide +kernel)⟩,
   ⟨putK (wPt 0 0 1) 0 [77], hS, 63, false, 77, 1, ((putK (wPt 0 0 1) 0 [77]).findKey 63 0 77).getD 0, by decide +kernel,
     by decide +kernel, by decide +kernel, by decide +kernel, by decide +kernel, by decide +kernel, by decide +kernel,
     by decide +kernel, by decide +kernel⟩,
   ⟨wPt 1 4 1, hS, 63, 14, _, [5, 6], by decide +kernel, by decide +kernel, by decide +kernel, by decide +kernel, by decide +kernel,
     by decide +kernel, by decide +kernel, rfl, by decide +kernel, by decide +kernel⟩,
   ⟨putK (wPt 0 4 1) 0 [77], hS, 63, 77, ((putK (wPt 0 4 1) 0 [77]).freeWay 63 1 0 77).getD 0, _, by decide +kernel,
     by decide +kernel, by decide +kernel, by decide +kernel, rfl, by decide +kernel, by decide +kernel⟩⟩

theorem meets_LookupsAnswerAndTablesChange_4 :
    (∃ (s : State) (h : Hdr) (n : Nat) (kvs : List (BitVec 96 × W64)), s.ptEn n = true ∧ s.patBusy n = false ∧ (s.ptMode n = 0 ∨
      s.ptMode n = 2) ∧ s.ready h Op.patInsert = true ∧ 1 ≤ kvs.length ∧ kvs.length ≤ 64 ∧ s.ptDbuf n = false ∧ s.batchKicks n 0 kvs
      = true) ∧
    (∃ (s : State) (h : Hdr) (n : Nat) (kvs : List (BitVec 96 × W64)), s.ptEn n = true ∧ s.patBusy n = false ∧ (s.ptMode n = 0 ∨
      s.ptMode n = 2) ∧ s.ready h Op.patInsert = true ∧ 1 ≤ kvs.length ∧ kvs.length ≤ 64 ∧ (s.ptDbuf n = true ∨ s.batchKicks n 0 kvs
      = false) ∧ s.placeAll n (s.ptWritable n) kvs = none) ∧
    (∃ (s : State) (h : Hdr) (n : Nat) (key : BitVec 96) (a : Nat), s.ptEn n = true ∧ s.patBusy n = false ∧ (s.ptMode n = 0 ∨
      s.ptMode n = 2) ∧ s.ready h Op.patDelete = true ∧ s.findKey n (s.ptWritable n) key.toNat = some a) ∧
    (∃ (s : State) (h : Hdr) (n : Nat) (keys : List (BitVec 96)), s.ptEn n = true ∧ s.patBusy n = false ∧ (s.ptMode n = 0 ∨ s.ptMode
      n = 2) ∧ s.ready h Op.patDelete = true ∧ 1 ≤ keys.length ∧ keys.length ≤ 64 ∧ (∀ k ∈ keys, s.findKey n (s.ptWritable n) k.toNat
      = none)) :=
  ⟨⟨wFilled 0 0, hS, 63, [(77, 9)], by decide +kernel, by decide +kernel, by decide +kernel, by decide +kernel, by decide +kernel,
     by decide +kernel, by decide +kernel, by decide +kernel⟩,
   ⟨wFilled 4 1, hS, 63, [(77, 9)], by decide +kernel, by decide +kernel, by decide +kernel, by decide +kernel, by decide +kernel,
     by decide +kernel, by decide +kernel, filled_none⟩,
   ⟨putK (wPt 0 4 1) 1 [77], hS, 63, 77, ((putK (wPt 0 4 1) 1 [77]).findKey 63 1 77).getD 0, by decide +kernel, by decide +kernel,
     by decide +kernel, by decide +kernel, by decide +kernel⟩,
   ⟨putK (wPt 2 4 1) 0 [77], hS, 63, [77], by decide +kernel, by decide +kernel, by decide +kernel, by decide +kernel,
     by decide +kernel, by decide +kernel, (by intro k hk; cases hk with | head => decide +kernel | tail _ h => cases h)⟩⟩

theorem meets_LookupsAnswerAndTablesChange_5 :
    (∃ (s : State) (h : Hdr) (n : Nat) (d : W32), s.ptEn n = true ∧ s.patBusy n = false ∧ s.ptDbuf n = true ∧ s.ready h
      Op.patGenSwitch = true ∧ s.strobeOk d = true) ∧
    (∃ (s : State) (h : Hdr) (n : Nat), s.ptEn n = true ∧ s.patBusy n = false ∧ s.ptDbuf n = true ∧ s.ready h Op.patSync = true) ∧
    (∃ (s : State) (h : Hdr) (n : Nat), s.ptEn n = true ∧ s.patBusy n = true ∧ s.ptDbuf n = true ∧ s.ready h Op.patGenSwitch = true) ∧
    (∃ (s : State) (h : Hdr) (n : Nat), s.ptEn n = true ∧ s.ready h Op.patStats = true) :=
  ⟨⟨wPt 0 4 1, hS, 63, 2, by decide +kernel, by decide +kernel, by decide +kernel, by decide +kernel, by decide +kernel⟩,
   ⟨wPt 0 4 1, hS, 63, by decide +kernel, by decide +kernel, by decide +kernel, by decide +kernel⟩,
   ⟨wPt 0 5 1, hS, 63, by decide +kernel, by decide +kernel, by decide +kernel, by decide +kernel⟩,
   ⟨st231, hS, 63, by decide +kernel, by decide +kernel⟩⟩

def st232 : State := own1 (w0.wr Reg.tickCfg 0x800001F4)
def st233 : State := wGrp (own1 (w0.wr Reg.tickCfg 500)) 63 0 |>.wr (Reg.laneCfg 143) 0x0000FE00
def st234 : State := let x := own1 (wTw 8 3 8); { x with twin.partner := some (7, 1, 2), twin.placed := true }
def st235 : State := let x := own1 (wTw 12 3 8); { x with twin.partner := some (7, 1, 2), twin.placed := true }
def st236 : State := let x := own1 (wTw 12 3 8); { x with twin.partner := some (8, 1, 2) }
def st237 : State := let x := own1 (wTw 12 4 8); { x with twin.partner := some (7, 1, 2) }
def st238 : State := let x := wTw 12 4 13; { x with twin.partner := some (8, 1, 2) }
def st239 : State := let x := grpUp (wTw 8 1 13); { x with twin.retry := true }
def st240 : State := let x := ex (wTw 8 2 8); { x with twin.record := some 7 }
theorem meets_TwinsLinkAttestAndPair :
    (∃ (s : State) (h : Hdr) (relay : Bool), s.ready h Op.twinConfig = true ∧ s.twinEn = false ∧ 40 ≤ s.cTick ∧
      (relay = true → bit (s.rd Reg.tickCfg) 31 = false) ∧ bit (s.rd (Reg.grpCfg 63)) 31 = false ∧ s.outboundGrp 63 = false ∧
      s.inboundGrp 63 = false ∧ (∀ d : Nat, d < 64 → bit (s.rd (Reg.meshRoute d)) 31 = true → s.rdF (Reg.meshRoute d) 0 6 ≠ 63) ∧
      (∀ i : Nat, i < 8 → s.laneGrp (136 + i) = none ∧ s.laneMode (136 + i) ≠ 3 ∧ s.inGroup (136 + i) = false)) ∧
    (∃ (s : State) (h : Hdr) (relay : Bool), s.ready h Op.twinConfig = true ∧ s.twinEn = false ∧ 40 ≤ s.cTick ∧
      (relay = true → bit (s.rd Reg.tickCfg) 31 = false) ∧ bit (s.rd (Reg.grpCfg 63)) 31 = false ∧ s.outboundGrp 63 = false ∧
      s.inboundGrp 63 = false ∧ (∀ d : Nat, d < 64 → bit (s.rd (Reg.meshRoute d)) 31 = true → s.rdF (Reg.meshRoute d) 0 6 ≠ 63) ∧
      (∀ i : Nat, i < 8 → s.laneGrp (136 + i) = none ∧ s.laneMode (136 + i) ≠ 3 ∧ s.inGroup (136 + i) = false)) ∧
    (∃ (s : State) (h : Hdr) (relay : Bool), s.ready h Op.twinConfig = true ∧ s.twinEn = false ∧ (s.cTick < 40 ∨
      (relay = true ∧ bit (s.rd Reg.tickCfg) 31 = true) ∨ (∃ i, i < 8 ∧ s.laneGrp (136 + i) ≠ none) ∨ s.outboundGrp 63 = true ∨
      s.inboundGrp 63 = true ∨ (∃ d, d < 64 ∧ bit (s.rd (Reg.meshRoute d)) 31 = true ∧ s.rdF (Reg.meshRoute d) 0 6 = 63))) ∧
    (∃ (s : State) (h : Hdr) (relay : Bool), s.ready h Op.twinConfig = true ∧ s.twinEn = false ∧ (s.cTick < 40 ∨
      (relay = true ∧ bit (s.rd Reg.tickCfg) 31 = true) ∨ (∃ i, i < 8 ∧ s.laneGrp (136 + i) ≠ none) ∨ s.outboundGrp 63 = true ∨
      s.inboundGrp 63 = true ∨ (∃ d, d < 64 ∧ bit (s.rd (Reg.meshRoute d)) 31 = true ∧ s.rdF (Reg.meshRoute d) 0 6 = 63))) ∧
    (∃ (s : State) (h : Hdr) (relay : Bool), s.ready h Op.twinConfig = true ∧ s.twinEn = false ∧ (s.cTick < 40 ∨
      (relay = true ∧ bit (s.rd Reg.tickCfg) 31 = true) ∨ (∃ i, i < 8 ∧ s.laneGrp (136 + i) ≠ none) ∨ s.outboundGrp 63 = true ∨
      s.inboundGrp 63 = true ∨ (∃ d, d < 64 ∧ bit (s.rd (Reg.meshRoute d)) 31 = true ∧ s.rdF (Reg.meshRoute d) 0 6 = 63))) ∧
    (∃ (s : State) (h : Hdr) (fp : BitVec 384), s.ready h Op.admitPartner = true ∧ s.openOf Op.admitPartner = [] ∧ s.twinState = 3 ∧
      s.twin.partner.map (·.1) = some fp) ∧
    (∃ (s : State) (h : Hdr) (fp : BitVec 384), s.ready h Op.admitPartner = true ∧ s.openOf Op.admitPartner = [] ∧ s.twinState = 3 ∧
      s.twin.partner.map (·.1) = some fp) :=
  ⟨⟨own1 (w0.wr Reg.tickCfg 500), hS, true, by decide +kernel, by decide +kernel, by decide +kernel, by decide +kernel,
     by decide +kernel, by decide +kernel, by decide +kernel, by decide +kernel, by decide +kernel⟩,
   ⟨own1 (w0.wr Reg.tickCfg 40), hS, false, by decide +kernel, by decide +kernel, by decide +kernel, by decide +kernel,
     by decide +kernel, by decide +kernel, by decide +kernel, by decide +kernel, by decide +kernel⟩,
   ⟨own1 (w0.wr Reg.tickCfg 39), hS, true, by decide +kernel, by decide +kernel, Or.inl (by decide +kernel)⟩,
   ⟨st232, hS, true, by decide +kernel, by decide +kernel, Or.inr (Or.inl (by decide +kernel))⟩,
   ⟨st233, hS, true, by decide +kernel, by decide +kernel, Or.inr (Or.inr (Or.inl ⟨7, by decide +kernel⟩))⟩,
   ⟨st234, hT, 7, by decide +kernel, by decide +kernel, by decide +kernel, by decide +kernel⟩,
   ⟨st235, hT, 7, by decide +kernel, by decide +kernel, by decide +kernel, by decide +kernel⟩⟩

theorem meets_TwinsLinkAttestAndPair_2 :
    (∃ (s : State) (h : Hdr) (fp : BitVec 384), s.ready h Op.admitPartner = true ∧ s.openOf Op.admitPartner = [] ∧ (s.twinState ≠ 3 ∨
      s.twin.partner.map (·.1) ≠ some fp)) ∧
    (∃ (s : State) (h : Hdr) (fp : BitVec 384), s.ready h Op.admitPartner = true ∧ s.openOf Op.admitPartner = [] ∧ (s.twinState ≠ 3 ∨
      s.twin.partner.map (·.1) ≠ some fp)) ∧
    (∃ (s : State) (h : Hdr), s.ready h Op.twinStatus = true) ∧
    (∃ (s : State) (h : Hdr), s.ready h Op.twinDisable = true ∧ s.twinEn = true) ∧
    (∃ (s : State) (h : Hdr), s.ready h Op.twinDisable = true ∧ s.twinEn = true ∧ s.grpLanes 63 = (List.range 8).map (136 + ·) ∧ (∀ i
      : Nat, i < 8 → s.inGroup (136 + i) = false)) ∧
    (∃ (s : State), s.hubOn = true ∧ s.twinEn = true ∧ s.grpReady 63 = true ∧ (s.twinState = 1 ∨ s.twinState = 5 ∨ s.twinState = 6) ∧
      s.twin.retry = false) ∧
    (∃ (s : State), s.hubOn = true ∧ s.twinEn = true ∧ s.grpReady 63 = true ∧ (s.twinState = 1 ∨ s.twinState = 5 ∨ s.twinState = 6) ∧
      s.twin.retry = false) :=
  ⟨⟨st236, hT, 7, by decide +kernel, by decide +kernel, by decide +kernel⟩,
   ⟨st237, hT, 7, by decide +kernel, by decide +kernel, by decide +kernel⟩,
   ⟨st238, hS, by decide +kernel⟩,
   ⟨(wTw 12 4 13).twinLanes, hS, by decide +kernel, by decide +kernel⟩,
   ⟨(wTw 12 4 13).twinLanes, hS, by decide +kernel, by decide +kernel, by decide +kernel, by decide +kernel⟩,
   ⟨grpUp (wTw 8 6 13), by decide +kernel, by decide +kernel, by decide +kernel, by decide +kernel, by decide +kernel⟩,
   ⟨grpUp (wTw 14 5 13), by decide +kernel, by decide +kernel, by decide +kernel, by decide +kernel, by decide +kernel⟩⟩

theorem meets_TwinsLinkAttestAndPair_3 :
    (∃ (s : State), s.hubOn = true ∧ s.twinEn = true ∧ s.grpReady 63 = true ∧ s.twin.retry = true) ∧
    (∃ (s : State), s.hubOn = true ∧ s.twinState = 2 ∧ s.twin.exchange = true) ∧
    (∃ (s : State) (a : AttAnswer), s.hubOn = true ∧ s.twinState = 2 ∧ s.twin.exchange = true ∧ a.valid = false) ∧
    (∃ (s : State) (a : AttAnswer), s.hubOn = true ∧ s.twinState = 2 ∧ s.twin.exchange = true ∧ a.valid = true ∧ s.twin.record = some
      a.fp) ∧
    (∃ (s : State) (a : AttAnswer), s.hubOn = true ∧ s.twinState = 2 ∧ s.twin.exchange = true ∧ a.valid = true ∧ s.twin.record ≠ some
      a.fp) :=
  ⟨⟨st239, by decide +kernel, by decide +kernel, by decide +kernel, by decide +kernel⟩,
   ⟨ex (wTw 8 2 8), by decide +kernel, by decide +kernel, by decide +kernel⟩,
   ⟨ex (wTw 8 2 8), att false 7, by decide +kernel, by decide +kernel, by decide +kernel, by decide +kernel⟩,
   ⟨st240, att true 7, by decide +kernel, by decide +kernel, by decide +kernel, by decide +kernel, by decide +kernel⟩,
   ⟨ex (wTw 8 2 8), att true 7, by decide +kernel, by decide +kernel, by decide +kernel, by decide +kernel, by decide +kernel⟩⟩

def st241 : State := let x := wCmp 8 1 (oD 6 0) [dF 5 0]; x.wr Reg.twinCfg 0x90000000
def st242 : State := let x := wTw 8 4 8; { x with twin.releaseAt := some 9 }
def st243 : State := let x := wTw 8 4 0; { x with twin.releaseAt := some 9, host.async := [aHo 9] }
def st244 : State := let x := wTw 8 6 0; { x with host.async := [aHo 9] }
def st245 : State := { wTw 8 4 8 with dev.state := .loaded }
def st246 : State := { wTw 8 4 0 with dev.state := .loaded }
def st247 : State := { wTw 8 4 10 with dev.state := .loaded }
def st248 : State := { wTw 8 5 8 with dev.state := .loaded }
theorem meets_DigestsDecideTheHandover :
    (∃ (s : State) (k : W32), s.hubOn = true ∧ s.twinState = 4 ∧ k = s.tickId - 1 ∧ (∀ o ∈ s.twin.own, o.tick ≠ k) ∧ (∀ e ∈
      s.twin.tapped, e.1 = k → e.2.2.2.2 = false)) ∧
    (∃ (s : State) (u : State) (p : Popped) (k : W32), s.hubOn = true ∧ s.twinState = 4 ∧ s.popFrame 63 0xE2 = some p ∧ p.ok = true ∧
      wbits p.hdr 24 8 = 255 ∧ k = BitVec.ofNat 32 (wbits p.hdr 32 32) ∧ u = p.st ∧ u.cTick = bytesAt p.bytes 10 2 ∧ u.digestWindow.1
      ≤ tickDiff u.tickId k ∧ tickDiff u.tickId k ≤ u.digestWindow.2 ∧ u.openOf Op.twinHandover = []) ∧
    (∃ (s : State) (u : State) (p : Popped) (k : W32), s.hubOn = true ∧ s.twinState = 4 ∧ s.popFrame 63 0xE2 = some p ∧ p.ok = true ∧
      wbits p.hdr 24 8 = 255 ∧ k = BitVec.ofNat 32 (wbits p.hdr 32 32) ∧ u = p.st ∧ (u.cTick ≠ bytesAt p.bytes 10 2 ∨ tickDiff
      u.tickId k < u.digestWindow.1 ∨ u.digestWindow.2 < tickDiff u.tickId k)) ∧
    (∃ (s : State) (u : State) (p : Popped) (k : W32), s.hubOn = true ∧ s.twinState = 4 ∧ s.popFrame 63 0xE2 = some p ∧ p.ok = true ∧
      wbits p.hdr 24 8 = 255 ∧ k = BitVec.ofNat 32 (wbits p.hdr 32 32) ∧ u = p.st ∧ (u.cTick ≠ bytesAt p.bytes 10 2 ∨ tickDiff
      u.tickId k < u.digestWindow.1 ∨ u.digestWindow.2 < tickDiff u.tickId k)) ∧
    (∃ (s : State) (u : State) (p : Popped) (k : W32), s.hubOn = true ∧ s.twinState = 4 ∧ s.popFrame 63 0xE2 = some p ∧ p.ok = true ∧
      wbits p.hdr 24 8 = 255 ∧ k = BitVec.ofNat 32 (wbits p.hdr 32 32) ∧ u = p.st ∧ (u.cTick ≠ bytesAt p.bytes 10 2 ∨ tickDiff
      u.tickId k < u.digestWindow.1 ∨ u.digestWindow.2 < tickDiff u.tickId k)) ∧
    (∃ (s : State) (k : W32) (o : OwnDigest), s.hubOn = true ∧ s.twinState = 4 ∧ k = s.tickId - (if s.relayPrimary then 6 else 4) ∧
      s.twin.own.find? (fun x => x.tick == k) = some o ∧ s.twin.rcvd.find? (fun d => d.tick == k) = none) ∧
    (∃ (s : State) (k : W32) (o : OwnDigest), s.hubOn = true ∧ s.twinState = 4 ∧ k = s.tickId - (if s.relayPrimary then 6 else 4) ∧
      s.twin.own.find? (fun x => x.tick == k) = some o ∧ s.twin.rcvd.find? (fun d => d.tick == k) = none) ∧
    (∃ (s : State) (k : W32) (o : OwnDigest) (d : DigestFrame), s.hubOn = true ∧ s.twinState = 4 ∧ k = s.tickId - (if s.relayPrimary
      then 6 else 4) ∧ s.twin.own.find? (fun x => x.tick == k) = some o ∧ s.twin.rcvd.find? (fun x => x.tick == k) = some d ∧
      o.digest = d.digest) :=
  ⟨⟨wTw 8 4 8, _, by decide +kernel, by decide +kernel, rfl, by decide +kernel, by decide +kernel⟩,
   ⟨wDig 8 500, _, ((wDig 8 500).popFrame 63 0xE2).getD ⟨0, [], false, 0, 0, (wDig 8 500)⟩, _, by decide +kernel, by decide +kernel,
     some_getD (by decide +kernel), by decide +kernel, by decide +kernel, rfl, rfl, by decide +kernel, by decide +kernel,
     by decide +kernel, by decide +kernel⟩,
   ⟨wDig 9 500, _, ((wDig 9 500).popFrame 63 0xE2).getD ⟨0, [], false, 0, 0, (wDig 9 500)⟩, _, by decide +kernel, by decide +kernel,
     some_getD (by decide +kernel), by decide +kernel, by decide +kernel, rfl, rfl, by decide +kernel⟩,
   ⟨wDig 8 499, _, ((wDig 8 499).popFrame 63 0xE2).getD ⟨0, [], false, 0, 0, (wDig 8 499)⟩, _, by decide +kernel, by decide +kernel,
     some_getD (by decide +kernel), by decide +kernel, by decide +kernel, rfl, rfl, by decide +kernel⟩,
   ⟨wDig 5 500, _, ((wDig 5 500).popFrame 63 0xE2).getD ⟨0, [], false, 0, 0, (wDig 5 500)⟩, _, by decide +kernel, by decide +kernel,
     some_getD (by decide +kernel), by decide +kernel, by decide +kernel, rfl, rfl, by decide +kernel⟩,
   ⟨wCmp 8 0 (oD 5 1) [], _, oD 5 1, by decide +kernel, by decide +kernel, rfl, by decide +kernel, by decide +kernel⟩,
   ⟨wCmp 8 1 (oD 5 1) [], _, oD 5 1, by decide +kernel, by decide +kernel, rfl, by decide +kernel, by decide +kernel⟩,
   ⟨wCmp 8 1 (oD 5 1) [dF 5 1], _, oD 5 1, dF 5 1, by decide +kernel, by decide +kernel, rfl, by decide +kernel, by decide +kernel,
     by decide +kernel⟩⟩

theorem meets_DigestsDecideTheHandover_2 :
    (∃ (s : State) (k : W32) (o : OwnDigest) (d : DigestFrame) (act : Bool) (faulty : Bool), s.hubOn = true ∧ s.twinState = 4 ∧ k =
      s.tickId - (if s.relayPrimary then 6 else 4) ∧ s.twin.own.find? (fun x => x.tick == k) = some o ∧ s.twin.rcvd.find? (fun x =>
      x.tick == k) = some d ∧ o.digest ≠ d.digest ∧ act = (if o.active = d.active then !s.isStandby else o.active) ∧ faulty = (if
      o.evidence ≠ 0 ∧ d.evidence = 0 then true else if o.evidence = 0 ∧ d.evidence ≠ 0 then false else if bit (s.rd Reg.twinCfg) 28
      then act else !act)) ∧
    (∃ (s : State) (k : W32) (o : OwnDigest) (d : DigestFrame) (act : Bool) (faulty : Bool), s.hubOn = true ∧ s.twinState = 4 ∧ k =
      s.tickId - (if s.relayPrimary then 6 else 4) ∧ s.twin.own.find? (fun x => x.tick == k) = some o ∧ s.twin.rcvd.find? (fun x =>
      x.tick == k) = some d ∧ o.digest ≠ d.digest ∧ act = (if o.active = d.active then !s.isStandby else o.active) ∧ faulty = (if
      o.evidence ≠ 0 ∧ d.evidence = 0 then true else if o.evidence = 0 ∧ d.evidence ≠ 0 then false else if bit (s.rd Reg.twinCfg) 28
      then act else !act)) ∧
    (∃ (s : State) (k : W32) (o : OwnDigest) (d : DigestFrame) (act : Bool) (faulty : Bool), s.hubOn = true ∧ s.twinState = 4 ∧ k =
      s.tickId - (if s.relayPrimary then 6 else 4) ∧ s.twin.own.find? (fun x => x.tick == k) = some o ∧ s.twin.rcvd.find? (fun x =>
      x.tick == k) = some d ∧ o.digest ≠ d.digest ∧ act = (if o.active = d.active then !s.isStandby else o.active) ∧ faulty = (if
      o.evidence ≠ 0 ∧ d.evidence = 0 then true else if o.evidence = 0 ∧ d.evidence ≠ 0 then false else if bit (s.rd Reg.twinCfg) 28
      then act else !act)) ∧
    (∃ (s : State) (k : W32) (o : OwnDigest) (d : DigestFrame) (act : Bool) (faulty : Bool), s.hubOn = true ∧ s.twinState = 4 ∧ k =
      s.tickId - (if s.relayPrimary then 6 else 4) ∧ s.twin.own.find? (fun x => x.tick == k) = some o ∧ s.twin.rcvd.find? (fun x =>
      x.tick == k) = some d ∧ o.digest ≠ d.digest ∧ act = (if o.active = d.active then !s.isStandby else o.active) ∧ faulty = (if
      o.evidence ≠ 0 ∧ d.evidence = 0 then true else if o.evidence = 0 ∧ d.evidence ≠ 0 then false else if bit (s.rd Reg.twinCfg) 28
      then act else !act)) ∧
    (∃ (s : State) (k : W32) (o : OwnDigest) (d : DigestFrame) (act : Bool) (faulty : Bool), s.hubOn = true ∧ s.twinState = 4 ∧ k =
      s.tickId - (if s.relayPrimary then 6 else 4) ∧ s.twin.own.find? (fun x => x.tick == k) = some o ∧ s.twin.rcvd.find? (fun x =>
      x.tick == k) = some d ∧ o.digest ≠ d.digest ∧ act = (if o.active = d.active then !s.isStandby else o.active) ∧ faulty = (if
      o.evidence ≠ 0 ∧ d.evidence = 0 then true else if o.evidence = 0 ∧ d.evidence ≠ 0 then false else if bit (s.rd Reg.twinCfg) 28
      then act else !act)) ∧
    (∃ (s : State), s.hubOn = true ∧ s.due s.twin.releaseAt = true ∧ s.twinActive = true) ∧
    (∃ (s : State) (a : Async), s.hubOn = true ∧ s.due s.twin.releaseAt = true ∧ s.twinActive = false ∧ s.openOf Op.twinHandover =
      [a] ∧ tickReached s.tickId a.tick = true) ∧
    (∃ (s : State), s.hubOn = true ∧ s.twinEn = true ∧ s.twinActive = false ∧ s.twinFaulted = false ∧ (s.twinState = 4 ∨ s.twinState
      = 5 ∨ s.twinState = 6)) :=
  ⟨⟨wCmp 8 1 (oD 6 1) [dF 5 0], _, oD 6 1, dF 5 0, _, _, by decide +kernel, by decide +kernel, rfl, by decide +kernel,
     by decide +kernel, by decide +kernel, rfl, rfl⟩,
   ⟨wCmp 10 1 (oD 6 1) [dF 5 0], _, oD 6 1, dF 5 0, _, _, by decide +kernel, by decide +kernel, rfl, by decide +kernel,
     by decide +kernel, by decide +kernel, rfl, rfl⟩,
   ⟨wCmp 8 1 (oD 6 0) [dF 5 1], _, oD 6 0, dF 5 1, _, _, by decide +kernel, by decide +kernel, rfl, by decide +kernel,
     by decide +kernel, by decide +kernel, rfl, rfl⟩,
   ⟨st241, _, oD 6 0, dF 5 0, _, _, by decide +kernel, by decide +kernel, rfl, by decide +kernel, by decide +kernel,
     by decide +kernel, rfl, rfl⟩,
   ⟨wCmp 8 1 (oD 6 0) [dF 5 0], _, oD 6 0, dF 5 0, _, _, by decide +kernel, by decide +kernel, rfl, by decide +kernel,
     by decide +kernel, by decide +kernel, rfl, rfl⟩,
   ⟨st242, by decide +kernel, by decide +kernel, by decide +kernel⟩,
   ⟨st243, aHo 9, by decide +kernel, by decide +kernel, by decide +kernel, by decide +kernel, by decide +kernel⟩,
   ⟨st244, by decide +kernel, by decide +kernel, by decide +kernel, by decide +kernel, by decide +kernel⟩⟩

theorem meets_DigestsDecideTheHandover_3 :
    (∃ (s : State), s.hubOn = true ∧ s.twinEn = true ∧ s.twinActive = false ∧ s.twinFaulted = true) ∧
    (∃ (s : State), s.hubOn = true ∧ s.twinFlag 25 = true ∧ (s.twinState = 4 ∨ s.twinState = 5)) ∧
    (∃ (s : State) (h : Hdr) (d : W32), s.ready h Op.twinHandover = true ∧ s.twinState = 4 ∧ s.strobeOk d = true ∧ (if s.twinActive
      then s.twinFlag 26 else s.twinFaulted) = false) ∧
    (∃ (s : State) (h : Hdr) (d : W32), s.ready h Op.twinHandover = true ∧ s.twinState = 4 ∧ s.strobeOk d = true ∧ (if s.twinActive
      then s.twinFlag 26 else s.twinFaulted) = false) ∧
    (∃ (s : State) (h : Hdr), s.ready h Op.twinHandover = true ∧ (s.twinState ≠ 4 ∨ (if s.twinActive then s.twinFlag 26 else
      s.twinFaulted) = true)) ∧
    (∃ (s : State) (h : Hdr), s.ready h Op.twinHandover = true ∧ (s.twinState ≠ 4 ∨ (if s.twinActive then s.twinFlag 26 else
      s.twinFaulted) = true)) :=
  ⟨⟨wTw 8 6 4, by decide +kernel, by decide +kernel, by decide +kernel, by decide +kernel⟩,
   ⟨wTw 8 5 13, by decide +kernel, by decide +kernel, by decide +kernel⟩,
   ⟨st245, hS, 0, by decide +kernel, by decide +kernel, by decide +kernel, by decide +kernel⟩,
   ⟨st246, hS, 11, by decide +kernel, by decide +kernel, by decide +kernel, by decide +kernel⟩,
   ⟨st247, hS, by decide +kernel, by decide +kernel⟩,
   ⟨st248, hS, by decide +kernel, by decide +kernel⟩⟩

def st249 : State := ({ w0 with ctx := w0.ctx.set 3 { CtxRun.none' with cores := [(15, 511)] } }).wr (Reg.ctxrState 3) 0x30000000
def st250 : State := wPw 0x08000000 (fun p => { p with samples := 5000009, badAt := [(1, 9)] })
def st251 : State := wPw 0x10000000 (fun p => { p with samples := 5000009, badAt := [(0, 9)] })
def st252 : State := wPw 0x08000000 (fun p => { p with samples := 5000008, badAt := [(1, 9)] })
def st253 : State := (wPw 0x20000000 (fun p => { p with feedLow := [(0, 51)] })).wr Reg.pwrCfg 0x80000001
def st254 : State := (wPw 0x20000000 (fun p => { p with feedLow := [(0, 50)] })).wr Reg.pwrCfg 0x80000001
def st255 : State := (wPw 0x20000000 (fun p => { p with feedLow := [(0, 51)] })).wr Reg.pwrCfg 0x00000001
def st256 : State := (wPw 0x80000000 (fun p => { p with goodFrom := 1, samples := 500000 })).wr Reg.pwrCfg 0x000A0001
def st257 : State := (wPw 0x80000000 (fun p => { p with goodFrom := 1, samples := 499999 })).wr Reg.pwrCfg 0x000A0001
def st258 : State := w0.wr (Reg.avsCfg 15) 0x80000009
theorem meets_FeedsAreSampledAndSwitched :
    (∃ (s : State) (h : Hdr), s.ready h Op.pwrStatus = true) ∧
    (∃ (s : State) (h : Hdr) (ret : Nat) (restore : Nat), s.ready h Op.feedConfig = true ∧ 10 ≤ ret ∧ ret ≤ 10000 ∧ 1 ≤ restore ∧
      restore ≤ 60000) ∧
    (∃ (s : State) (h : Hdr) (ret : Nat) (restore : Nat), s.ready h Op.feedConfig = true ∧ (ret < 10 ∨ 10000 < ret ∨ restore = 0 ∨
      60000 < restore)) ∧
    (∃ (s : State) (h : Hdr) (ret : Nat) (restore : Nat), s.ready h Op.feedConfig = true ∧ (ret < 10 ∨ 10000 < ret ∨ restore = 0 ∨
      60000 < restore)) ∧
    (∃ (s : State) (h : Hdr) (mask : Nat) (guardMv : Nat) (droop : Bool), s.ready h Op.loopConfig = true ∧ 0 < mask ∧ mask < 2 ^ 16 ∧
      20 ≤ guardMv ∧ guardMv ≤ 60 ∧ (droop = true ∨ ∀ i : Nat, i < 16 → nbit mask i = true → s.timedTile i = false)) ∧
    (∃ (s : State) (h : Hdr) (mask : Nat) (guardMv : Nat) (droop : Bool), s.ready h Op.loopConfig = true ∧ 0 < mask ∧ mask < 2 ^ 16 ∧
      20 ≤ guardMv ∧ guardMv ≤ 60 ∧ (droop = true ∨ ∀ i : Nat, i < 16 → nbit mask i = true → s.timedTile i = false)) ∧
    (∃ (s : State) (h : Hdr) (mask : Nat), s.ready h Op.loopConfig = true ∧ mask = 0) :=
  ⟨⟨w0, hS, by decide +kernel⟩,
   ⟨w0, hS, 10000, 60000, by decide +kernel, by decide +kernel, by decide +kernel, by decide +kernel, by decide +kernel⟩,
   ⟨w0, hS, 9, 60000, by decide +kernel, by decide +kernel⟩,
   ⟨w0, hS, 9, 0, by decide +kernel, by decide +kernel⟩,
   ⟨w0, hS, 0x8001, 60, true, by decide +kernel, by decide +kernel, by decide +kernel, by decide +kernel, by decide +kernel,
     by decide +kernel⟩,
   ⟨w0, hS, 0x8001, 20, false, by decide +kernel, by decide +kernel, by decide +kernel, by decide +kernel, by decide +kernel,
     by decide +kernel⟩,
   ⟨w0, hS, 0, by decide +kernel, by decide +kernel⟩⟩

theorem meets_FeedsAreSampledAndSwitched_2 :
    (∃ (s : State) (h : Hdr) (mask : Nat) (droop : Bool) (i : _), s.ready h Op.loopConfig = true ∧ i < 16 ∧ mask < 2 ^ 16 ∧ nbit mask
      i = true ∧ s.timedTile i = true ∧ droop = false) ∧
    (∃ (s : State) (aV : Nat) (bV : Nat) (busV : Nat) (aI : Nat) (bI : Nat) (die : Nat), s.powered = true ∧ s.dev.state ≠ .boot ∧
      s.feedFault 0 = false ∧ s.feedFault 1 = false ∧ 4200 ≤ aV ∧ aV ≤ 6300 ∧ 4200 ≤ bV ∧ bV ≤ 6300 ∧ busV < 65536 ∧ aI ≤ 2700 ∧ bI ≤
      2700 ∧ die < 256) ∧
    (∃ (s : State) (aV : Nat) (bV : Nat) (busV : Nat) (aI : Nat) (bI : Nat) (die : Nat), s.powered = true ∧ s.dev.state ≠ .boot ∧
      s.feedFault 0 = false ∧ s.feedFault 1 = false ∧ 4200 ≤ aV ∧ aV ≤ 6300 ∧ 4200 ≤ bV ∧ bV ≤ 6300 ∧ busV < 65536 ∧ aI ≤ 2700 ∧ bI ≤
      2700 ∧ die < 256) ∧
    (∃ (s : State) (aV : Nat) (bV : Nat) (busV : Nat) (aI : Nat) (bI : Nat) (die : Nat), s.powered = true ∧ s.dev.state ≠ .boot ∧
      s.feedFault 0 = false ∧ s.feedFault 1 = false ∧ 4200 ≤ aV ∧ aV ≤ 6300 ∧ 4200 ≤ bV ∧ bV ≤ 6300 ∧ busV < 65536 ∧ aI ≤ 2700 ∧ bI ≤
      2700 ∧ die < 256) ∧
    (∃ (s : State) (f : _), s.powered = true ∧ (f = 0 ∨ f = 1) ∧ s.feedFault f = true ∧ s.feedFault (1 - f) = false ∧ SMap.get 0
      s.pwr.badAt f + 5000000 ≤ s.pwr.samples) ∧
    (∃ (s : State) (f : _), s.powered = true ∧ (f = 0 ∨ f = 1) ∧ s.feedFault f = true ∧ s.feedFault (1 - f) = false ∧ SMap.get 0
      s.pwr.badAt f + 5000000 ≤ s.pwr.samples) ∧
    (∃ (s : State) (f : _), s.powered = true ∧ (f = 0 ∨ f = 1) ∧ s.feedFault f = true ∧ s.feedFault (1 - f) = false ∧ s.pwr.samples <
      SMap.get 0 s.pwr.badAt f + 5000000) :=
  ⟨⟨st249, hS, 0x8001, false, 15, by decide +kernel, by decide +kernel, by decide +kernel, by decide +kernel, by decide +kernel,
     by decide +kernel⟩,
   ⟨w0, 4200, 6300, 3900, 2700, 0, 255, by decide +kernel, by decide +kernel, by decide +kernel, by decide +kernel,
     by decide +kernel, by decide +kernel, by decide +kernel, by decide +kernel, by decide +kernel, by decide +kernel,
     by decide +kernel, by decide +kernel⟩,
   ⟨wPw 0x80000000 id, 6300, 6300, 0, 2700, 0, 255, by decide +kernel, by decide +kernel, by decide +kernel, by decide +kernel,
     by decide +kernel, by decide +kernel, by decide +kernel, by decide +kernel, by decide +kernel, by decide +kernel,
     by decide +kernel, by decide +kernel⟩,
   ⟨w0, 4200, 6300, 3900, 2700, 0, 255, by decide +kernel, by decide +kernel, by decide +kernel, by decide +kernel,
     by decide +kernel, by decide +kernel, by decide +kernel, by decide +kernel, by decide +kernel, by decide +kernel,
     by decide +kernel, by decide +kernel⟩,
   ⟨st250, 1, by decide +kernel, by decide +kernel, by decide +kernel, by decide +kernel, by decide +kernel⟩,
   ⟨st251, 0, by decide +kernel, by decide +kernel, by decide +kernel, by decide +kernel, by decide +kernel⟩,
   ⟨st252, 1, by decide +kernel, by decide +kernel, by decide +kernel, by decide +kernel, by decide +kernel⟩⟩

theorem meets_FeedsAreSampledAndSwitched_3 :
    (∃ (s : State), s.powered = true ∧ (s.feedFault s.activeFeed = true ∨ 50 < SMap.get 0 s.pwr.feedLow s.activeFeed) ∧ s.canSwitch =
      true) ∧
    (∃ (s : State), s.powered = true ∧ (s.feedFault s.activeFeed = true ∨ 50 < SMap.get 0 s.pwr.feedLow s.activeFeed) ∧ s.canSwitch =
      true) ∧
    (∃ (s : State), s.powered = true ∧ ((s.feedFault s.activeFeed = false ∧ SMap.get 0 s.pwr.feedLow s.activeFeed ≤ 50) ∨ s.canSwitch
      = false)) ∧
    (∃ (s : State), s.powered = true ∧ ((s.feedFault s.activeFeed = false ∧ SMap.get 0 s.pwr.feedLow s.activeFeed ≤ 50) ∨ s.canSwitch
      = false)) ∧
    (∃ (s : State), s.powered = true ∧ s.activeFeed = 1 ∧ s.feedFault 0 = false ∧ s.pwr.goodFrom ≠ 0 ∧ s.pwr.goodFrom + s.rdF
      Reg.pwrCfg 16 15 * 50000 ≤ s.pwr.samples + 1) ∧
    (∃ (s : State), s.powered = true ∧ s.activeFeed = 1 ∧ s.feedFault 0 = false ∧ s.pwr.goodFrom ≠ 0 ∧ s.pwr.samples + 1 <
      s.pwr.goodFrom + s.rdF Reg.pwrCfg 16 15 * 50000) ∧
    (∃ (s : State) (temp : Int), s.powered = true ∧ (temp < 150 ∨ 400 < temp)) :=
  ⟨⟨st253, by decide +kernel, by decide +kernel, by decide +kernel⟩,
   ⟨wPw 0xC8000000 id, by decide +kernel, by decide +kernel, by decide +kernel⟩,
   ⟨st254, by decide +kernel, by decide +kernel⟩,
   ⟨st255, by decide +kernel, by decide +kernel⟩,
   ⟨st256, by decide +kernel, by decide +kernel, by decide +kernel, by decide +kernel, by decide +kernel⟩,
   ⟨st257, by decide +kernel, by decide +kernel, by decide +kernel, by decide +kernel, by decide +kernel⟩,
   ⟨w0, 149, by decide +kernel, by decide +kernel⟩⟩

theorem meets_FeedsAreSampledAndSwitched_4 :
    (∃ (s : State) (temp : Int), s.powered = true ∧ (temp < 150 ∨ 400 < temp)) ∧
    (∃ (s : State) (temp : Int), s.powered = true ∧ 150 ≤ temp ∧ temp ≤ 400) ∧
    (∃ (s : State) (tile : Nat) (o : Int), s.powered = true ∧ tile < 16 ∧ s.hubOn = true ∧ o = toSigned 8 (s.rdF (Reg.avsCfg tile) 0
      8) ∧ bit (s.rd (Reg.avsCfg tile)) 31 = false ∧ o < 10) ∧
    (∃ (s : State) (tile : Nat) (o : Int), s.powered = true ∧ tile < 16 ∧ s.hubOn = true ∧ o = toSigned 8 (s.rdF (Reg.avsCfg tile) 0
      8) ∧ bit (s.rd (Reg.avsCfg tile)) 31 = false ∧ 10 ≤ o) ∧
    (∃ (s : State) (tile : Nat) (o : Int), s.powered = true ∧ tile < 16 ∧ s.hubOn = true ∧ o = toSigned 8 (s.rdF (Reg.avsCfg tile) 0
      8) ∧ bit (s.rd (Reg.avsCfg tile)) 31 = false ∧ -8 < o) ∧
    (∃ (s : State) (tile : Nat) (o : Int), s.powered = true ∧ tile < 16 ∧ s.hubOn = true ∧ o = toSigned 8 (s.rdF (Reg.avsCfg tile) 0
      8) ∧ bit (s.rd (Reg.avsCfg tile)) 31 = false ∧ o ≤ -8) ∧
    (∃ (s : State) (tile : Nat) (o : Int), s.powered = true ∧ tile < 16 ∧ s.hubOn = true ∧ o = toSigned 8 (s.rdF (Reg.avsCfg tile) 0
      8) ∧ bit (s.rd (Reg.avsCfg tile)) 31 = true) :=
  ⟨⟨w0, 401, by decide +kernel, by decide +kernel⟩,
   ⟨w0, 400, by decide +kernel, by decide +kernel, by decide +kernel⟩,
   ⟨w0.wr (Reg.avsCfg 15) 9, 15, _, by decide +kernel, by decide +kernel, by decide +kernel, rfl, by decide +kernel,
     by decide +kernel⟩,
   ⟨w0.wr (Reg.avsCfg 15) 10, 15, _, by decide +kernel, by decide +kernel, by decide +kernel, rfl, by decide +kernel,
     by decide +kernel⟩,
   ⟨w0.wr (Reg.avsCfg 15) 0xF9, 15, _, by decide +kernel, by decide +kernel, by decide +kernel, rfl, by decide +kernel,
     by decide +kernel⟩,
   ⟨w0.wr (Reg.avsCfg 15) 0xF8, 15, _, by decide +kernel, by decide +kernel, by decide +kernel, rfl, by decide +kernel,
     by decide +kernel⟩,
   ⟨st258, 15, _, by decide +kernel, by decide +kernel, by decide +kernel, rfl, by decide +kernel⟩⟩

def st259 : State := let x := wShed 0 6; { x with host.async := [⟨.spi, 9, Op.selftest, 1, 0⟩] }
def st260 : State := let x := wShed 5 6; x.wr Reg.pwrStat (x.rd Reg.pwrStat ||| 0x00C00000)
def st261 : State := (wPw 0x01000000 (fun p => { p with okFrom := [(1, 1)], samples := 50000 })).wr Reg.pwrCfg 1
def st262 : State := (wPw 0x03000000 (fun p => { p with okFrom := [(3, 1)], samples := 50000 })).wr Reg.pwrCfg 1
def st263 : State := (wPw 0x02000000 (fun p => { p with okFrom := [(2, 1)], samples := 50000 })).wr Reg.pwrCfg 1
def st264 : State := (wPw 0x03000000 (fun p => { p with okFrom := [(3, 1)], samples := 49999 })).wr Reg.pwrCfg 1
def st265 : State := { w0 with pwr.rewriting := true, host.async := [⟨.spi, 9, Op.resume, 1, 7⟩] }
def st266 : State := { w0 with ant.numWin := [(12285, 3), (12286, 4)] }.wrs [(Reg.tickId, 32), (Reg.numCfg, 5)]
def st267 : State := { wShed 1 1 with ant.numWin := [(12285, 3)] }.wrs [(Reg.tickId, 32), (Reg.numCfg, 5)]
def st268 : State := w0.wrs [(Reg.tickId, 16), (Reg.numCfg, 5)]
def st269 : State := { w0.wr Reg.tickId 0x100000 with banks.eccWin := [3, 0, 0, 0] }
theorem meets_StagesShedAndWindowsEnd :
    (∃ (s : State) (st : Nat) (m : Nat), s.powered = true ∧ s.dev.state ≠ .safe ∧ s.pwr.rewriting = false ∧ 1 ≤ st ∧ st ≤ 6 ∧ m = max
      (min st s.voltStage) (min st s.thermStage) ∧ m ≤ s.shedStage) ∧
    (∃ (s : State) (st : Nat) (m : Nat), s.powered = true ∧ s.dev.state ≠ .safe ∧ s.pwr.rewriting = false ∧ 1 ≤ st ∧ st ≤ 6 ∧ m = max
      (min st s.voltStage) (min st s.thermStage) ∧ m = s.shedStage + 1 ∧ m ≤ 5) ∧
    (∃ (s : State) (st : Nat) (m : Nat), s.powered = true ∧ s.dev.state ≠ .safe ∧ s.pwr.rewriting = false ∧ 1 ≤ st ∧ st ≤ 6 ∧ m = max
      (min st s.voltStage) (min st s.thermStage) ∧ m = s.shedStage + 1 ∧ m ≤ 5) ∧
    (∃ (s : State) (st : Nat) (m : Nat), s.powered = true ∧ s.dev.state ≠ .safe ∧ s.pwr.rewriting = false ∧ 1 ≤ st ∧ st ≤ 6 ∧ m = max
      (min st s.voltStage) (min st s.thermStage) ∧ m = s.shedStage + 1 ∧ m ≤ 5) ∧
    (∃ (s : State) (st : Nat) (m : Nat), s.powered = true ∧ s.dev.state ≠ .safe ∧ s.pwr.rewriting = false ∧ 1 ≤ st ∧ st ≤ 6 ∧ m = max
      (min st s.voltStage) (min st s.thermStage) ∧ m = s.shedStage + 1 ∧ m ≤ 5) ∧
    (∃ (s : State) (st : Nat) (m : Nat), s.powered = true ∧ s.dev.state ≠ .safe ∧ s.pwr.rewriting = false ∧ 1 ≤ st ∧ st ≤ 6 ∧ m = max
      (min st s.voltStage) (min st s.thermStage) ∧ m = s.shedStage + 1 ∧ m ≤ 5) ∧
    (∃ (s : State) (st : Nat) (m : Nat), s.powered = true ∧ s.dev.state ≠ .safe ∧ s.pwr.rewriting = false ∧ 1 ≤ st ∧ st ≤ 6 ∧ m = max
      (min st s.voltStage) (min st s.thermStage) ∧ s.shedStage = 5 ∧ (s.voltStage = 6 ∨ s.thermStage = 6)) :=
  ⟨⟨wShed 1 1, 6, _, by decide +kernel, by decide +kernel, by decide +kernel, by decide +kernel, by decide +kernel, rfl,
     by decide +kernel⟩,
   ⟨st259, 1, _, by decide +kernel, by decide +kernel, by decide +kernel, by decide +kernel, by decide +kernel, rfl,
     by decide +kernel, by decide +kernel⟩,
   ⟨wShed 1 6, 2, _, by decide +kernel, by decide +kernel, by decide +kernel, by decide +kernel, by decide +kernel, rfl,
     by decide +kernel, by decide +kernel⟩,
   ⟨wShed 2 6, 3, _, by decide +kernel, by decide +kernel, by decide +kernel, by decide +kernel, by decide +kernel, rfl,
     by decide +kernel, by decide +kernel⟩,
   ⟨wShed 3 6, 4, _, by decide +kernel, by decide +kernel, by decide +kernel, by decide +kernel, by decide +kernel, rfl,
     by decide +kernel, by decide +kernel⟩,
   ⟨wShed 4 6, 5, _, by decide +kernel, by decide +kernel, by decide +kernel, by decide +kernel, by decide +kernel, rfl,
     by decide +kernel, by decide +kernel⟩,
   ⟨st260, 6, _, by decide +kernel, by decide +kernel, by decide +kernel, by decide +kernel, by decide +kernel, rfl,
     by decide +kernel, by decide +kernel⟩⟩

theorem meets_StagesShedAndWindowsEnd_2 :
    (∃ (s : State), s.hubOn = true) ∧
    (∃ (s : State) (st : Nat), s.powered = true ∧ s.dev.state ≠ .safe ∧ s.pwr.rewriting = false ∧ 1 ≤ st ∧ st ≤ 3 ∧ s.shedStage = st
      ∧ SMap.get 0 s.pwr.okFrom st ≠ 0 ∧ max (SMap.get 0 s.pwr.okFrom st) (s.pwr.dwellFrom + 1) + s.rdF Reg.pwrCfg 0 16 * 50000 ≤
      s.pwr.samples + 1 ∧ s.pwr.offLanes = [] ∧ s.host.waits = []) ∧
    (∃ (s : State) (st : Nat), s.powered = true ∧ s.dev.state ≠ .safe ∧ s.pwr.rewriting = false ∧ 1 ≤ st ∧ st ≤ 3 ∧ s.shedStage = st
      ∧ SMap.get 0 s.pwr.okFrom st ≠ 0 ∧ max (SMap.get 0 s.pwr.okFrom st) (s.pwr.dwellFrom + 1) + s.rdF Reg.pwrCfg 0 16 * 50000 ≤
      s.pwr.samples + 1 ∧ s.pwr.offLanes = [] ∧ s.host.waits = []) ∧
    (∃ (s : State) (st : Nat), s.powered = true ∧ s.dev.state ≠ .safe ∧ s.pwr.rewriting = false ∧ 1 ≤ st ∧ st ≤ 3 ∧ s.shedStage = st
      ∧ SMap.get 0 s.pwr.okFrom st ≠ 0 ∧ max (SMap.get 0 s.pwr.okFrom st) (s.pwr.dwellFrom + 1) + s.rdF Reg.pwrCfg 0 16 * 50000 ≤
      s.pwr.samples + 1 ∧ s.pwr.offLanes = [] ∧ s.host.waits = []) ∧
    (∃ (s : State) (st : Nat), s.powered = true ∧ s.dev.state ≠ .safe ∧ s.pwr.rewriting = false ∧ 1 ≤ st ∧ st ≤ 3 ∧ s.shedStage = st
      ∧ (SMap.get 0 s.pwr.okFrom st = 0 ∨ s.pwr.samples + 1 < max (SMap.get 0 s.pwr.okFrom st) (s.pwr.dwellFrom + 1) + s.rdF
      Reg.pwrCfg 0 16 * 50000)) ∧
    (∃ (s : State) (a : Async), s.hubOn = true ∧ s.pwr.rewriting = true ∧ (∀ k : Nat, k < 4 → (s.cx k).cores = []) ∧ s.host.waits =
      [] ∧ s.pwr.offLanes = [] ∧ bit (s.rd Reg.pwrStat) 17 = false ∧ s.host.async.filter (fun x => x.opcode == Op.resume && x.mask ==
      1) = [a]) ∧
    (∃ (s : State), s.hubOn = true ∧ s.shedStage = 0 ∧ s.tickId.toNat % 2 ^ s.rdF Reg.numCfg 0 5 = 0) :=
  ⟨⟨w0, by decide +kernel⟩,
   ⟨st261, 1, by decide +kernel, by decide +kernel, by decide +kernel, by decide +kernel, by decide +kernel, by decide +kernel,
     by decide +kernel, by decide +kernel, by decide +kernel, by decide +kernel⟩,
   ⟨st262, 3, by decide +kernel, by decide +kernel, by decide +kernel, by decide +kernel, by decide +kernel, by decide +kernel,
     by decide +kernel, by decide +kernel, by decide +kernel, by decide +kernel⟩,
   ⟨st263, 2, by decide +kernel, by decide +kernel, by decide +kernel, by decide +kernel, by decide +kernel, by decide +kernel,
     by decide +kernel, by decide +kernel, by decide +kernel, by decide +kernel⟩,
   ⟨st264, 3, by decide +kernel, by decide +kernel, by decide +kernel, by decide +kernel, by decide +kernel, by decide +kernel,
     by decide +kernel⟩,
   ⟨st265, ⟨.spi, 9, Op.resume, 1, 7⟩, by decide +kernel, by decide +kernel, by decide +kernel, by decide +kernel, by decide +kernel,
     by decide +kernel, by decide +kernel⟩,
   ⟨st266, by decide +kernel, by decide +kernel, by decide +kernel⟩⟩

theorem meets_StagesShedAndWindowsEnd_3 :
    (∃ (s : State), s.hubOn = true ∧ 1 ≤ s.shedStage ∧ s.tickId.toNat % 2 ^ s.rdF Reg.numCfg 0 5 = 0) ∧
    (∃ (s : State), s.hubOn = true ∧ s.tickId.toNat % 2 ^ s.rdF Reg.numCfg 0 5 ≠ 0) ∧
    (∃ (s : State), s.hubOn = true ∧ s.tickId.toNat % 2 ^ 20 = 0) ∧
    (∃ (s : State) (n : _), s.hubOn = true ∧ s.tickId.toNat % 2 ^ 20 = 0 ∧ 0 < n ∧ s.banks.eccWin = [n, 0, 0, 0]) ∧
    (∃ (s : State), s.hubOn = true ∧ s.tickId.toNat % 2 ^ 20 = 0 ∧ s.banks.eccWin = [0, 0, 0, 0] ∧ (∀ w ∈ s.windows, w.win =
      s.winIx)) ∧
    (∃ (s : State), s.hubOn = true ∧ s.tickId.toNat % 2 ^ 20 ≠ 0) :=
  ⟨⟨st267, by decide +kernel, by decide +kernel, by decide +kernel⟩,
   ⟨st268, by decide +kernel, by decide +kernel⟩,
   ⟨w0.wr Reg.tickId 0x100000, by decide +kernel, by decide +kernel⟩,
   ⟨st269, 3, by decide +kernel, by decide +kernel, by decide +kernel, by decide +kernel⟩,
   ⟨w0.wr Reg.tickId 0x100000, by decide +kernel, by decide +kernel, by decide +kernel, by decide +kernel⟩,
   ⟨w0.wr Reg.tickId 0xFFFFF, by decide +kernel, by decide +kernel⟩⟩


end Sys2Proof.Tests
end

/-! What one step can do (15 Commands and states, log 1, log 2): every command ends its step by `State.seal`, or stops. -/

namespace Sys2Proof.Machine

/-- Every command ends its step through `State.onUnit`, and only an event can name a unit that does not exist (log 2). -/
theorem exec_eq_onUnit (i : Instr) (s : State) :
    ∃ ok t, exec i s = s.onUnit ok t ∧ (i.packet ≠ none → ok = true) := by
  cases i with
  -- the packets of Table 15.10
  | sysNop | sysInfo | sysState | sysReset | regRead | regWrite | sigTable | tickConfig | tickIdSet | loadBegin
  | loadChunk | relocate | patch | commit | unload | loadInfo | arm | start | drain | stop | resume | laneConfig
  | laneTrain | lanePower | laneGroup | lanePrbs | laneInject | laneEye | linkPersonality | meshRoute | linkField
  | linkAggregate | feConfig | primConfig | primSet | clickConfig | clickCal | combConfig | condSet | trigEnable
  | busConfig | busCal | busComp | busAlign | busTxMap | acqConfig | acqArm | acqDisarm | chgConfig | acqStream
  | acqStats | timeSet | timeStep | timeInc | timeHoldover | ppsConfig | tsConfig | ptpConfig | timeFrame
  | timeFrameRead | twinConfig | admitPartner | twinStatus | twinHandover | twinDisable | pwrStatus | feedConfig
  | loopConfig | attest | ownerKey | fuseBlow | fwUpdateBegin | fwUpdateChunk | fwUpdateCommit | eventLogRead
  | sensorRead | coreRetire | coreReturn | selftest | debugRead | debugWrite | patRead | patWrite | patInsert
  | patDelete | patGenSwitch | patSync | patStats =>
    exact ⟨true, _, rfl, fun _ => rfl⟩
  -- events of the part as a whole
  | cmdTail | cmdCfg | rplCfg | fltCfg | rplHead | fltHead
  | irqStatus | pktWrite | rplRead | statRead | todLatch | tsTick | powerOn | resetN | perstN | hubWatchdog
  | refMeasure | pllLock | smbusBlockRead | tickStrobe | tickOutFall | tickInEdge | tickInWindowEnd | tickInLock
  | tickInLost | tickInPhaseTake | haltedEntry | resumeStrobe | flitWrite | creditReturn | contextArmed
  | contextStartStrobe | drainStrobe | contextRetirement | stopStrobe | contextFaulted | scarabHubStep | patRequest
  | patResult | commitWriteOut | commitValid | combinerPulse | triggerRecord | acqArmStrobe | acqDisarmStrobe
  | primSetStrobe | condSetStrobe | trigEnableStrobe | busSlotLaunch | busAlignDone | holdoverTimeout | timePllUnlock
  | timePllRelock | ppsOutRise | ppsOutFall | ppsInEdge | twinAttestation | attestAnswer | attestTimeout
  | attestRetry | digestSend | digestReceive | digestCompare | twinRelease | twinTakeover | partnerAbsent
  | feedSample | feedFaultClear | feedSwitch | feedReturn | shedStrongStrobe | shedS6 | resumeRewriteDone
  | coolantRange | clockUnlock | numWindowEnd | reportWindowEnd | lossOfPower | resetNHigh | attestDone
  | fuseBlowDone | fwUpdateCommitDone | selftestDone | jtagInstruction =>
    exact ⟨true, _, rfl, fun _ => rfl⟩
  -- events of a unit that the row names
  | windowBRead | windowBWrite | registerWrite | scCtrlClr | fbClr | reqPrio | strRd | injGo | wardenFwVerify
  | hubFwVerify | hubInitDone | droopStretch | stageGroupCompletion | deadlineExpiry | outputHandoff
  | escalationWindowEnd | firingStart | surveyOverrun | mov | ldv | stv | ldi | accclr | dot | outp | xadd | accout
  | vadd | vmul | vmax | vmin | vfma | vcmp | vsel | vcvt | vrsc | qpop | qpush | qfwd | sreq | sfuc | nop | loopOp
  | endOp | retirementThreshold | substCopy | substQuietTick | substSwitch | sfuCallStart | sfuResult | kvLoad
  | surveyDrainRetire | drainTimeout | scarabStep | passSwitch | reservedSlot | arbRequest | arbGrant
  | arbTransferEnd | scrubRead | scrubPassEnd | patGenFlip | trainingBlock | trainStepTimeout | trainBackoffEnd
  | autoRetry | blockReceive | lockHuntTimeout | alignmentMarker | markerSend | txPllUnlock | txPllRelock
  | lanePowerReturn | laneEyeDone | fecCodeword | eventHdr | trailer | fieldRelease | frameAbsent | ctrlCommand
  | ctrlReply | txIdle | ping | pong | timeHdr | fastTick | ack | nak | replayTimeout | readReq | readRsp | memWrite
  | writeAck | treadReq | treadRsp | treadRelease | outboundFrameSend | sampleEntry | clickEdge | clickCalDone
  | decisionDrive | decisionRelease | acqTrigger | acqCapture | segmentClose | acqRearm | acqBufferFree
  | changeSample | streamItemWrite | busSlotReceive | busCalDone | ptpRx | ptpTx | shedEnter | shedRestore | avsStep
  | signalDetect | adaptConverged | prbsCheckerLock | canaryFailure | patSyncDone =>
    exact ⟨_, _, rfl, fun h => absurd rfl h⟩

/-- A command that answers a next state has sealed it. -/
theorem exec_next (i : Instr) (s u : State) (h : exec i s = .next u) : ∃ t, u = s.seal t := by
  obtain ⟨ok, t, he, -⟩ := exec_eq_onUnit i s
  exact ⟨t, (State.onUnit_next s t u ok (he.symm.trans h)).2⟩

/-- A step answers the state it idles in, or a state that it has sealed. -/
theorem step_next (s u : State) (h : step s = .next u) : u = s ∨ ∃ r t, u = State.seal r t := by
  unfold step at h
  split at h
  · exact .inl (Host.Outcome.next.inj h).symm
  · next c rest _ => exact .inr ⟨_, exec_next c _ u h⟩

/-- Settles O3: sealing brings both maps back to their canonical form, and an idle step keeps the state. -/
theorem stepKeepsCanonicalForm : Obligations.StepKeepsCanonicalForm := by
  intro s u hs h
  obtain rfl | ⟨r, t, rfl⟩ := step_next s u h
  · exact hs
  · exact State.inv_seal r t

end Sys2Proof.Machine

/-! Registers read and written by commands (15 R406; 00 R8 to R10). -/

namespace Sys2Proof.Machine

/-! Reading. -/

/-- Taking a packet changes the host interface alone. -/
theorem State.take_eq_with_host (s : State) (h : Hdr) (op : Nat) : s.take h op = { s with host := (s.take h op).host } := by
  unfold State.take
  dsimp only
  split <;> split <;> rfl

/-- Of the host interface a register shows the count of outstanding commands alone (15 Table 15.7). -/
theorem State.shown_with_host (s : State) (x : HostIf) (a : Nat) (hx : x.async = s.host.async) :
    ({ s with host := x } : State).shown a = s.shown a := by
  have hlen : ({ s with host := x } : State).host.async.length = s.host.async.length := congrArg List.length hx
  unfold State.shown
  rw [hlen]
  rfl

@[simp] theorem State.shown_take (s : State) (h : Hdr) (op : Nat) : (s.take h op).shown = s.shown := by
  funext a
  rw [State.take_eq_with_host]
  exact State.shown_with_host s _ a (State.take_async s h op)

/-- A read of a register that does not latch the time changes nothing. -/
theorem State.readReg_plain (s : State) (a : Nat) (h1 : a ≠ Reg.todLatch) (h2 : a ≠ Reg.tsTick) :
    s.readReg a = (s.shown a, s) := by
  unfold State.readReg
  rw [if_neg h1, if_neg h2]

/-- Words of the control and status space read as what they show, and TOD_LATCH alone among them has a side effect. -/
theorem State.readWords_csr (s : State) (l : List Nat) (hl : ∀ a ∈ l, regionOf a = .csr) (hn : Reg.todLatch ∉ l) :
    s.readWords l = (l.map s.shown, s) := by
  induction l with
  | nil => rfl
  | cons a r ih =>
    obtain ⟨ha, hr⟩ := List.forall_mem_cons.1 hl
    obtain ⟨hna, hnr⟩ := not_or.1 (mt List.mem_cons.2 hn)
    have hts : a ≠ Reg.tsTick := by
      rintro rfl
      exact absurd ha (by decide)
    simp [State.readWords, ha, Region.isMem, State.readReg_plain s a (Ne.symm hna) hts, ih hr hnr]

theorem regionOf_of_csrRange {a n : Nat} (h : csrRange a n = true) : ∀ x ∈ wordAddrs a n, regionOf x = .csr := by
  unfold csrRange at h
  obtain ⟨-, h⟩ := Bool.and_eq_true_iff.1 h
  simpa using h

/-- The checks of REG_READ and REG_WRITE pass. -/
theorem orRej_count_csrRange {a n i : Nat} {r : Rej} (h1 : 1 ≤ n) (h2 : n ≤ 1024) (h : csrRange a n = true) :
    orRej (countRej n i) (unlessOk (csrRange a n) r) = none := by
  simp [orRej, countRej, unlessOk, h1, h2, h]

/-! Writing. -/

/-- Taking the masked bits away from a word leaves the bits outside the mask. -/
theorem sub_and_eq_and_not {w : Nat} (x m : BitVec w) : x - (x &&& m) = x &&& ~~~m := by
  have hdisj : (x &&& ~~~m) &&& (x &&& m) = 0#w := by
    ext i hi
    cases h : m[i] <;> simp [h]
  have hjoin : (x &&& ~~~m) ||| (x &&& m) = x := by
    ext i hi
    cases h : m[i] <;> simp [h]
  have hadd : (x &&& ~~~m) + (x &&& m) = x := by rw [BitVec.add_eq_or_of_and_eq_zero _ _ hdisj, hjoin]
  calc x - (x &&& m) = (x &&& ~~~m) + (x &&& m) - (x &&& m) := by rw [hadd]
    _ = x &&& ~~~m := BitVec.add_sub_cancel _ _

/-- A row of RW bits takes them from the written word and keeps the others (00 R8, R9). -/
theorem rwRow_write (base : Nat) (dims : List (Nat × Nat)) (reset : Nat) (m old v : W32) :
    (rwRow base dims reset m.toNat).write old v = (old &&& ~~~m) ||| (v &&& m) := by
  have hle : old &&& m ≤ old := BitVec.le_def.2 (by rw [BitVec.toNat_and]; exact Nat.and_le_left)
  have hnat : ((old - (old &&& m)) ||| (v &&& m)).toNat =
      (old.toNat - (old.toNat &&& m.toNat)) ||| (v.toNat &&& m.toNat) := by
    rw [BitVec.toNat_or, BitVec.toNat_sub_of_le hle, BitVec.toNat_and, BitVec.toNat_and]
  have hw : (rwRow base dims reset m.toNat).write old v =
      BitVec.ofNat 32 ((old.toNat - (old.toNat &&& m.toNat)) ||| (v.toNat &&& m.toNat)) := by
    simp [RegRow.write, rwRow, Nat.land_eq]
  rw [hw, ← hnat, BitVec.ofNat_toNat, BitVec.setWidth_eq, sub_and_eq_and_not]

/-- A register without a behaviour of its own whose row has the RW bits `m` alone, among the words of the control and status space below
the scrub registers (00 R8, R9). -/
structure PlainReg (a : Nat) (m : W32) : Prop where
  region : regionOf a = .csr
  aligned : a % 4 = 0
  lo : Reg.csr ≤ a
  hi : a < Reg.csr + 0x5000
  row : ∃ base dims reset, regRow a = some (rwRow base dims reset m.toNat)

/-- The plain registers of REG_WRITE: NUM_CFG, the IN-BAND masks and DRAIN_TO (00 Table 0.3; 15 R398). -/
theorem plainReg_of_listed {a : Nat} {m : W32}
    (h : (a = Reg.numCfg ∧ m = 0x8000001F) ∨ (a = Reg.csr + 0x100 ∧ m = 0xFFFFFFFF) ∨ (a = Reg.csr + 0x104 ∧ m = 0xFFFFFFFF) ∨
      (∃ k, k < 4 ∧ a = Reg.ctxrDrainTo k ∧ m = 0x1F)) : PlainReg a m := by
  obtain ⟨rfl, rfl⟩ | ⟨rfl, rfl⟩ | ⟨rfl, rfl⟩ | ⟨k, hk, rfl, rfl⟩ := h
  · exact ⟨by decide, by decide, by decide, by decide, _, _, _, rfl⟩
  · exact ⟨by decide, by decide, by decide, by decide, _, _, _, rfl⟩
  · exact ⟨by decide, by decide, by decide, by decide, _, _, _, rfl⟩
  · match k, hk with
    | 0, _ | 1, _ | 2, _ | 3, _ => exact ⟨by decide, by decide, by decide, by decide, _, _, _, rfl⟩

/-- Below the scrub registers no word of the control and status space acts on a write. -/
theorem State.writeReg_eq_plainWrite (s : State) (a : Nat) (v : W32) (lo : Reg.csr ≤ a) (hi : a < Reg.csr + 0x5000) :
    s.writeReg a v = s.plainWrite a v := by
  have hcsr : Reg.csr = 0x300000000 := rfl
  have hwa : Reg.wa = 0x1000000000000 := rfl
  unfold State.writeReg
  dsimp only
  rw [if_neg (by omega), if_neg (by omega), if_neg (by omega), if_neg (by omega), if_neg (by omega), if_neg (by omega),
    if_neg (by omega)]

section
variable {a : Nat} {m : W32} (p : PlainReg a m)
include p

/-- A write of a plain register puts its RW bits. -/
theorem PlainReg.writeReg_eq (s : State) (v : W32) : s.writeReg a v = s.wr a ((s.rd a &&& ~~~m) ||| (v &&& m)) := by
  obtain ⟨base, dims, reset, hrow⟩ := p.row
  rw [State.writeReg_eq_plainWrite s a v p.lo p.hi]
  simp only [State.plainWrite, hrow, rwRow_write]

theorem PlainReg.writeWords_eq (s : State) (v : W32) :
    s.writeWords a [v] = s.wr a ((s.rd a &&& ~~~m) ||| (v &&& m)) := by
  simp [State.writeWords, State.writeEach, p.region, Region.isMem, p.writeReg_eq]

theorem PlainReg.csrRange : csrRange a 1 = true := by
  simp [Machine.csrRange, wordAddrs, p.region, p.aligned]

/-- It lies outside Window A. -/
theorem PlainReg.not_mem_replyRegs : a ∉ replyRegs := by
  have := p.hi
  simp only [replyRegs, Reg.rplTail, Reg.irqStatus, Reg.csr, List.mem_cons, List.not_mem_nil, or_false] at *
  omega

theorem PlainReg.ne_irqStatus : a ≠ Reg.irqStatus := fun h => p.not_mem_replyRegs (by simp [h, replyRegs])

end

/-! The commands. -/

/-- REG_READ replies the words in order and changes nothing (15 R406). -/
theorem execRegRead_done (s : State) (h : Hdr) (addr n : Nat) (hr : s.ready h Op.regRead = true) (h1 : 1 ≤ n) (h2 : n ≤ 1024)
    (hc : csrRange addr n = true) (hn : Reg.todLatch ∉ wordAddrs addr n) :
    ∃ t, exec (.regRead h addr n) s = .next t ∧ Answered s t h Op.regRead ((wordAddrs addr n).map s.shown) ∧ Frame s t [] [] := by
  have hread := State.readWords_csr (s.take h Op.regRead) (wordAddrs addr n) (regionOf_of_csrRange hc) hn
  obtain ⟨t, ht, -, ha, hf⟩ := State.sync_done s h Op.regRead
    (fun _ => orRej (countRej n 2) (unlessOk (csrRange addr n) (rej Status.addrInvalid 0 0)))
    (fun s => { st := (s.readWords (wordAddrs addr n)).2, out := (s.readWords (wordAddrs addr n)).1 }) [] []
    hr rfl rfl (orRej_count_csrRange h1 h2 hc) (by rw [hread]; exact Frame.refl _) (by rw [hread]; exact State.take_outbox s h _ _)
    rfl rfl
  simp only [hread, State.shown_take] at ha
  exact ⟨t, ht, ha, hf⟩

/-- REG_WRITE of one word puts the RW bits of a plain register (15 R406). -/
theorem execRegWrite_plain {a : Nat} {m : W32} (p : PlainReg a m) (s : State) (h : Hdr) (v : W32)
    (hr : s.ready h Op.regWrite = true) :
    ∃ t, exec (.regWrite h a [v]) s = .next t ∧ t.rd a = (s.rd a &&& ~~~m) ||| (v &&& m) ∧ Answered s t h Op.regWrite [] ∧
      Frame s t [a] [] := by
  have hw := p.writeWords_eq (s.take h Op.regWrite) v
  obtain ⟨t, ht, htq, ha, hf⟩ := State.sync_done s h Op.regWrite
    (fun _ => orRej (countRej 1 2) (unlessOk (csrRange a 1) (rej Status.addrInvalid 0 0)))
    (fun s => { st := s.writeWords a [v] }) [a] []
    hr rfl rfl (orRej_count_csrRange (n := 1) (Nat.le_refl 1) (by decide) p.csrRange) (by rw [hw]; exact State.frame_wr _ _ _)
    (by rw [hw]; exact State.take_outbox s h _ _) rfl rfl
  refine ⟨t, ht, ?_, ha, hf⟩
  rw [htq, State.rd_seal _ _ _ p.ne_irqStatus, State.rd_respond _ _ _ _ _ p.not_mem_replyRegs, hw, State.rd_wr_same, State.rd_take]

/-- REGISTER_WRITE puts the RW bits of a plain register (00 R8). -/
theorem execRegisterWrite_plain {a : Nat} {m : W32} (p : PlainReg a m) (s : State) (v : W32) (hon : s.hubOn = true) :
    ∃ t, exec (.registerWrite a v) s = .next t ∧ t.rd a = (s.rd a &&& ~~~m) ||| (v &&& m) ∧ Frame s t [a] [] := by
  obtain ⟨base, dims, reset, hrow⟩ := p.row
  have he : exec (.registerWrite a v) s = .next (s.seal (s.wr a ((s.rd a &&& ~~~m) ||| (v &&& m)))) := by
    show s.onUnit (regRow a).isSome (if s.hubOn then s.writeReg a v else s) = _
    rw [hrow, if_pos hon, p.writeReg_eq]
    rfl
  refine ⟨_, he, ?_, ?_⟩
  · rw [State.rd_seal _ _ _ p.ne_irqStatus, State.rd_wr_same]
  · exact (State.frame_wr s a _).trans (State.frame_seal s _)

/-- Settles O8: a read leaves the state as it is, and a plain register's row has RW bits alone. -/
theorem registerReadsAndWrites : Obligations.RegisterReadsAndWrites :=
  ⟨execRegRead_done, fun _ _ hp =>
    have p := plainReg_of_listed hp
    ⟨execRegWrite_plain p, execRegisterWrite_plain p⟩⟩

end Sys2Proof.Machine

/-! What the transmit path of a group reads and changes (11 R293, R312, R313). -/

namespace Sys2Proof.Machine

/-- The state with another host interface and another link. -/
def State.withLink (s : State) (x : HostIf) (l : LinkSt) : State := { s with host := x, link := l }

theorem State.withLink_ite (s : State) (x : HostIf) (c : Prop) [Decidable c] (t u : State) :
    s.withLink x (if c then t else u).link = if c then s.withLink x t.link else s.withLink x u.link := by
  split <;> rfl

/-- An operation that changes the link alone, and of the host interface depends on the in-band replies alone. -/
def LinkOnly (F : State → State) : Prop :=
  ∀ (s : State) (x : HostIf), x.inbandReplies = s.host.inbandReplies → F (s.withLink x s.link) = s.withLink x (F s).link

theorem LinkOnly.eq_withLink {F : State → State} (hF : LinkOnly F) (s : State) : F s = s.withLink s.host (F s).link :=
  hF s s.host rfl

theorem LinkOnly.host {F : State → State} (hF : LinkOnly F) (s : State) : (F s).host = s.host := by
  rw [hF.eq_withLink s]
  rfl

theorem LinkOnly.comp {F G : State → State} (hG : LinkOnly G) (hF : LinkOnly F) : LinkOnly (fun s => G (F s)) := by
  intro s x hx
  have h : G (s.withLink x (F s).link) = s.withLink x (G (s.withLink s.host (F s).link)).link :=
    hG (s.withLink s.host (F s).link) x hx
  rw [← hF.eq_withLink s] at h
  exact (congrArg G (hF s x hx)).trans h

theorem LinkOnly.foldl {α : Type} {F : α → State → State} (hF : ∀ a, LinkOnly (F a)) (l : List α) :
    LinkOnly (fun s => l.foldl (fun t a => F a t) s) := by
  induction l with
  | nil => exact fun _ _ _ => rfl
  | cons a r ih => exact ih.comp (hF a)

theorem linkOnly_mapLane (n : Nat) (f : LaneSt → LaneSt) : LinkOnly (fun s => s.mapLane n f) := fun _ _ _ => rfl

theorem linkOnly_setGrp (g : Nat) (y : GroupSt) : LinkOnly (fun s => s.setGrp g y) := fun _ _ _ => rfl

theorem linkOnly_putBlock (n sync : Nat) (w : W64) (shown : Bool) : LinkOnly (fun s => s.putBlock n sync w shown) := by
  intro s x _
  unfold State.putBlock
  simp only [State.withLink_ite]
  rfl

theorem linkOnly_putCoded (n sync : Nat) (w : W64) (shown : Bool) : LinkOnly (fun s => s.putCoded n sync w shown) :=
  fun s x hx => (linkOnly_putBlock _ _ _ _).comp (linkOnly_mapLane _ _) s x hx

theorem linkOnly_setBlocks (l : List (Nat × W64)) : LinkOnly (fun s => { s with link.blocks := l }) := fun _ _ _ => rfl

theorem linkOnly_putMarker (n : Nat) : LinkOnly (fun s => s.putMarker n) :=
  fun s x hx => (linkOnly_setBlocks (s.link.blocks ++ [(n, s.markerWord n)])).comp
    ((linkOnly_putBlock n 2 (s.markerWord n) true).comp
      (linkOnly_mapLane n (fun l => { l with txSeq := (l.txSeq + 1) % 256, txBip := 0, txMark := some l.txNext }))) s x hx

theorem putPosition_withLink (s : State) (x : HostIf) (hx : x.inbandReplies = s.host.inbandReplies) (ls : List Nat)
    (parity reserved : Bool) (p : Nat) (y : GroupSt) :
    (s.withLink x s.link).putPosition ls parity reserved p y =
      (s.withLink x (s.putPosition ls parity reserved p y).1.link, (s.putPosition ls parity reserved p y).2) := by
  unfold State.putPosition
  dsimp only
  cases y.take p reserved with
  | mk b z =>
    cases b with
    | some b =>
      exact Prod.ext (LinkOnly.foldl
        (F := fun (e : Nat × Nat) t => t.putCoded e.1 b.sync (laneWord ls.length parity b e.2) true)
        (fun _ => linkOnly_putCoded _ _ _ _) _ s x hx) rfl
    | none =>
      dsimp only
      by_cases hm : y.markDue = true
      · rw [if_pos hm, if_pos hm]
        exact Prod.ext (LinkOnly.foldl (F := fun (e : Nat × Nat) t => t.putMarker e.1) (fun _ => linkOnly_putMarker _) _ s x hx) rfl
      · rw [if_neg hm, if_neg hm]
        exact Prod.ext (LinkOnly.foldl (F := fun (e : Nat × Nat) t => t.putCoded e.1 2 0x1E false)
          (fun _ => linkOnly_putCoded _ _ _ _) _ s x hx) rfl

theorem linkOnly_putPosition (ls : List Nat) (parity reserved : Bool) (p : Nat) (y : GroupSt) :
    LinkOnly (fun s => (s.putPosition ls parity reserved p y).1) :=
  fun s x hx => congrArg Prod.fst (putPosition_withLink s x hx ls parity reserved p y)

theorem txRun_withLink (ls : List Nat) (parity : Bool) (res : Nat → Bool) (k : Nat) :
    ∀ (s : State) (x : HostIf) (y : GroupSt), x.inbandReplies = s.host.inbandReplies →
      State.txRun ls parity res k (s.withLink x s.link, y) =
        (s.withLink x (State.txRun ls parity res k (s, y)).1.link, (State.txRun ls parity res k (s, y)).2) := by
  induction k with
  | zero => exact fun _ _ _ _ => rfl
  | succ k ih =>
    intro s x y hx
    have hp : (s.withLink x s.link).txPos ls = s.txPos ls := rfl
    unfold State.txRun
    dsimp only
    rw [hp]
    cases s.txPos ls with
    | none => rfl
    | some p =>
      have hl := (linkOnly_putPosition ls parity (res p) p y).eq_withLink s
      have h := ih (s.putPosition ls parity (res p) p y).1 x (s.putPosition ls parity (res p) p y).2 (by rw [hl]; exact hx)
      dsimp only
      rw [putPosition_withLink s x hx]
      generalize State.txRun ls parity res k (s.putPosition ls parity (res p) p y) = r at *
      rw [hl] at h
      exact h

theorem linkOnly_txAdvance (g : Nat) : LinkOnly (fun s => s.txAdvance g) := by
  intro s x hx
  have hp : (s.withLink x s.link).txPos ((s.withLink x s.link).grpLanes g) = s.txPos (s.grpLanes g) := rfl
  have hr := txRun_withLink (s.grpLanes g) (s.grpParity g) (s.reservedPos g) (s.txLag (s.grpLanes g)) s x (s.grpSt g) hx
  unfold State.txAdvance
  simp only [State.withLink_ite, hp]
  split
  · rfl
  · exact congrArg (fun r : State × GroupSt => r.1.setGrp g r.2) hr

theorem linkOnly_queueFrame (f : TxFrame) : LinkOnly (fun s => s.queueFrame f) := fun _ _ _ => rfl

theorem linkOnly_queueS (f : TxFrame) : LinkOnly (fun s => s.queueS f) := by
  intro s x _
  unfold State.queueS
  simp only [State.withLink_ite]
  rfl

theorem linkOnly_queueWaits (g : Nat) : LinkOnly (fun s => s.queueWaits g) :=
  fun s x hx => (LinkOnly.foldl linkOnly_queueS _).comp (linkOnly_setGrp g _) s x hx

/-- An in-band reply handed to its group as a REPLY frame (15 R398). -/
theorem linkOnly_queueReply (g : Nat) (e : Nat × Nat × Reply) :
    LinkOnly (fun s => s.queueS (s.ctrlFrame g e.2.1 1 (e.2.2.words.flatMap (fun (w : W32) => bytesLE 4 w.toNat)))) :=
  fun s x hx => linkOnly_queueS _ s x hx

theorem linkOnly_pumpReplies (g : Nat) : LinkOnly (fun s => s.pumpReplies g) := by
  intro s x hx
  have hrs : (s.withLink x s.link).host.inbandReplies = s.host.inbandReplies := hx
  have hgrp : (s.withLink x s.link).grpSt g = s.grpSt g := rfl
  unfold State.pumpReplies
  dsimp only
  rw [hrs, hgrp]
  exact (LinkOnly.foldl (linkOnly_queueReply g) _).comp (linkOnly_setGrp g _) s x hx

theorem linkOnly_settleTx (g : Nat) : LinkOnly (fun s => s.settleTx g) :=
  (linkOnly_txAdvance g).comp ((linkOnly_pumpReplies g).comp ((linkOnly_queueWaits g).comp (linkOnly_txAdvance g)))

theorem linkOnly_sendFrame (f : TxFrame) : LinkOnly (fun s => s.sendFrame f) :=
  (linkOnly_txAdvance f.group).comp ((linkOnly_queueFrame f).comp (linkOnly_settleTx f.group))

/-! What the line of a group takes from what waits: no frame is listed again, and neither class S nor the replies move. -/

/-- From `a` to `b` the frames listed as sent, the class-S frames that wait and the count of replies sent are the same. -/
def TxKeeps (a b : State × GroupSt) : Prop :=
  b.1.link.sent = a.1.link.sent ∧ b.2.waits = a.2.waits ∧ b.2.repSent = a.2.repSent

theorem TxKeeps.trans {a b c : State × GroupSt} (h1 : TxKeeps a b) (h2 : TxKeeps b c) : TxKeeps a c :=
  ⟨h2.1.trans h1.1, h2.2.1.trans h1.2.1, h2.2.2.trans h1.2.2⟩

@[simp] theorem State.grpSt_setGrp_same (s : State) (g : Nat) (y : GroupSt) : (s.setGrp g y).grpSt g = y :=
  SMap.get_set_same _ _ _ _

@[simp] theorem State.setGrp_sent (s : State) (g : Nat) (y : GroupSt) : (s.setGrp g y).link.sent = s.link.sent := rfl

@[simp] theorem State.putBlock_sent (s : State) (n sync : Nat) (w : W64) (shown : Bool) :
    (s.putBlock n sync w shown).link.sent = s.link.sent := by
  unfold State.putBlock
  dsimp only
  split <;> split
  · rfl
  · rfl
  · rfl
  · split <;> rfl

@[simp] theorem State.putCoded_sent (s : State) (n sync : Nat) (w : W64) (shown : Bool) :
    (s.putCoded n sync w shown).link.sent = s.link.sent := State.putBlock_sent _ _ _ _ _

@[simp] theorem State.putMarker_sent (s : State) (n : Nat) : (s.putMarker n).link.sent = s.link.sent :=
  State.putBlock_sent _ _ _ _ _

/-- A run of operations none of which sends a frame sends none. -/
theorem foldl_sent {α : Type} {F : State → α → State} (hF : ∀ s a, (F s a).link.sent = s.link.sent) (l : List α) (s : State) :
    (l.foldl F s).link.sent = s.link.sent := by
  induction l generalizing s with
  | nil => rfl
  | cons a r ih => exact (ih (F s a)).trans (hF s a)

theorem GroupSt.take_keeps (y : GroupSt) (p : Nat) (reserved : Bool) :
    (y.take p reserved).2.waits = y.waits ∧ (y.take p reserved).2.repSent = y.repSent := by
  unfold GroupSt.take
  dsimp only
  split
  · exact ⟨rfl, rfl⟩
  · split
    · exact ⟨rfl, rfl⟩
    · split <;> exact ⟨rfl, rfl⟩

theorem putPosition_keeps (s : State) (ls : List Nat) (parity reserved : Bool) (p : Nat) (y : GroupSt) :
    TxKeeps (s, y) (s.putPosition ls parity reserved p y) := by
  have hy := y.take_keeps p reserved
  unfold State.putPosition
  dsimp only
  cases ht : y.take p reserved with
  | mk b z =>
    rw [ht] at hy
    cases b with
    | some b => exact ⟨foldl_sent (fun _ _ => State.putCoded_sent _ _ _ _ _) _ _, hy⟩
    | none =>
      dsimp only
      split
      · exact ⟨foldl_sent (fun _ _ => State.putMarker_sent _ _) _ _, hy⟩
      · exact ⟨foldl_sent (fun _ _ => State.putCoded_sent _ _ _ _ _) _ _, hy⟩

theorem txRun_keeps (ls : List Nat) (parity : Bool) (res : Nat → Bool) (k : Nat) (a : State × GroupSt) :
    TxKeeps a (State.txRun ls parity res k a) := by
  induction k generalizing a with
  | zero => exact ⟨rfl, rfl, rfl⟩
  | succ k ih =>
    unfold State.txRun
    split
    · exact (putPosition_keeps a.1 ls parity _ _ a.2).trans (ih _)
    · exact ⟨rfl, rfl, rfl⟩

theorem txAdvance_keeps (s : State) (g : Nat) : TxKeeps (s, s.grpSt g) (s.txAdvance g, (s.txAdvance g).grpSt g) := by
  unfold State.txAdvance
  dsimp only
  split
  · rw [State.grpSt_setGrp_same]
    exact ⟨rfl, rfl, rfl⟩
  · rw [State.grpSt_setGrp_same]
    exact txRun_keeps _ _ _ _ (s, s.grpSt g)

/-! What a settled group has sent. -/

theorem txAdvance_sent (s : State) (g : Nat) : (s.txAdvance g).link.sent = s.link.sent := (txAdvance_keeps s g).1

theorem queueS_sent (s : State) (f : TxFrame) : s.link.sent <+: (s.queueS f).link.sent := by
  unfold State.queueS
  dsimp only
  split
  · exact List.prefix_rfl
  · split
    · exact List.prefix_rfl
    · exact List.prefix_append _ _

theorem foldl_sent_prefix {α : Type} {F : State → α → State} (hF : ∀ s a, s.link.sent <+: (F s a).link.sent) (l : List α)
    (s : State) : s.link.sent <+: (l.foldl F s).link.sent := by
  induction l generalizing s with
  | nil => exact List.prefix_rfl
  | cons a r ih => exact (hF s a).trans (ih (F s a))

/-- Bringing a group up to date may send frames that waited, after those sent before. -/
theorem settleTx_sent (s : State) (g : Nat) : s.link.sent <+: (s.settleTx g).link.sent := by
  have hw (u : State) : u.link.sent <+: (u.queueWaits g).link.sent :=
    foldl_sent_prefix queueS_sent _ (u.setGrp g { u.grpSt g with waits := [] })
  have hr (u : State) : u.link.sent <+: (u.pumpReplies g).link.sent :=
    foldl_sent_prefix (fun t _ => queueS_sent t _) _ (u.setGrp g _)
  unfold State.settleTx
  rw [txAdvance_sent]
  have h := (hw (s.txAdvance g)).trans (hr _)
  rwa [txAdvance_sent] at h

theorem txClear_txAdvance {s : State} {g : Nat} (h : s.txClear g) : (s.txAdvance g).txClear g := by
  obtain ⟨hw, hr⟩ := h
  obtain ⟨-, kw, kr⟩ := txAdvance_keeps s g
  have hh : (s.txAdvance g).host = s.host := (linkOnly_txAdvance g).host s
  exact ⟨kw.trans hw, by rw [hh]; exact Nat.le_trans hr (Nat.le_of_eq kr.symm)⟩

theorem queueWaits_of_txClear {s : State} {g : Nat} (h : s.txClear g) : s.queueWaits g = s.setGrp g { s.grpSt g with waits := [] } := by
  unfold State.queueWaits
  rw [h.1]
  rfl

theorem txClear_queueWaits {s : State} {g : Nat} (h : s.txClear g) : (s.queueWaits g).txClear g := by
  rw [queueWaits_of_txClear h]
  unfold State.txClear
  rw [State.grpSt_setGrp_same]
  exact ⟨rfl, h.2⟩

theorem pumpReplies_of_txClear {s : State} {g : Nat} (h : s.txClear g) : s.pumpReplies g =
    s.setGrp g { s.grpSt g with repSent := (s.host.inbandReplies.filter (fun e => e.1 == g)).length } := by
  unfold State.pumpReplies
  dsimp only
  rw [List.drop_eq_nil_of_le h.2]
  rfl

theorem txClear_pumpReplies {s : State} {g : Nat} (h : s.txClear g) : (s.pumpReplies g).txClear g := by
  rw [pumpReplies_of_txClear h]
  unfold State.txClear
  rw [State.grpSt_setGrp_same]
  exact ⟨h.1, Nat.le_refl _⟩

/-- Where nothing waits, bringing the group up to date sends nothing, and nothing waits after it. -/
theorem settleTx_of_txClear {s : State} {g : Nat} (h : s.txClear g) :
    (s.settleTx g).link.sent = s.link.sent ∧ (s.settleTx g).txClear g := by
  have h1 := txClear_txAdvance h
  have h2 := txClear_queueWaits h1
  refine ⟨?_, txClear_txAdvance (txClear_pumpReplies h2)⟩
  unfold State.settleTx
  rw [txAdvance_sent, pumpReplies_of_txClear h2, State.setGrp_sent, queueWaits_of_txClear h1, State.setGrp_sent, txAdvance_sent]

/-- A frame handed to a group is listed last, after those that waited. -/
theorem sendFrame_sent (s : State) (f : TxFrame) : (s.sendFrame f).link.sent = (s.settleTx f.group).link.sent ++ [f] := by
  unfold State.sendFrame
  rw [txAdvance_sent]
  rfl

/-! From the packet taken to the state before it. -/

theorem State.take_inbandReplies (s : State) (h : Hdr) (op : Nat) : (s.take h op).host.inbandReplies = s.host.inbandReplies := by
  unfold State.take
  dsimp only
  split <;> split <;> rfl

theorem LinkOnly.take {F : State → State} (hF : LinkOnly F) (s : State) (h : Hdr) (op : Nat) :
    F (s.take h op) = s.withLink (s.take h op).host (F s).link := by
  have ht : s.take h op = s.withLink (s.take h op).host s.link := State.take_eq_with_host s h op
  have := hF s (s.take h op).host (s.take_inbandReplies h op)
  rwa [← ht] at this

theorem LinkOnly.frame {F : State → State} (hF : LinkOnly F) (s : State) : Frame s (F s) [] [.link] := by
  rw [hF.eq_withLink s]
  exact ⟨fun _ _ => rfl, fun _ => rfl, fun p hp => by cases p <;> simp [Part.Same, State.withLink] at hp ⊢⟩

theorem LinkOnly.outbox {F : State → State} (hF : LinkOnly F) (s : State) (tr : Transport) : (F s).outbox tr = s.outbox tr := by
  rw [hF.eq_withLink s]
  cases tr <;> rfl

/-- The time at the pins does not depend on the packets that wait. -/
theorem pinTime_settleTx_take (s : State) (h : Hdr) (op g : Nat) : ((s.take h op).settleTx g).pinTime g = (s.settleTx g).pinTime g := by
  have hs : s.settleTx g = s.withLink s.host (s.settleTx g).link := (linkOnly_settleTx g).eq_withLink s
  have ht : (s.take h op).settleTx g = s.withLink (s.take h op).host (s.settleTx g).link := (linkOnly_settleTx g).take s h op
  rw [ht, hs]
  rfl

end Sys2Proof.Machine

/-! Registers written by the commands of the link (11 Tables 11.3, 11.11, 11.12). -/

namespace Sys2Proof.Machine

/-- No register of the map below Window A is one that a reply may change. -/
theorem not_mem_replyRegs_of_lt {a : Nat} (h : a < Reg.wa) : a ∉ replyRegs := by
  have hwa : Reg.wa = 0x1000000000000 := rfl
  simp only [replyRegs, Reg.rplTail, Reg.irqStatus, List.mem_cons, List.not_mem_nil, or_false]
  omega

/-- The answer and the end of the step leave the registers outside Window A as the command's effect left them. -/
theorem State.rd_seal_respond {s u t : State} {h : Hdr} {op : Nat} {out : List W32} (ht : t = s.seal (u.respond h op out)) {a : Nat}
    (ha : a < Reg.wa) : t.rd a = u.rd a := by
  have hn := not_mem_replyRegs_of_lt ha
  rw [ht, State.rd_seal _ _ _ (fun e => hn (by simp [e, replyRegs])), State.rd_respond _ _ _ _ _ hn]

theorem State.frame_wrs (s : State) (l : List (Nat × W32)) : Frame s (s.wrs l) (l.map (·.1)) [] := by
  unfold State.wrs
  induction l generalizing s with
  | nil => exact Frame.refl s
  | cons e r ih => exact (State.frame_wr s e.1 e.2).trans (ih (s.wr e.1 e.2))

@[simp] theorem State.wrs_outbox (s : State) (l : List (Nat × W32)) (tr : Transport) : (s.wrs l).outbox tr = s.outbox tr := by
  unfold State.wrs
  induction l generalizing s with
  | nil => rfl
  | cons e r ih => exact (ih (s.wr e.1 e.2)).trans (by cases tr <;> rfl)

/-- A route as MESH_ROUTE writes it shows its VALID and its group (11 Table 11.11). -/
theorem routeWord_fields (v : Bool) {grp : Nat} (h : grp < 64) :
    bit (BitVec.ofNat 32 ((if v then 2 ^ 31 else 0) + grp)) 31 = v ∧
      fld (BitVec.ofNat 32 ((if v then 2 ^ 31 else 0) + grp)) 0 6 = grp := by
  cases v <;> simp [bit, fld, BitVec.toNat_ofNat, Nat.shiftRight_eq_div_pow] <;> omega

/-! Entries of two registers. -/

theorem extract_halves_toNat (w : W64) : (w.extractLsb' 0 32).toNat + (w.extractLsb' 32 32).toNat * 2 ^ 32 = w.toNat := by
  have := w.isLt
  simp only [BitVec.extractLsb'_toNat, Nat.shiftRight_eq_div_pow]
  omega

theorem State.rd_wr64_other (s : State) (a b : Nat) (w : W64) (h : b ≠ a ∧ b ≠ a + 4) : (s.wr64 a w).rd b = s.rd b := by
  unfold State.wr64
  rw [State.rd_wr_other _ _ _ _ h.2, State.rd_wr_other _ _ _ _ h.1]

/-- An entry reads as the number that was written. -/
theorem State.rd_wr64_same (s : State) (a : Nat) (w : W64) :
    ((s.wr64 a w).rd a).toNat + ((s.wr64 a w).rd (a + 4)).toNat * 2 ^ 32 = w.toNat := by
  unfold State.wr64
  rw [State.rd_wr_same, State.rd_wr_other _ _ _ _ (by omega), State.rd_wr_same]
  exact extract_halves_toNat w

theorem State.frame_wr64 (s : State) (a : Nat) (w : W64) : Frame s (s.wr64 a w) [a, a + 4] [] :=
  (State.frame_wr s a _).trans (State.frame_wr _ (a + 4) _)

/-- The first `k` items of an outbound stream written, those not named as 0 (11 R307). -/
def State.wrItems (s : State) (st : Nat) (items : List W64) (k : Nat) : State :=
  (List.range k).foldl (fun t i => t.wr64 (Reg.outItem st i) (items.getD i 0)) s

theorem State.wrItems_succ (s : State) (st : Nat) (items : List W64) (k : Nat) :
    s.wrItems st items (k + 1) = (s.wrItems st items k).wr64 (Reg.outItem st k) (items.getD k 0) := by
  simp [State.wrItems, List.range_succ]

theorem State.frame_wrItems (s : State) (st : Nat) (items : List W64) (k : Nat) :
    Frame s (s.wrItems st items k) ((List.range k).flatMap (fun i => [Reg.outItem st i, Reg.outItem st i + 4])) [] := by
  induction k with
  | zero => exact Frame.refl s
  | succ k ih =>
    rw [State.wrItems_succ, List.range_succ, List.flatMap_append]
    exact ih.trans (State.frame_wr64 _ _ _)

theorem State.wrItems_outbox (s : State) (st : Nat) (items : List W64) (k : Nat) (tr : Transport) :
    (s.wrItems st items k).outbox tr = s.outbox tr := by
  induction k with
  | zero => rfl
  | succ k ih =>
    rw [State.wrItems_succ]
    exact Eq.trans (by cases tr <;> rfl) ih

theorem State.outItemW_wrItems (s : State) (st : Nat) (items : List W64) (k i : Nat) (hi : i < k) :
    (s.wrItems st items k).outItemW st i = (items.getD i 0).toNat := by
  induction k with
  | zero => omega
  | succ k ih =>
    rw [State.wrItems_succ]
    unfold State.outItemW at ih ⊢
    by_cases h : i = k
    · rw [h]
      exact State.rd_wr64_same _ _ _
    · rw [State.rd_wr64_other _ _ _ _ (by unfold Reg.outItem; omega), State.rd_wr64_other _ _ _ _ (by unfold Reg.outItem; omega)]
      exact ih (by omega)

/-- The items of a stream lie below the entries of the streams. -/
theorem State.outEntry_wrItems (s : State) (st st' : Nat) (items : List W64) (h : st < 64) (k : Nat) (hk : k ≤ 64) :
    (s.wrItems st items k).outEntry st' = s.outEntry st' := by
  induction k with
  | zero => rfl
  | succ k ih =>
    rw [← ih (by omega), State.wrItems_succ]
    unfold State.outEntry
    rw [State.rd_wr64_other _ _ _ _ (by unfold Reg.outItem Reg.outStream; omega),
      State.rd_wr64_other _ _ _ _ (by unfold Reg.outItem Reg.outStream; omega)]

/-! The checks read registers and the device alone. -/

theorem State.mayTakeIn_take (s : State) (h : Hdr) (op g : Nat) : (s.take h op).mayTakeIn g = s.mayTakeIn g := by
  rw [State.take_eq_with_host]
  rfl

theorem State.firstField_take (s : State) (h : Hdr) (op g st : Nat) : (s.take h op).firstField g st = s.firstField g st := by
  rw [State.take_eq_with_host]
  rfl

theorem State.inboundGrp_take (s : State) (h : Hdr) (op g : Nat) : (s.take h op).inboundGrp g = s.inboundGrp g := by
  rw [State.take_eq_with_host]
  rfl

theorem State.itemsLag_take (s : State) (h : Hdr) (op : Nat) (ws : List Nat) : (s.take h op).itemsLag ws = s.itemsLag ws := by
  rw [State.take_eq_with_host]
  rfl

theorem State.rowBytes_take (s : State) (h : Hdr) (op g : Nat) : (s.take h op).rowBytes g = s.rowBytes g := by
  rw [State.take_eq_with_host]
  rfl

theorem State.expected_take (s : State) (h : Hdr) (op g st : Nat) : (s.take h op).expected g st = s.expected g st := by
  unfold State.expected
  rw [State.firstField_take, State.take_eq_with_host]
  cases s.firstField g st <;> rfl

theorem State.itemDelivery_take (s : State) (h : Hdr) (op lag w : Nat) : (s.take h op).itemDelivery lag w = s.itemDelivery lag w := by
  unfold State.itemDelivery
  dsimp only
  rw [State.expected_take, State.take_eq_with_host]
  cases s.expected (wbits w 55 6) (wbits w 47 8) <;> rfl

theorem State.aggregateRej_take (s : State) (h : Hdr) (op st : Nat) (entry : W64) (items : List W64) :
    (s.take h op).aggregateRej st entry items = s.aggregateRej st entry items := by
  unfold State.aggregateRej
  simp only [State.itemDelivery_take, State.mayTakeIn_take, State.itemsLag_take, State.rowBytes_take, State.inboundGrp_take]
  rw [State.take_eq_with_host]
  rfl

/-- LINK_PERSONALITY sets the personality and the part id (01 R29). -/
theorem execLinkPersonality_done (s : State) (h : Hdr) (proc : Bool) {id : Nat} (hr : s.ready h Op.linkPersonality = true) (hid : id < 64) :
    ∃ t, exec (.linkPersonality h proc id) s = .next t ∧ Answered s t h Op.linkPersonality [] ∧
      t.dev = { s.dev with concentrator := !proc, partId := id } ∧ Frame s t [] [.dev] := by
  obtain ⟨t, he, ht, ha, hf⟩ := State.sync_done s h Op.linkPersonality
    (fun _ => firstRej [(decide (id < 64), rej Status.valueRange)])
    (fun s => { st := { s with dev.concentrator := !proc, dev.partId := id } }) [] [.dev]
    hr rfl rfl (by simp [firstRej, hid])
    ⟨fun _ _ => rfl, fun _ => rfl, fun p hp => by cases p <;> simp [Part.Same] at hp ⊢⟩
    (Eq.trans (by cases h.transport <;> rfl) (State.take_outbox s h _ _)) rfl rfl
  refine ⟨t, he, ha, ?_, hf⟩
  rw [ht, State.seal_dev, State.respond_dev, State.take_dev]

/-- VALUE_RANGE alone, for a command of the link that its own checks refuse (11 R310). -/
theorem valueRange_done (s : State) (h : Hdr) (op : Nat) (check : State → Option Rej) (eff : State → Effect)
    (hr : s.ready h op = true) (hu : opSigned op = false) (hc : check (s.take h op) = some (rej Status.valueRange)) :
    ∃ t, s.done (s.serve h op check eff) = .next t ∧ Replied s t h op Status.valueRange [0xFFFF0000] ∧ Frame s t [] [] := by
  obtain ⟨t, he, hp, hf, -⟩ := State.rejected_done s h op check eff (rej Status.valueRange) hr hu hc
    (by simp [rej, Status.valueRange])
  exact ⟨t, he, hp, hf⟩

theorem execLinkPersonality_valueRange (s : State) (h : Hdr) (proc : Bool) {id : Nat} (hr : s.ready h Op.linkPersonality = true)
    (hid : 64 ≤ id) : ∃ t, exec (.linkPersonality h proc id) s = .next t ∧
      Replied s t h Op.linkPersonality Status.valueRange [0xFFFF0000] ∧ Frame s t [] [] :=
  valueRange_done s h _ _ _ hr rfl (by simp [firstRej, hid])

/-- MESH_ROUTE writes the route of a part (11 Table 11.11). -/
theorem execMeshRoute_done (s : State) (h : Hdr) {part grp : Nat} (v : Bool) (hr : s.ready h Op.meshRoute = true)
    (hpart : part < 64) (hgrp : grp < 64) (hn : ¬(v = true ∧ grp = 63 ∧ bit (s.rd Reg.twinCfg) 31 = true)) :
    ∃ t, exec (.meshRoute h part v grp) s = .next t ∧ Answered s t h Op.meshRoute [] ∧
      bit (t.rd (Reg.meshRoute part)) 31 = v ∧ t.rdF (Reg.meshRoute part) 0 6 = grp ∧ Frame s t [Reg.meshRoute part] [] := by
  have hroute : (!(v && grp == 63 && bit (s.rd Reg.twinCfg) 31)) = true := by
    rw [Bool.not_eq_true', ← Bool.not_eq_true]
    simpa [and_assoc] using hn
  obtain ⟨t, he, ht, ha, hf⟩ := State.sync_done s h Op.meshRoute
    (fun s => firstRej [ (decide (part < 64 ∧ grp < 64), rej Status.valueRange)
                       , (!(v && grp == 63 && bit (s.rd Reg.twinCfg) 31), rej Status.valueRange) ])
    (fun s => { st := s.wr (Reg.meshRoute part) (BitVec.ofNat 32 ((if v then 2 ^ 31 else 0) + grp)) }) [Reg.meshRoute part] []
    hr rfl rfl (by simp only [firstRej, hpart, hgrp, State.rd_take, hroute]; rfl) (State.frame_wr _ _ _)
    (Eq.trans (by cases h.transport <;> rfl) (State.take_outbox s h _ _)) rfl rfl
  have hrd := State.rd_seal_respond ht (a := Reg.meshRoute part) (by unfold Reg.meshRoute Reg.wa; omega)
  rw [State.rd_wr_same] at hrd
  obtain ⟨hv, hg⟩ := routeWord_fields v hgrp
  exact ⟨t, he, ha, by rw [hrd]; exact hv, by unfold State.rdF; rw [hrd]; exact hg, hf⟩

/-- In twin mode the twin group takes no route (01 R32). -/
theorem execMeshRoute_valueRange (s : State) (h : Hdr) {part : Nat} (hr : s.ready h Op.meshRoute = true) (hpart : part < 64)
    (htw : bit (s.rd Reg.twinCfg) 31 = true) :
    ∃ t, exec (.meshRoute h part true 63) s = .next t ∧ Replied s t h Op.meshRoute Status.valueRange [0xFFFF0000] ∧ Frame s t [] [] :=
  valueRange_done s h _ _ _ hr rfl (by simp [firstRej, hpart, htw])

/-- An entry that the loader does not hold for class T passes the check of LINK_FIELD (11 R297). -/
theorem fieldFree {s : State} {f : Nat}
    (h : bit (s.rd (Reg.fieldEnt f)) 31 = false ∨ bit (s.rd (Reg.fieldEnt f)) 30 = false) :
    (!(bit (s.rd (Reg.fieldEnt f)) 31 && bit (s.rd (Reg.fieldEnt f)) 30)) = true := by
  rcases h with h | h <;> simp [h]

section
variable {f : Nat} {cfg dest ex : W32} (fill : W32) {s : State} {h : Hdr} (hr : s.ready h Op.linkField = true) (hf : f < 1024)
  (hok : fieldOk cfg dest ex = true) (hfree : bit (s.rd (Reg.fieldEnt f)) 31 = false ∨ bit (s.rd (Reg.fieldEnt f)) 30 = false)
  (hres : fld dest 0 4 = 0)
include hr hf hok hfree hres

/-- LINK_FIELD writes the four words of an entry, CLASS_T clear (11 R297). -/
theorem execLinkField_done (hin : bit cfg 31 = true → s.mayTakeIn (fld cfg 23 6) = true) :
    ∃ t, exec (.linkField h f cfg dest ex fill) s = .next t ∧ Answered s t h Op.linkField [] ∧
      t.rd (Reg.fieldEnt f) = setBit cfg 30 false ∧ t.rd (Reg.fieldEnt f + 4) = dest ∧ t.rd (Reg.fieldEnt f + 8) = ex ∧
      t.rd (Reg.fieldEnt f + 0xC) = fill ∧
      Frame s t [Reg.fieldEnt f, Reg.fieldEnt f + 4, Reg.fieldEnt f + 8, Reg.fieldEnt f + 0xC] [] := by
  obtain ⟨t, he, ht, ha, hfr⟩ := State.sync_done s h Op.linkField
    (fun s => firstRej
      [ (fld dest 0 4 == 0, rej Status.pktReserved)
      , (decide (f < 1024) && fieldOk cfg dest ex, rej Status.valueRange)
      , (!(bit (s.rd (Reg.fieldEnt f)) 31 && bit (s.rd (Reg.fieldEnt f)) 30), rej Status.valueRange)
      , (!bit cfg 31 || s.mayTakeIn (fld cfg 23 6), rej Status.valueRange) ])
    (fun s => { st := s.wrs [ (Reg.fieldEnt f, setBit cfg 30 false), (Reg.fieldEnt f + 4, dest)
                            , (Reg.fieldEnt f + 8, ex), (Reg.fieldEnt f + 0xC, fill) ] })
    [Reg.fieldEnt f, Reg.fieldEnt f + 4, Reg.fieldEnt f + 8, Reg.fieldEnt f + 0xC] [] hr rfl rfl
    (by
      have hmay : (!bit cfg 31 || s.mayTakeIn (fld cfg 23 6)) = true := by
        cases hb : bit cfg 31 with
        | false => rfl
        | true => exact hin hb
      simp only [firstRej, hres, hf, hok, State.rd_take, State.mayTakeIn_take, fieldFree hfree, hmay]
      rfl)
    (State.frame_wrs _ _) ((State.wrs_outbox _ _ _).trans (State.take_outbox s h _ _)) rfl rfl
  have hlt (k : Nat) (hk : k < 16) : Reg.fieldEnt f + k < Reg.wa := by unfold Reg.fieldEnt Reg.wa; omega
  have hrd (k : Nat) (hk : k < 16) := State.rd_seal_respond ht (hlt k hk)
  refine ⟨t, he, ha, (hrd 0 (by omega)).trans ?_, (hrd 4 (by omega)).trans ?_, (hrd 8 (by omega)).trans ?_,
    (hrd 12 (by omega)).trans ?_, hfr⟩ <;>
    simp [State.wrs, State.rd_wr]

/-- A group that may not be inbound is refused (01 R30). -/
theorem execLinkField_valueRange (hb : bit cfg 31 = true) (hin : s.mayTakeIn (fld cfg 23 6) = false) :
    ∃ t, exec (.linkField h f cfg dest ex fill) s = .next t ∧
      Replied s t h Op.linkField Status.valueRange [0xFFFF0000] ∧ Frame s t [] [] :=
  valueRange_done s h _ _ _ hr rfl (by
    simp only [firstRej, hres, hf, hok, State.rd_take, State.mayTakeIn_take, fieldFree hfree, hb, hin]
    rfl)

end

/-- LINK_AGGREGATE writes a stream's entry and its 64 items (11 R307). -/
theorem execLinkAggregate_done (s : State) (h : Hdr) {st : Nat} {entry : W64} {items : List W64}
    (hr : s.ready h Op.linkAggregate = true) (hc : s.aggregateRej st entry items = none) (hst : st < 64) :
    ∃ t, exec (.linkAggregate h st entry items) s = .next t ∧ Answered s t h Op.linkAggregate [] ∧ t.outEntry st = entry.toNat ∧
      (∀ i, i < 64 → t.outItemW st i = (items.getD i 0).toNat) ∧
      Frame s t ([Reg.outStream st, Reg.outStream st + 4] ++
        (List.range 64).flatMap (fun i => [Reg.outItem st i, Reg.outItem st i + 4])) [] := by
  obtain ⟨t, he, ht, ha, hf⟩ := State.sync_done s h Op.linkAggregate (fun s => s.aggregateRej st entry items)
    (fun s => { st := (s.wr64 (Reg.outStream st) entry).wrItems st items 64 })
    ([Reg.outStream st, Reg.outStream st + 4] ++ (List.range 64).flatMap (fun i => [Reg.outItem st i, Reg.outItem st i + 4])) []
    hr rfl rfl ((State.aggregateRej_take s h _ st entry items).trans hc)
    ((State.frame_wr64 _ _ _).trans (State.frame_wrItems _ _ _ _))
    ((State.wrItems_outbox _ _ _ _ _).trans (Eq.trans (by cases h.transport <;> rfl) (State.take_outbox s h _ _))) rfl rfl
  have hrd {a : Nat} (ha : a < Reg.wa) := State.rd_seal_respond ht ha
  refine ⟨t, he, ha, ?_, fun i hi => ?_, hf⟩
  · have hent := State.outEntry_wrItems ((s.take h Op.linkAggregate).wr64 (Reg.outStream st) entry) st st items hst 64 (Nat.le_refl _)
    unfold State.outEntry at hent ⊢
    rw [hrd (by unfold Reg.outStream Reg.wa; omega), hrd (by unfold Reg.outStream Reg.wa; omega), hent]
    exact State.rd_wr64_same _ _ _
  · have hitem := State.outItemW_wrItems ((s.take h Op.linkAggregate).wr64 (Reg.outStream st) entry) st items 64 i hi
    unfold State.outItemW at hitem ⊢
    rw [hrd (by unfold Reg.outItem Reg.wa; omega), hrd (by unfold Reg.outItem Reg.wa; omega), hitem]

/-- The time frame that TIME_FRAME sends on a group at a time of day (11 R301; 14 R373). -/
def State.timeFrame (s : State) (g : Nat) (x : Stamp) : TxFrame :=
  ⟨g, BitVec.ofNat 64 (x.sec * 2 ^ 16 + 0xE5), padTo (s.rowBytes g) (bytesLE 8 (x.ns * 2 ^ 32 + x.frac * 2 ^ 8 + s.dev.partId * 4))⟩

theorem State.timeFrame_type (s : State) (g : Nat) (x : Stamp) : (s.timeFrame g x).hdr.toNat % 256 = 0xE5 := by
  unfold State.timeFrame
  rw [BitVec.toNat_ofNat]
  omega

/-- Taking the packet leaves nothing waiting where nothing waited. -/
theorem txClear_take {s : State} {g : Nat} (hc : s.txClear g) (h : Hdr) (op : Nat) : (s.take h op).txClear g := by
  unfold State.txClear State.grpSt at hc ⊢
  rwa [State.take_link, State.take_inbandReplies]

/-- TIME_FRAME sends one time frame after what waited for its group, and replies the time sent (14 R373). -/
theorem execTimeFrame_done (s : State) (h : Hdr) {g : Nat} (hr : s.ready h Op.timeFrame = true) (hg : g < 64)
    (hen : bit (s.rd (Reg.grpCfg g)) 31 = true) :
    ∃ t l f, exec (.timeFrame h g) s = .next t ∧ Answered s t h Op.timeFrame (stampWords ((s.settleTx g).pinTime g)) ∧
      t.link.sent = s.link.sent ++ l ++ [f] ∧ (s.txClear g → l = []) ∧ f.group = g ∧ f.hdr.toNat % 256 = 0xE5 ∧
      Frame s t [] [.link] := by
  let u := s.take h Op.timeFrame
  let f := u.timeFrame g (stampOf ((u.settleTx g).pinTime g))
  have hlink : LinkOnly (fun u => (u.settleTx g).sendFrame f) := (linkOnly_sendFrame f).comp (linkOnly_settleTx g)
  obtain ⟨t, he, ht, ha, hf⟩ := State.sync_done s h Op.timeFrame
    (fun s => firstRej [(decide (g < 64) && bit (s.rd (Reg.grpCfg g)) 31, rej Status.valueRange)])
    (fun s => { st := (s.settleTx g).sendFrame (s.timeFrame g (stampOf ((s.settleTx g).pinTime g))),
                out := stampWords ((s.settleTx g).pinTime g) }) [] [.link]
    hr rfl rfl (by simp [firstRej, hg, hen]) (hlink.frame u) ((hlink.outbox u _).trans (State.take_outbox s h _ _)) rfl rfl
  have hsent : t.link.sent = ((u.settleTx g).settleTx g).link.sent ++ [f] := by
    rw [ht, State.seal_link, State.respond_link]
    exact sendFrame_sent (u.settleTx g) f
  have hu : u.link = s.link := State.take_link s h _
  obtain ⟨l, hl⟩ : s.link.sent <+: ((u.settleTx g).settleTx g).link.sent :=
    hu ▸ (settleTx_sent u g).trans (settleTx_sent (u.settleTx g) g)
  refine ⟨t, l, f, he, ?_, by rw [hsent, hl], fun hc => ?_, rfl, u.timeFrame_type g _, hf⟩
  · rwa [pinTime_settleTx_take] at ha
  · obtain ⟨h1, hc1⟩ := settleTx_of_txClear (txClear_take hc h Op.timeFrame)
    obtain ⟨h2, -⟩ := settleTx_of_txClear hc1
    rw [h2, h1, State.take_link] at hl
    simpa using hl

/-- TIME_FRAME_READ replies the count of time frames and clears it (14 R373). -/
theorem execTimeFrameRead_done (s : State) (h : Hdr) {g : Nat} (hr : s.ready h Op.timeFrameRead = true) (hg : g < 64) :
    ∃ t out, exec (.timeFrameRead h g) s = .next t ∧ Answered s t h Op.timeFrameRead (BitVec.ofNat 32 (s.grpSt g).timeCount :: out) ∧
      t.grpSt g = { s.grpSt g with timeCount := 0 } ∧ Frame s t [] [.link] := by
  have hu : (s.take h Op.timeFrameRead).grpSt g = s.grpSt g := by
    unfold State.grpSt
    rw [State.take_link]
  have hlink : LinkOnly (fun u => u.setGrp g { s.grpSt g with timeCount := 0 }) := linkOnly_setGrp g _
  obtain ⟨t, he, ht, ha, hf⟩ := State.sync_done s h Op.timeFrameRead (fun _ => firstRej [(decide (g < 64), rej Status.valueRange)])
    (fun s => { st := s.setGrp g { s.grpSt g with timeCount := 0 },
                out := BitVec.ofNat 32 (s.grpSt g).timeCount ::
                  (if (s.grpSt g).timeLast.isEmpty then List.replicate 9 0 else (s.grpSt g).timeLast) }) [] [.link]
    hr rfl rfl (by simp [firstRej, hg]) (by rw [hu]; exact hlink.frame _)
    (by rw [hu]; exact (hlink.outbox _ _).trans (State.take_outbox s h _ _)) rfl rfl
  rw [hu] at ht ha
  refine ⟨t, _, he, ha, ?_, hf⟩
  unfold State.grpSt
  rw [ht, State.seal_link, State.respond_link]
  exact State.grpSt_setGrp_same _ g _

/-- Settles O34: each command passes its checks and changes the registers, the part's identity or the transmit path it names. -/
theorem linkSetupCommands : Obligations.LinkSetupCommands := by
  intro s h
  refine ⟨fun proc id hr => ⟨execLinkPersonality_done s h proc hr, execLinkPersonality_valueRange s h proc hr⟩,
    fun part v grp hr hpart hgrp => ⟨execMeshRoute_done s h v hr hpart hgrp, ?_⟩,
    fun f cfg dest ex fill hr hf hok hfree hres =>
      ⟨execLinkField_done fill hr hf hok hfree hres, execLinkField_valueRange fill hr hf hok hfree hres⟩,
    fun st entry items => execLinkAggregate_done s h, fun g => execTimeFrame_done s h, fun g => execTimeFrameRead_done s h⟩
  rintro rfl rfl htw
  exact execMeshRoute_valueRange s h hr hpart htw

end Sys2Proof.Machine

/-! A KV_LOAD flit of a context that its caller's core does not hold (05 R145; 06 R158, R162). -/

namespace Sys2Proof.Machine

/-- The flit is flushed as a stale one. -/
theorem execKvLoad_stale (s : State) {tile g ps lc : Nat} {m : MeshItem} (ht : tile < 16) (hg : g < 4) (hm : s.ant.mesh = [m])
    (hd : m.dest = .sfu tile g 5 ps lc) (hv : s.ctxValid tile (s.phys tile lc) m.flit.ctx = false) :
    exec (.kvLoad tile g) s =
      .next (s.seal (State.stale { s with ant.mesh := [] } tile (s.phys tile lc) m.flit.ctx m.flit.dq m.flit)) := by
  have hk : s.kvLoad tile g = State.stale { s with ant.mesh := [] } tile (s.phys tile lc) m.flit.ctx m.flit.dq m.flit := by
    simp [State.kvLoad, hm, findIx, hd, hv]
  show s.onUnit (decide (tile < 16 ∧ g < 4)) (s.kvLoad tile g) = _
  rw [hk, decide_eq_true ⟨ht, hg⟩, State.onUnit_true]

@[simp] theorem State.rd_giveBack (s : State) (src : Option Src) (a : Nat) : (s.giveBack src).rd a = s.rd a := by
  cases src <;> rfl

/-- Of the registers that raising STALE_FLIT changes, FLT_TAIL alone lies at a place that the counts of stale flits, 64 bytes apart, would
reach. -/
theorem ctxrStale_mem_raiseRegs {k : Nat} (h : Reg.ctxrStale k ∈ raiseRegs Code.staleFlit) : Reg.ctxrStale k = Reg.fltTail := by
  simp only [raiseRegs, Code.staleFlit, Reg.ctxrStale, Reg.ctxr, Reg.fcCount, Reg.fltTail, Reg.faultSummary, Reg.fltDrops, Reg.logSeq,
    Reg.irqStatus, List.mem_cons, List.not_mem_nil, or_false] at h ⊢
  omega

/-- The four contexts of the part have their counts far below it. -/
theorem ctxrStale_ne_fltTail {k : Nat} (hk : k < 4) : Reg.ctxrStale k ≠ Reg.fltTail := by
  unfold Reg.ctxrStale Reg.ctxr Reg.fltTail
  omega

/-- Flushing a flit counts it, unless the count lies at FLT_TAIL. -/
theorem State.rd_stale_count (s : State) (t c q : Nat) (f : Flit) {k : Nat} (hk : Reg.ctxrStale k ≠ Reg.fltTail) :
    (s.stale t c k q f).rd (Reg.ctxrStale k) = satInc (s.rd (Reg.ctxrStale k)) := by
  unfold State.stale
  rw [State.rd_giveBack, State.rd_raise _ _ _ _ _ _ (fun h => hk (ctxrStale_mem_raiseRegs h)), State.rd_bump, if_pos rfl]

/-! The count of a context far beyond the four of the part, which the statement does not shut out, would lie at FLT_TAIL. -/

/-- The number at which the stale count of a context would be FLT_TAIL. -/
def contextAtTail : Nat := 0x3FFF3FFFF01

theorem ctxrStale_contextAtTail : Reg.ctxrStale contextAtTail = Reg.fltTail := rfl

/-- A KV_LOAD header of that context. -/
def kvOfTail : MeshItem :=
  { flit := { data := 0, tag := 0, ctx := contextAtTail, dq := 0, off := 0, len := 0, last := true, poison := false, src := none },
    dest := .sfu 0 0 5 0 0, result := false }

/-- After reset, with that flit alone in the mesh and a fault ring of 128 records enabled. -/
def kvTailState : State := { State.reset with ant.mesh := [kvOfTail] }.wr Reg.fltCfg 0x8000000C

theorem kvTailState_ctxValid : kvTailState.ctxValid 0 (kvTailState.phys 0 0) contextAtTail = false := by decide +kernel

/-- The count of the flush is overwritten when its record moves TAIL: the word reads 33, TAIL 1 with the count below it. -/
theorem kvTailState_stale_tail :
    (State.stale { kvTailState with ant.mesh := [] } 0 (kvTailState.phys 0 0) contextAtTail 0 kvOfTail.flit).rd Reg.fltTail = 33 ∧
      satInc (kvTailState.rd Reg.fltTail) = 1 := by
  decide +kernel

/-- Refutes O53: the statement bounds no context number, and the count of a stale KV_LOAD flit of context 0x3FFF3FFFF01 would lie at
FLT_TAIL, which the record of STALE_FLIT moves, so that the word rises by 33 and not by 1. For a context whose count lies elsewhere, as
those of the four contexts do, the count rises by 1 (`State.rd_stale_count`, `ctxrStale_ne_fltTail`). -/
theorem not_sfuCallsAndScarab : ¬ Obligations.SfuCallsAndScarab := by
  unfold Obligations.SfuCallsAndScarab
  rintro ⟨-, -, hkv, -⟩
  obtain ⟨hstale, -⟩ := hkv kvTailState 0 0 0 0 kvOfTail ⟨0, 0, 0, 0, 0, 0, [], false, 0, false, false, []⟩ (by omega) (by omega) rfl rfl
  obtain ⟨t, hexec, hcount, -⟩ := hstale kvTailState_ctxValid
  rw [execKvLoad_stale kvTailState (ps := 0) (lc := 0) (m := kvOfTail) (by omega) (by omega) rfl rfl kvTailState_ctxValid] at hexec
  obtain ⟨hread, hone⟩ := kvTailState_stale_tail
  have htail : t.rd Reg.fltTail = 33 := by
    rw [← Host.Outcome.next.inj hexec, State.rd_seal _ _ _ (by decide)]
    exact hread
  change t.rd Reg.fltTail = satInc (kvTailState.rd Reg.fltTail) at hcount
  rw [htail, hone] at hcount
  exact absurd hcount (by decide)

end Sys2Proof.Machine

/-! Reads and writes of Store by the host (07 R186, R199; 15 R396, R407). -/

namespace Sys2Proof.Machine

/-! Store in the address map (07 Table 7.1). -/

/-- The `n` bytes from `a` lie in Store. -/
def InStore (a n : Nat) : Prop := 0x100000000 ≤ a ∧ a + n ≤ 0x140000000

theorem InStore.regionOf {a n : Nat} (h : InStore a n) {i : Nat} (hi : i < n) : regionOf (a + i) = .store := by
  obtain ⟨lo, up⟩ := h
  unfold Machine.regionOf
  rw [if_neg (by omega), if_pos (by omega)]

theorem InStore.regionOf_first {a n : Nat} (h : InStore a n) (hn : 1 ≤ n) : Machine.regionOf a = .store := h.regionOf (i := 0) hn

/-- No access to Store waits for an HBM stack (07 R190). -/
theorem InStore.asleepIn {a n : Nat} (h : InStore a n) (hn : 1 ≤ n) (s : State) : s.asleepIn a n = false := by
  have hfirst := h.regionOf_first hn
  have hlast : Machine.regionOf (a + n - 1) = .store := by
    rw [Nat.add_sub_assoc hn]
    exact h.regionOf (by omega)
  simp [State.asleepIn, State.asleep, hfirst, hlast]

/-! Reading. -/

/-- Where the codes find nothing, a read of Store leaves the state as it is. -/
theorem InStore.readCodes {a n : Nat} (h : InStore a n) (s : State) (requester : Nat) : s.readCodes a n requester [] = s := by
  have hnone : ((List.range n).map (fun i => a + i)).filter (fun x => Machine.regionOf x == .pattern) = [] := by
    simp only [List.filter_eq_nil_iff, List.mem_map, List.mem_range]
    rintro x ⟨i, hi, rfl⟩
    simp [h.regionOf hi]
  unfold State.readCodes
  rw [hnone]
  rfl

theorem InStore.memByte {a n : Nat} (h : InStore a n) {i : Nat} (hi : i < n) (s : State) : s.memByte (a + i) = s.rdB (a + i) := by
  simp [State.memByte, h.regionOf hi]

/-- A read of Store gives the bytes and their marks, and no fault. -/
theorem InStore.memRead {a n : Nat} (h : InStore a n) (s : State) (requester : Nat) :
    s.memRead a n requester = ⟨s, s.rdBytes a n, (List.range n).map (fun i => s.isPoisonAt (a + i)), a⟩ := by
  have hmem : (List.range n).all (fun i => (Machine.regionOf (a + i)).isMem) = true := by
    simp only [List.all_eq_true, List.mem_range]
    intro i hi
    rw [h.regionOf hi]
    rfl
  have hbytes : (List.range n).map (fun i => s.memByte (a + i)) = s.rdBytes a n :=
    List.map_congr_left fun i hi => h.memByte (List.mem_range.1 hi) s
  unfold State.memRead
  rw [if_pos hmem, hbytes]

/-- Marks taken flit by flit are the marks of the whole (07 R200). -/
theorem any_flits (l : List Bool) (k : Nat) (h : l.length ≤ 32 * k) :
    (List.range k).any (fun i => ((l.drop (32 * i)).take 32).any id) = l.any id := by
  induction k generalizing l with
  | zero =>
    obtain rfl := List.length_eq_zero_iff.1 (Nat.le_zero.1 h)
    rfl
  | succ k ih =>
    have hrest := ih (l.drop 32) (by rw [List.length_drop]; omega)
    simp only [List.drop_drop] at hrest
    have hshift : ∀ i, 32 * (i + 1) = 32 + 32 * i := fun i => by omega
    calc (List.range (k + 1)).any (fun i => ((l.drop (32 * i)).take 32).any id)
        = ((l.take 32).any id || (l.drop 32).any id) := by
          rw [List.range_succ_eq_map, List.any_cons, List.any_map, ← hrest]
          simp only [Function.comp_def, Nat.succ_eq_add_one, hshift, Nat.mul_zero, List.drop_zero]
      _ = l.any id := by rw [← List.any_append, List.take_append_drop]

/-- A Window B read of Store delivers the bytes and whether any is poisoned (15 R396). -/
theorem InStore.windowRead {a n : Nat} (h : InStore a n) (hn : 1 ≤ n) (s : State) :
    s.windowRead a n [] =
      { s with host.windowOut := s.host.windowOut ++ [((List.range n).map (fun i => s.rdB (a + i)), s.isPoison a n)] } := by
  have hlen : ((List.range n).map (fun i => s.isPoisonAt (a + i))).length ≤ 32 * max 1 (ceilDiv n 32) := by
    rw [List.length_map, List.length_range]
    unfold ceilDiv
    omega
  have hmarks : (List.range (max 1 (ceilDiv n 32))).any
      (fun j => ((((List.range n).map (fun i => s.isPoisonAt (a + i))).drop (32 * j)).take 32).any id) = s.isPoison a n :=
    (any_flits _ _ hlen).trans List.any_map
  have hbytes : (s.rdBytes a n).take n = (List.range n).map (fun i => s.rdB (a + i)) :=
    List.take_of_length_le (by simp [State.rdBytes])
  simp [State.windowRead, h.regionOf_first hn, State.access, h.asleepIn hn, h.readCodes, State.carryOut, h.memRead, State.answerReq,
    hbytes, hmarks]

/-! Writing. -/

/-- A write of bytes changes memory and marks alone (07 R199). -/
theorem State.memWrite_eq (s : State) (a : Nat) (bs : List W8) (p : Bool) :
    s.memWrite a bs p = { s with mem := (s.wrBytes a bs).mem, poison := (s.memWrite a bs p).poison } := by
  unfold State.memWrite State.markBytes
  rw [State.wrBytes_eq]

@[simp] theorem State.rd_memWrite (s : State) (a : Nat) (bs : List W8) (p : Bool) (x : Nat) : (s.memWrite a bs p).rd x = s.rd x := by
  rw [State.memWrite_eq]
  rfl

theorem State.memWrite_outbox (s : State) (a : Nat) (bs : List W8) (p : Bool) (tr : Transport) :
    (s.memWrite a bs p).outbox tr = s.outbox tr := by
  rw [State.memWrite_eq]
  cases tr <;> rfl

theorem State.rdB_memWrite_in (s : State) (a i : Nat) (bs : List W8) (p : Bool) (h : i < bs.length) :
    (s.memWrite a bs p).rdB (a + i) = bs.getD i 0 := State.rdB_wrBytes_in s a i bs h

theorem State.rdB_memWrite_out (s : State) (a b : Nat) (bs : List W8) (p : Bool) (h : b < a ∨ a + bs.length ≤ b) :
    (s.memWrite a bs p).rdB b = s.rdB b := State.rdB_wrBytes_out s a b bs h

/-- Before a write the reads in transfer take their lines; no register and no byte changes (07 R188). -/
@[simp] theorem State.rd_beforeWrite (s : State) (classS : Bool) (x : Nat) : (s.beforeWrite classS).rd x = s.rd x := by
  cases classS <;> rfl

@[simp] theorem State.rdB_beforeWrite (s : State) (classS : Bool) (x : Nat) : (s.beforeWrite classS).rdB x = s.rdB x := by
  cases classS <;> rfl

/-- A Window B write to Store (15 R396). -/
theorem InStore.windowWrite {a : Nat} {bs : List W8} (h : InStore a bs.length) (hn : 1 ≤ bs.length) (s : State) :
    s.windowWrite a bs = (s.beforeWrite true).memWrite a bs false := by
  have hw : (List.range bs.length).all (fun i => writable (a + i)) = true := by
    simp only [List.all_eq_true, List.mem_range]
    intro i hi
    unfold writable
    rw [h.regionOf hi]
  simp [State.windowWrite, h.regionOf_first hn, hw, State.access, h.asleepIn hn, State.carryOut, State.answerReq]

theorem getD_bytesLE (n v i : Nat) (h : i < n) : (bytesLE n v).getD i 0 = BitVec.ofNat 8 (v / 2 ^ (8 * i)) := by
  induction n generalizing v i with
  | zero => omega
  | succ n ih =>
    cases i with
    | zero => simp [bytesLE]
    | succ i =>
      have hdiv : v / 256 / 2 ^ (8 * i) = v / 2 ^ (8 * (i + 1)) := by
        rw [Nat.div_div_eq_div_mul, Nat.mul_add, Nat.pow_add, Nat.mul_comm]
      rw [← hdiv]
      exact ih (v / 256) i (by omega)

/-- The end of a step leaves the registers that no reply changes. -/
theorem State.rd_seal_of_not_mem (s t : State) {a : Nat} (h : a ∉ replyRegs) : (s.seal t).rd a = t.rd a :=
  State.rd_seal s t a (fun e => h (by simp [e, replyRegs]))

/-! Window B. -/

theorem State.seal_windowOut (s t : State) : (s.seal t).host.windowOut = t.host.windowOut := by
  unfold State.seal
  dsimp only
  split
  · rfl
  · rw [State.irq_host]

/-- A delivery to the window changes the host interface alone. -/
theorem State.frame_with_host (s : State) (x : HostIf) : Frame s { s with host := x } [] [] :=
  ⟨fun _ _ => rfl, fun _ => rfl, fun p _ => by cases p <;> rfl⟩

/-- A Window B read of Store (15 R396). -/
theorem execWindowBRead_store (s : State) (a n : Nat) (hon : s.hubOn = true) (hn : 1 ≤ n) (h : InStore a n)
    (hw : s.inWindowB a n = true) :
    ∃ t, exec (.windowBRead a n []) s = .next t ∧
      t.host.windowOut = s.host.windowOut ++ [((List.range n).map (fun i => s.rdB (a + i)), s.isPoison a n)] ∧ Frame s t [] [] := by
  have he : exec (.windowBRead a n []) s = .next (s.seal (s.windowRead a n [])) := by
    show s.onUnit (decide (1 ≤ n)) (if s.hubOn && s.inWindowB a n then s.windowRead a n [] else s) = _
    rw [hon, hw, decide_eq_true hn, Bool.and_self, if_pos rfl, State.onUnit_true]
  refine ⟨_, he, ?_, ?_⟩
  · rw [State.seal_windowOut, h.windowRead hn]
  · rw [h.windowRead hn]
    exact (State.frame_with_host s _).trans (State.frame_seal s _)

/-- A Window B write to Store (15 R396). -/
theorem execWindowBWrite_store (s : State) (a : Nat) (bs : List W8) (hon : s.hubOn = true) (hn : 1 ≤ bs.length)
    (h : InStore a bs.length) (hw : s.inWindowB a bs.length = true) :
    ∃ t, exec (.windowBWrite a bs) s = .next t ∧ (∀ i, i < bs.length → t.rdB (a + i) = bs.getD i 0) ∧
      (∀ b, b < a ∨ a + bs.length ≤ b → t.rdB b = s.rdB b) ∧ SameRegs s t replyRegs := by
  have he : exec (.windowBWrite a bs) s = .next (s.seal ((s.beforeWrite true).memWrite a bs false)) := by
    show s.onUnit (decide (1 ≤ bs.length)) (if s.hubOn && s.inWindowB a bs.length then s.windowWrite a bs else s) = _
    rw [hon, hw, decide_eq_true hn, Bool.and_self, if_pos rfl, h.windowWrite hn, State.onUnit_true]
  refine ⟨_, he, fun i hi => ?_, fun b hb => ?_, fun x hx => ?_⟩
  · rw [State.rdB_seal, State.rdB_memWrite_in _ _ _ _ _ hi]
  · rw [State.rdB_seal, State.rdB_memWrite_out _ _ _ _ _ hb, State.rdB_beforeWrite]
  · rw [State.rd_seal_of_not_mem _ _ hx, State.rd_memWrite, State.rd_beforeWrite]

/-! Debug access. -/

/-- A synchronous, unsigned command that reaches step 10 and passes its own checks: the next state and its answer. -/
theorem State.sync_answered (s : State) (h : Hdr) (op : Nat) (check : State → Option Rej) (eff : State → Effect)
    (hr : s.ready h op = true) (hu : opSigned op = false) (ha : opAsync op = false) (hc : check (s.take h op) = none)
    (hh : (eff (s.take h op)).st.outbox h.transport = s.outbox h.transport) (hid : (eff (s.take h op)).after = id)
    (hl : (eff (s.take h op)).late = false) :
    ∃ t, s.done (s.serve h op check eff) = .next t ∧
      t = s.seal ((eff (s.take h op)).st.respond h op (eff (s.take h op)).out) ∧ Answered s t h op (eff (s.take h op)).out := by
  have e := State.taken_of_unsigned s h op hr hu
  have key : s.serve h op check eff = (eff (s.take h op)).st.respond h op (eff (s.take h op)).out := by
    rw [State.serve_sync s h op check eff hr (by rw [e]; exact hc) ha (by rw [e]; exact hl), e, hid]
    rfl
  exact ⟨_, by rw [key]; rfl, rfl, (State.respond_answered s _ h op _ hh).seal⟩

/-- With DEBUG_LOCK set every debug access is refused (18 R456). -/
theorem State.debugRej_locked {s : State} (hl : bit (s.rd Reg.secStat) 31 = true) (a n : Nat) :
    s.debugRej a n = some (rej Status.debugLocked) := by
  simp [State.debugRej, State.debugLocked, hl, orRej, unlessOk]

/-- With it clear, one aligned word of Store passes the checks (15 R407). -/
theorem State.debugRej_store {s : State} (hl : bit (s.rd Reg.secStat) 31 = false) {a : Nat} (h : InStore a 4) (h4 : a % 4 = 0) :
    s.debugRej a 1 = none := by
  simp [State.debugRej, State.debugLocked, hl, orRej, unlessOk, countRej, mappedRange, wordAddrs, h4, h.regionOf_first]

/-- A debug read of a word of Store (15 R407). -/
theorem InStore.debugAccess_read {a : Nat} (h : InStore a 4) (s : State) (hd : Hdr) :
    s.debugAccess hd Op.debugRead a 4 none [] =
      { st := s, out := [BitVec.ofNat 32 (ofBytesLE [s.rdB a, s.rdB (a + 1), s.rdB (a + 2), s.rdB (a + 3)])] } := by
  have hr := h.regionOf_first (by omega)
  have hword : (List.range 4).map (fun i => s.memByte (a + i)) = [s.rdB a, s.rdB (a + 1), s.rdB (a + 2), s.rdB (a + 3)] :=
    List.map_congr_left fun i hi => h.memByte (List.mem_range.1 hi) s
  simp [State.debugAccess, hr, h.asleepIn, h.readCodes, wordAddrs, State.readWords, Region.isMem, hword]

/-- A debug write of a word of Store writes its bytes, and a line that it covers is clean (15 R407; 07 R199). -/
theorem InStore.debugAccess_write {a : Nat} (h : InStore a 4) (s : State) (hd : Hdr) (v : W32) :
    s.debugAccess hd Op.debugWrite a 4 (some [v]) [] = { st := s.memWrite a (bytesLE 4 v.toNat) false } := by
  have hr := h.regionOf_first (by omega)
  simp [State.debugAccess, hr, h.asleepIn, State.writeWords, State.writeEach, Region.isMem, State.memWrite, bytesLE_length]

/-- DEBUG_READ of a word of Store (15 R407). -/
theorem execDebugRead_store (s : State) (h : Hdr) (a : Nat) (hr : s.ready h Op.debugRead = true)
    (hl : bit (s.rd Reg.secStat) 31 = false) (h4 : a % 4 = 0) (hs : InStore a 4) :
    ∃ t, exec (.debugRead h a 1 []) s = .next t ∧
      Answered s t h Op.debugRead [BitVec.ofNat 32 (ofBytesLE [s.rdB a, s.rdB (a + 1), s.rdB (a + 2), s.rdB (a + 3)])] ∧
      Frame s t [] [] := by
  have hacc := hs.debugAccess_read (s.take h Op.debugRead) h
  obtain ⟨t, ht, -, ha, hf⟩ := State.sync_done s h Op.debugRead (fun s => s.debugRej a 1)
    (fun s => s.debugAccess h Op.debugRead a 4 none []) [] [] hr rfl rfl
    (State.debugRej_store (by rw [State.rd_take]; exact hl) hs h4) (by rw [hacc]; exact Frame.refl _)
    (by rw [hacc]; exact State.take_outbox s h _ _) (by rw [hacc]) (by rw [hacc])
  simp only [hacc, State.rdB_take] at ha
  exact ⟨t, ht, ha, hf⟩

/-- DEBUG_WRITE of a word of Store (15 R407). -/
theorem execDebugWrite_store (s : State) (h : Hdr) (a : Nat) (v : W32) (hr : s.ready h Op.debugWrite = true)
    (hl : bit (s.rd Reg.secStat) 31 = false) (h4 : a % 4 = 0) (hs : InStore a 4) :
    ∃ t, exec (.debugWrite h a [v]) s = .next t ∧ Answered s t h Op.debugWrite [] ∧
      (∀ i, i < 4 → t.rdB (a + i) = BitVec.ofNat 8 (v.toNat / 2 ^ (8 * i))) ∧
      (∀ b, b < a ∨ a + 4 ≤ b → t.rdB b = s.rdB b) ∧ SameRegs s t replyRegs := by
  have hlen : (bytesLE 4 v.toNat).length = 4 := bytesLE_length 4 _
  have hacc := hs.debugAccess_write (s.take h Op.debugWrite) h v
  have hrej : (s.take h Op.debugWrite).debugRej a 1 = none := State.debugRej_store (by rw [State.rd_take]; exact hl) hs h4
  obtain ⟨t, ht, htq, ha⟩ := State.sync_answered s h Op.debugWrite
    (fun s => orRej (s.debugRej a 1)
      (unlessOk (!(wordAddrs a 1).any (fun a => regionOf a == .pattern)) (rej Status.addrInvalid 0 0)))
    (fun s => s.debugAccess h Op.debugWrite a 4 (some [v]) []) hr rfl rfl
    (by simp [hrej, orRej, unlessOk, wordAddrs, hs.regionOf_first])
    (by rw [hacc]; exact (State.memWrite_outbox _ _ _ _ _).trans (State.take_outbox s h _ _)) (by rw [hacc]) (by rw [hacc])
  simp only [hacc] at htq ha
  refine ⟨t, ht, ha, fun i hi => ?_, fun b hb => ?_, fun x hx => ?_⟩
  · rw [htq, State.rdB_seal, State.rdB_respond, State.rdB_memWrite_in _ _ _ _ _ (by omega), getD_bytesLE _ _ _ hi]
  · rw [htq, State.rdB_seal, State.rdB_respond, State.rdB_memWrite_out _ _ _ _ _ (by omega), State.rdB_take]
  · rw [htq, State.rd_seal_of_not_mem _ _ hx, State.rd_respond _ _ _ _ _ hx, State.rd_memWrite,
      State.rd_take]

/-- A debug command that DEBUG_LOCK refuses has no effect but its reply (18 R456). -/
theorem debugLocked_done (s : State) (h : Hdr) (op : Nat) (check : State → Option Rej) (eff : State → Effect)
    (hr : s.ready h op = true) (hu : opSigned op = false) (hc : check (s.take h op) = some (rej Status.debugLocked)) :
    ∃ t, s.done (s.serve h op check eff) = .next t ∧ Replied s t h op Status.debugLocked [0xFFFF0000] ∧ Frame s t [] [] := by
  obtain ⟨t, he, hp, hf, -⟩ := State.rejected_done s h op check eff (rej Status.debugLocked) hr hu hc (by simp [rej, Status.debugLocked])
  exact ⟨t, he, hp, hf⟩

/-- Settles O9: each access meets Store alone, whose bytes are read and written as they stand, and DEBUG_LOCK is the first check of the
debug commands. -/
theorem hostAndDebugMemoryAccess : Obligations.HostAndDebugMemoryAccess := by
  refine ⟨fun s a n hon hn lo up hw => execWindowBRead_store s a n hon hn ⟨lo, up⟩ hw,
    fun s a bs hon hn lo up hw => execWindowBWrite_store s a bs hon hn ⟨lo, up⟩ hw,
    fun s h a hr hl h4 lo up => execDebugRead_store s h a hr hl h4 ⟨lo, up⟩,
    fun s h a v hr hl h4 lo up => execDebugWrite_store s h a v hr hl h4 ⟨lo, up⟩,
    fun s h a n ws hl => ⟨fun hr => ?_, fun hr => ?_⟩⟩
  · exact debugLocked_done s h Op.debugRead _ _ hr rfl (State.debugRej_locked (by rw [State.rd_take]; exact hl) a n)
  · have hrej : (s.take h Op.debugWrite).debugRej a ws.length = some (rej Status.debugLocked) :=
      State.debugRej_locked (by rw [State.rd_take]; exact hl) a ws.length
    exact debugLocked_done s h Op.debugWrite _ _ hr rfl (by simp only [hrej, orRej])

end Sys2Proof.Machine

/-! A revoked holder at an arbiter (07 R209). -/

namespace Sys2Proof.Machine

/-- An arbiter reads as it was set. -/
theorem State.arb_setArb (s : State) {i : Nat} {x : ArbSt} (hx : x.ix = i) : (s.setArb x).arb i = x := by
  subst hx
  have hnone : (s.banks.arbs.filter (fun y => y.ix != x.ix)).find? (fun y => y.ix == x.ix) = none := by
    simp [List.find?_eq_none]
  simp [State.arb, State.setArb, List.find?_append, hnone]

theorem State.arb_ix (s : State) (i : Nat) : (s.arb i).ix = i := by
  unfold State.arb
  cases h : s.banks.arbs.find? (fun x => x.ix == i) with
  | none => rfl
  | some x => simpa using List.find?_some h

/-- ARB_STAT names the requester that a revocation takes the grant from, and nothing beside it (07 Table 7.10). -/
theorem State.rd_arbRevoke_stat (s : State) (i from' : Nat) {r : ArbReq} (h : (s.arb i).holder = some r) :
    (s.arbRevoke i from').rd (Reg.arb i) = BitVec.ofNat 32 r.id := by
  simp [State.arbRevoke, h, State.arbStat]

section
variable (s : State) {i id len cyc : Nat} {acc : Option ArbAccess} {r : ArbReq}
  (hawake : s.arbAwake i = true) (hcyc : (s.arb i).lastCyc ≤ cyc) (hw : ∀ x ∈ (s.arb i).waiting, x.id ≠ id)
  (hr : (s.arb i).holder = some r) (hid : r.id ≠ id) (hg : (s.arb i).guarded = false) (hp : s.holdPrio i < s.prio id)
include hawake hcyc hw hr hid hg hp

/-- A request of strictly higher priority takes the grant of a holder that is not protected (07 R209). -/
theorem State.arbRequest_revokes :
    s.arbRequest i id len cyc acc =
      (s.setArb { s.arb i with waiting := (s.arb i).waiting ++ [⟨id, len, cyc, acc⟩], lastCyc := cyc }).arbRevoke i (cyc + 2) := by
  have hwait : (s.arb i).waiting.any (fun x => x.id == id) = false := by simpa using hw
  have hp' : ∀ x, (s.setArb x).holdPrio i < (s.setArb x).prio id := fun _ => hp
  simp [State.arbRequest, hawake, Nat.not_lt.2 hcyc, hwait, hr, hid, hg, hp']

/-- After such a request ARB_STAT is the holder's id as a word (07 Table 7.10). -/
theorem State.rd_arbRequest_stat :
    (s.arbRequest i id len cyc acc).rd (Reg.arb i) = BitVec.ofNat 32 r.id := by
  rw [State.arbRequest_revokes s hawake hcyc hw hr hid hg hp]
  exact State.rd_arbRevoke_stat _ i _ (by rw [State.arb_setArb s (by exact s.arb_ix i)]; exact hr)

end

/-- The ids of Table 7.9 lie below HOLDING, so that it is clear. -/
theorem bit_holding_of_requesterOk {id : Nat} (h : requesterOk id = true) : bit (BitVec.ofNat 32 id) 31 = false := by
  have hlt : id < 2 ^ 31 := by
    simp only [requesterOk, decide_eq_true_eq] at h
    omega
  simp only [bit, fld, BitVec.toNat_ofNat, Nat.shiftRight_eq_div_pow, beq_eq_false_iff_ne]
  omega

/-! The holder of a number far beyond the requesters of the part, which the statement does not shut out where it speaks of revocation. -/

/-- A holder whose number is bit 31 of a word. -/
def holderAtHolding : ArbReq := ⟨2 ^ 31, 1, 0, none⟩

/-- After reset, with the first pseudo-channel held by it, and the loader of the highest priority. -/
def highHolderState : State :=
  { State.reset with banks.arbs := [{ ArbSt.new 0 with holder := some holderAtHolding }] }.wr (Reg.reqPrio Req.loader) 7

/-- Refutes O47: where a request revokes a holder, the statement bounds no holder's id, and ARB_STAT keeps OWNER at its low end as the
whole number, so that an id of 2^31 leaves HOLDING set. For the requesters that exist it is clear (`State.rd_arbRequest_stat`,
`bit_holding_of_requesterOk`). -/
theorem not_arbitersGrantByPriority : ¬ Obligations.ArbitersGrantByPriority := by
  unfold Obligations.ArbitersGrantByPriority
  intro hall
  have hawake : highHolderState.arbAwake 0 = true := by decide +kernel
  have hwait : ∀ x ∈ (highHolderState.arb 0).waiting, x.id ≠ Req.loader := by decide +kernel
  have hholder : (highHolderState.arb 0).holder = some holderAtHolding := by decide +kernel
  have hprio : highHolderState.holdPrio 0 < highHolderState.prio Req.loader := by decide +kernel
  have hother : ∀ r, (highHolderState.arb 0).holder = some r → r.id ≠ Req.loader := by
    rintro r hr
    rw [← Option.some.inj (hholder.symm.trans hr)]
    decide
  obtain ⟨hrequest, -⟩ := hall highHolderState 0 Req.loader 1 0 none (by decide +kernel) (by decide) (by decide) (by decide) (by decide)
    (by simp) (by decide +kernel) hawake
  obtain ⟨t, hexec, -, -, -, -, -, hholding, -⟩ := (hrequest hwait hother).2 holderAtHolding hholder (by decide +kernel) hprio
  have hrun : exec (.arbRequest 0 Req.loader 1 0 none) highHolderState =
      .next (highHolderState.seal (highHolderState.arbRequest 0 Req.loader 1 0 none)) := rfl
  have hstat : t.rd (Reg.arb 0) = BitVec.ofNat 32 (2 ^ 31) := by
    rw [← Host.Outcome.next.inj (hrun.symm.trans hexec), State.rd_seal _ _ _ (by decide)]
    exact State.rd_arbRequest_stat _ hawake (by decide +kernel) hwait hholder (by decide) (by decide +kernel) hprio
  rw [hstat] at hholding
  exact absurd hholding (by decide)

end Sys2Proof.Machine

/-! A chunk of the staged image while the stack of the loader region is in self-refresh (07 R190; 09 R240, R241). -/

namespace Sys2Proof.Machine

/-! What taking a packet leaves of the loader's checks. -/

theorem State.take_waits (s : State) (h : Hdr) (op : Nat) : (s.take h op).host.waits = s.host.waits := by
  unfold State.take
  dsimp only
  split <;> split <;> rfl

@[simp] theorem State.stagedUnder_take (s : State) (h : Hdr) (op handle : Nat) :
    (s.take h op).stagedUnder handle = s.stagedUnder handle := by
  simp only [State.stagedUnder, State.take_loader]

@[simp] theorem State.committing_take (s : State) (h : Hdr) (op : Nat) : (s.take h op).committing = s.committing := by
  simp only [State.committing, State.take_loader]

@[simp] theorem State.stagedRej_take (s : State) (h : Hdr) (op handle step : Nat) :
    (s.take h op).stagedRej handle step = s.stagedRej handle step := by
  simp only [State.stagedRej, State.stagedUnder_take, State.committing_take]

@[simp] theorem State.gotOrWait_take (s : State) (h : Hdr) (op : Nat) (g : Staged) :
    (s.take h op).gotOrWait g = s.gotOrWait g := by
  simp only [State.gotOrWait, State.take_waits]

@[simp] theorem State.loaderAsleep_take (s : State) (h : Hdr) (op : Nat) : (s.take h op).loaderAsleep = s.loaderAsleep := by
  simp only [State.loaderAsleep, State.take_pwr]

/-! The staged image under its own handle. -/

theorem State.stagedUnder_handle {s : State} {g : Staged} (hg : s.loader.staged = some g) : s.stagedUnder g.handle = some g := by
  simp [State.stagedUnder, hg]

theorem State.stagedRej_handle {s : State} {g : Staged} (hg : s.loader.staged = some g) (hc : s.committing = false) (step : Nat) :
    s.stagedRej g.handle step = none := by
  simp [State.stagedRej, firstRej, State.stagedUnder_handle hg, hc]

/-! The access. -/

/-- An access that starts in the loader region waits for its stack. -/
theorem State.asleepIn_loader {s : State} (hs : s.loaderAsleep = true) {base off : Nat} (hin : base + off < 0x200000000) (n : Nat) :
    s.asleepIn (imgAddr base off) n = true := by
  have hregion : regionOf (imgAddr base off) = .hbm := by
    unfold regionOf imgAddr Reg.csr
    rw [if_neg (by omega), if_neg (by omega), if_neg (by omega), if_neg (by omega), if_pos (by omega)]
  have hstack : stackOf (imgAddr base off) = 7 := by
    unfold stackOf imgAddr
    omega
  simp only [State.asleepIn, State.asleep, hregion, hstack, Bool.or_eq_true]
  exact .inl hs

/-- What waits is no reply yet. -/
theorem State.outbox_with_waits (s : State) (l : List (HostReq × Nat)) (tr : Transport) :
    ({ s with host.waits := l } : State).outbox tr = s.outbox tr := by
  cases tr <;> rfl

/-- A synchronous, unsigned command that passes its checks and whose reply comes later ends its step with its effect alone. -/
theorem State.late_done (s u : State) (h : Hdr) (op : Nat) (check : State → Option Rej) (eff : State → Effect)
    (hr : s.ready h op = true) (hu : opSigned op = false) (ha : opAsync op = false) (hc : check (s.take h op) = none)
    (he : eff (s.take h op) = { st := u, late := true }) : s.done (s.serve h op check eff) = .next (s.seal u) := by
  have key : s.serve h op check eff = u := by
    rw [State.serve_ready s h op check eff hr, State.taken_of_unsigned s h op hr hu, hc, he]
    simp [State.answer, ha]
  rw [key]
  rfl

/-- LOAD_CHUNK of a range that has not come, while the stack of the loader region is in self-refresh: no reply is sent and nothing is
stored (07 R190). -/
theorem execLoadChunk_asleep {s : State} {h : Hdr} {g : Staged} {off : Nat} {bs : List W8} (hr : s.ready h Op.loadChunk = true)
    (hg : s.loader.staged = some g) (hc : s.committing = false) (ha : off % 32 = 0) (lo : 32 ≤ bs.length) (up : bs.length ≤ 16352)
    (hlen : off + bs.length ≤ g.len)
    (hfree : (s.gotOrWait g).any (fun e => rangesMeet (e.1, e.2 - e.1) (off, bs.length)) = false)
    (hs : s.loaderAsleep = true) (hin : g.base + off < 0x200000000) :
    ∃ t, exec (.loadChunk h g.handle off bs) s = .next t ∧ t.outbox h.transport = s.outbox h.transport ∧ Frame s t [] [] := by
  have hunder := State.stagedUnder_handle hg
  have hstaged := State.stagedRej_handle hg hc 0
  have hsleep : (s.take h Op.loadChunk).loaderAsleep = true := by rw [State.loaderAsleep_take, hs]
  have hwait := State.asleepIn_loader hsleep hin bs.length
  refine ⟨_, State.late_done s _ h Op.loadChunk _ _ hr rfl rfl
    (by simp [hunder, hstaged, hfree, firstRej, orRej, unlessOk, ha, lo, up, hlen])
    (by simp only [State.stagedUnder_take, hunder, hsleep, if_true, State.access, hwait]; rfl), ?_, ?_⟩
  · rw [State.seal_outbox, State.outbox_with_waits, State.take_outbox]
  · exact ((State.frame_take s h _).trans (State.frame_with_host _ _)).trans (State.frame_seal s _)

/-! The image staged after reset, and the stack of its region asleep, as shedding stage S2 leaves a stack without an ESSENTIAL segment
(17 R436). -/

/-- An image of 32 bytes of which nothing has come. -/
def emptyStaged : Staged :=
  { handle := 1, base := 0, len := 32, got := [], img := Contents.empty, bases := [], parts := [], patches := [], committing := false,
    validAt := none }

def sleepingLoaderState : State := { State.reset with loader.staged := some emptyStaged, pwr.asleep := 2 ^ 7 }

/-- An unsigned packet over SPI that asks for its reply. -/
def spiHdr : Hdr := ⟨.spi, 1, false, none⟩

/-- Refutes O26: the statement has LOAD_CHUNK answered and its bytes stored at once, with no premise on the stack of the loader region.
While that stack is in self-refresh the chunk waits for it, and its reply with it (`execLoadChunk_asleep`). -/
theorem not_loadingStagesAnImage : ¬ Obligations.LoadingStagesAnImage := by
  unfold Obligations.LoadingStagesAnImage
  intro hall
  have hready : sleepingLoaderState.ready spiHdr Op.loadChunk = true := by decide +kernel
  obtain ⟨-, hstaged, -⟩ := hall sleepingLoaderState spiHdr rfl
  obtain ⟨hchunk, -⟩ := hstaged emptyStaged rfl
  obtain ⟨t, hexec, ⟨r, hreply, -⟩, -⟩ := hchunk 0 (List.replicate 32 0xA5) hready rfl (by decide) (by decide) (by decide) rfl
  obtain ⟨u, hwaits, hnone, -⟩ := execLoadChunk_asleep (s := sleepingLoaderState) (g := emptyStaged) (off := 0)
    (bs := List.replicate 32 0xA5) hready rfl rfl rfl (by decide) (by decide) (by decide) rfl rfl (by decide)
  obtain rfl := Host.Outcome.next.inj (hexec.symm.trans hwaits)
  exact List.cons_ne_nil r [] (List.self_eq_append_right.1 (hnone.symm.trans hreply))

end Sys2Proof.Machine
